-- ==== Sys2Proof/Word.lean ====
section
/-! DEFINITION. The words of the AX1: a 64-bit scalar, a byte, a 2 KiB vector register, a 512-bit predicate, and a
32-byte granule (R13, R25). -/

namespace Sys2Proof

/-- A 64-bit scalar register or memory doubleword (R13). -/
abbrev Word := BitVec 64

/-- One byte (R89: a location is one byte). -/
abbrev Byte := BitVec 8

/-- A 32-bit slot word (R25). -/
abbrev SlotWord := BitVec 32

/-- A vector register: 2,048 bytes, byte 0 in bits [7:0] (R13, R181). -/
abbrev VReg := BitVec 16384

/-- A predicate register of 512 bits (R13). -/
abbrev PReg := BitVec 512

/-- A 32-byte granule: a full bundle, a dictionary entry or a handle descriptor (R24, R28, R151). -/
abbrev Granule := BitVec 256

end Sys2Proof
end

