-- ==== Sys2Proof/Syntax.lean ====
section
/-! DEFINITION. The instruction set as data: one constructor of `Instr` per row of spec/opcode_table.json. Slot operations
carry the fields of their form (R33, R34, R36, R38 to R41); the rows that are events of the device carry what identifies the
event. The yield mark of an S word is no field of its instruction: the S decoder ignores it (R26). -/

namespace Sys2Proof

/-- The eight slots of a bundle (R12). -/
inductive Slot where
  | s | l | v0 | v1 | f | m | d | k
  deriving DecidableEq, Repr

/-- The two vector engines (R12). -/
inductive VEng where
  | v0 | v1
  deriving DecidableEq, Repr

/-- The five scopes and their order (R11). -/
inductive Scope where
  | core | quad | die | pkg | pod
  deriving DecidableEq, Repr

/-- The access paths (R94). -/
inductive Path where
  | l | d | m | g | c
  deriving DecidableEq, Repr

/-- The kinds of fence (R98). -/
inductive FenceKind where
  | acq | rel | acqrel | sc
  deriving DecidableEq, Repr

/-- Format codes 0 to 14 (R65). -/
inductive Fmt where
  | page | i8 | i16 | i32 | f16 | bf16 | f32 | bi8 | bi4 | f4x | t3p | n8 | n16 | n32 | i4
  deriving DecidableEq, Repr

/-- Rounding modes (R79). -/
inductive Rnd where
  | rne | rtz | rup | rdn | rod
  deriving DecidableEq, Repr

/-- Conditions of the compares (R36). -/
inductive Cond where
  | eq | ne | lt | le | gt | ge
  deriving DecidableEq, Repr

/-- The operation of a reduction (R195). -/
inductive RedOp where
  | sum | max | min
  deriving DecidableEq, Repr

/-- Weights per cell (R39). -/
inductive Pack where
  | one | two | five
  deriving DecidableEq, Repr

/-- Modes of MMA (R39). -/
inductive MMode where
  | int | block | f4x | t3
  deriving DecidableEq, Repr

/-- Kinds of collective (R40). -/
inductive CollKind where
  | bcast | gather | scatter | add
  deriving DecidableEq, Repr

/-- Operations of KALU (R41). -/
inductive KOp where
  | add | sub | and | or | xor | sll | srl | sra | slt
  deriving DecidableEq, Repr

/-- A source of KALU: a check register or a scalar register (R41). -/
inductive KSrc where
  | k (n : Fin 8)
  | x (n : Fin 32)
  deriving DecidableEq, Repr

/-- R-type fields of the S slot (R33). -/
structure RType where
  rd : Fin 32
  rs1 : Fin 32
  rs2 : Fin 32
  deriving DecidableEq, Repr

/-- I-type fields: rd, rs1 and a 12-bit immediate (R33). -/
structure IType where
  rd : Fin 32
  rs1 : Fin 32
  imm : BitVec 12
  deriving DecidableEq, Repr

/-- S-type fields: rs1 the address base, rs2 the data, a 12-bit immediate (R33). -/
structure SType where
  rs1 : Fin 32
  rs2 : Fin 32
  imm : BitVec 12
  deriving DecidableEq, Repr

/-- B-type fields of the RISC-V layout: `imm` is bits [12:1] of the byte offset (R116). -/
structure BType where
  rs1 : Fin 32
  rs2 : Fin 32
  imm : BitVec 12
  deriving DecidableEq, Repr

/-- Shift-immediate fields; the amount is 6 bits wide for RV64 and 5 for the W forms (R116). -/
structure ShType where
  rd : Fin 32
  rs1 : Fin 32
  sh : Fin 64
  deriving DecidableEq, Repr

/-- The LM form (R34). -/
structure LM where
  vd : Fin 32
  xb : Fin 32
  h : Fin 16
  off : BitVec 12
  deriving DecidableEq, Repr

/-- The LS form (R34). -/
structure LS where
  vd : Fin 32
  xb : Fin 32
  h : Fin 16
  xs : Fin 32
  deriving DecidableEq, Repr

/-- Scope, path mask and handle mask of the LF form (R34). -/
structure LF where
  scope : Scope
  paths : BitVec 5
  hmask : BitVec 16
  deriving DecidableEq, Repr

/-- The V3R form (R36): `pg = none` is the encoding 63, no predicate. -/
structure V3R where
  vd : Fin 32
  vs1 : Fin 32
  vs2 : Fin 32
  pg : Option (Fin 48)
  zm : Bool
  w1 : Bool
  w2 : Bool
  q : Bool
  dup : Bool
  deriving DecidableEq, Repr

/-- The V3R form with vs2 and q fixed at 0 (R37). -/
structure V2R where
  vd : Fin 32
  vs1 : Fin 32
  pg : Option (Fin 48)
  zm : Bool
  w1 : Bool
  w2 : Bool
  dup : Bool
  deriving DecidableEq, Repr

/-- A reduction word: V3R with the selectors in place of vs2 (R37, R195). -/
structure VRed where
  vd : Fin 32
  vs1 : Fin 32
  cols : Bool
  op : RedOp
  pg : Option (Fin 48)
  zm : Bool
  w1 : Bool
  w2 : Bool
  dup : Bool
  deriving DecidableEq, Repr

/-- The VCP form (R36). -/
structure VCP where
  pd : Fin 48
  vs1 : Fin 32
  vs2 : Fin 32
  pg : Option (Fin 48)
  cond : Cond
  w : Bool
  deriving DecidableEq, Repr

/-- The VCV form of VCVT (R36). -/
structure VCV where
  vd : Fin 32
  vs1 : Fin 32
  fin : Fmt
  fout : Fmt
  rnd : Rnd
  sat : Bool
  strict : Bool
  w1 : Bool
  deriving DecidableEq, Repr

/-- The VPR form (R36). -/
structure VPR where
  pd : Fin 48
  pa : Fin 48
  pb : Fin 48
  deriving DecidableEq, Repr

/-- The F3R form (R38, R207). -/
structure F3R where
  vd : Fin 32
  vs1 : Fin 32
  vs2 : Fin 32
  pg : Option (Fin 48)
  zm : Bool
  w1 : Bool
  w2 : Bool
  q : Bool
  deriving DecidableEq, Repr

/-- The F3R form of a unary operation: vs2 and q are 0 (R38). -/
structure F2R where
  vd : Fin 32
  vs1 : Fin 32
  pg : Option (Fin 48)
  zm : Bool
  w1 : Bool
  w2 : Bool
  deriving DecidableEq, Repr

/-- BNET: F3R with the pattern number in bits [4:2] (R38). -/
structure FNet where
  vd : Fin 32
  vs1 : Fin 32
  vs2 : Fin 32
  pg : Option (Fin 48)
  pat : Fin 8
  q : Bool
  deriving DecidableEq, Repr

/-- The MM form (R39): `rows` and `planes` are the encoded values, one less than the counts. -/
structure MM where
  z : Fin 2
  w : Fin 2
  xa : Fin 32
  h : Fin 16
  rows : Fin 64
  planes : Fin 16
  mode : MMode
  acc : Bool
  wt : Bool
  deriving DecidableEq, Repr

/-- The MW form (R39). -/
structure MW where
  w : Fin 2
  xa : Fin 32
  h : Fin 16
  fmt : Fmt
  pack : Pack
  rnd : Rnd
  sat : Bool
  strict : Bool
  wt : Bool
  deriving DecidableEq, Repr

/-- The MR form (R39). -/
structure MR where
  z : Fin 2
  xa : Fin 32
  h : Fin 16
  fout : Fmt
  rnd : Rnd
  sat : Bool
  xs : Fin 32
  wt : Bool
  deriving DecidableEq, Repr

/-- The DC form (R40), the mode being the instruction. -/
structure DC where
  hs : Fin 16
  hd : Fin 16
  xs : Fin 32
  xd : Fin 32
  xk : Fin 32
  deriving DecidableEq, Repr

/-- The DI form (R40). -/
structure DI where
  h : Fin 16
  xa : Fin 32
  xn : Fin 32
  deriving DecidableEq, Repr

/-- The DK form (R40). -/
structure DK where
  h : Fin 16
  xa : Fin 32
  xn : Fin 32
  kind : CollKind
  scope : Scope
  deriving DecidableEq, Repr

/-- A fault that an engine finds after its bundle issued (R142): its cause code, `tval`, slot, and whether its operation
issued at system level. -/
structure FaultRec where
  code : BitVec 8
  tval : Word
  slot : Slot
  sys : Bool
  deriving DecidableEq, Repr

/-- Where an uncorrectable error was consumed (R308). -/
inductive ErrWhere where
  | state | globalLine | codeStore
  deriving DecidableEq, Repr

/-- Registers of the host's and Yard's register files that have no row of their own (R319, R350, R399, R333, R360, R410). -/
inductive HostReg where
  | queueBase (q : Nat) | queueCtl (q : Nat)
  | ringBase (vf : Nat) | ringCtl (vf : Nat) | ringHead (vf : Nat)
  | root (vf : Nat) | invva (vf : Nat)
  | quantum (part entry : Nat) | yieldbound | powerLimit | eyeThreshold (stack : Nat)
  | readOnly (offset : Nat)
  deriving DecidableEq, Repr

/-- One constructor per row of spec/opcode_table.json: the slot operations and tokens, which have an encoding, then the events
of the device, each group in the table's order; each docstring is the row's rule and summary. -/
inductive Instr where
  /-- R116: Writes the 20-bit upper immediate, shifted, to rd. -/
  | lui (rd : Fin 32) (imm : BitVec 20)
  /-- R116: Adds the upper immediate to the PC of the fetch unit and writes rd. -/
  | auipc (rd : Fin 32) (imm : BitVec 20)
  /-- R118: Jumps PC-relative and links the next fetch address in rd. -/
  | jal (rd : Fin 32) (imm : BitVec 20)
  /-- R118: Jumps to rs1 plus offset with bit 0 cleared and links the next fetch address. -/
  | jalr (o : IType)
  /-- R118: Branches when rs1 equals rs2. -/
  | beq (o : BType)
  /-- R118: Branches when rs1 differs from rs2. -/
  | bne (o : BType)
  /-- R118: Branches when rs1 is less than rs2, signed. -/
  | blt (o : BType)
  /-- R118: Branches when rs1 is greater than or equal to rs2, signed. -/
  | bge (o : BType)
  /-- R118: Branches when rs1 is less than rs2, unsigned. -/
  | bltu (o : BType)
  /-- R118: Branches when rs1 is greater than or equal to rs2, unsigned. -/
  | bgeu (o : BType)
  /-- R117: Loads a sign-extended byte on path L through h15. -/
  | lb (o : IType)
  /-- R117: Loads a sign-extended halfword on path L through h15. -/
  | lh (o : IType)
  /-- R117: Loads a sign-extended word on path L through h15. -/
  | lw (o : IType)
  /-- R117: Loads a doubleword on path L through h15. -/
  | ld (o : IType)
  /-- R117: Loads a zero-extended byte on path L through h15. -/
  | lbu (o : IType)
  /-- R117: Loads a zero-extended halfword on path L through h15. -/
  | lhu (o : IType)
  /-- R117: Loads a zero-extended word on path L through h15. -/
  | lwu (o : IType)
  /-- R117: Stores a byte on path L through h15, through the Paddock when it leaves the core. -/
  | sb (o : SType)
  /-- R117: Stores a halfword on path L through h15. -/
  | sh (o : SType)
  /-- R117: Stores a word on path L through h15. -/
  | sw (o : SType)
  /-- R117: Stores a doubleword on path L through h15. -/
  | sd (o : SType)
  /-- R116: Adds a sign-extended immediate to rs1. -/
  | addi (o : IType)
  /-- R116: Sets rd to 1 when rs1 is below the immediate, signed. -/
  | slti (o : IType)
  /-- R116: Sets rd to 1 when rs1 is below the immediate, unsigned. -/
  | sltiu (o : IType)
  /-- R116: Exclusive-ors rs1 with the immediate. -/
  | xori (o : IType)
  /-- R116: Ors rs1 with the immediate. -/
  | ori (o : IType)
  /-- R116: Ands rs1 with the immediate. -/
  | andi (o : IType)
  /-- R116: Shifts rs1 left by a 6-bit amount. -/
  | slli (o : ShType)
  /-- R116: Shifts rs1 right logically by a 6-bit amount. -/
  | srli (o : ShType)
  /-- R116: Shifts rs1 right arithmetically by a 6-bit amount. -/
  | srai (o : ShType)
  /-- R116: Adds the immediate to rs1 in 32 bits and sign-extends. -/
  | addiw (o : IType)
  /-- R116: Shifts the low word of rs1 left and sign-extends. -/
  | slliw (o : ShType)
  /-- R116: Shifts the low word of rs1 right logically and sign-extends. -/
  | srliw (o : ShType)
  /-- R116: Shifts the low word of rs1 right arithmetically and sign-extends. -/
  | sraiw (o : ShType)
  /-- R116: Adds rs1 and rs2. -/
  | add (o : RType)
  /-- R116: Subtracts rs2 from rs1. -/
  | sub (o : RType)
  /-- R116: Shifts rs1 left by rs2. -/
  | sll (o : RType)
  /-- R116: Sets rd when rs1 is below rs2, signed. -/
  | slt (o : RType)
  /-- R116: Sets rd when rs1 is below rs2, unsigned. -/
  | sltu (o : RType)
  /-- R116: Exclusive-ors rs1 and rs2. -/
  | xor (o : RType)
  /-- R116: Shifts rs1 right logically by rs2. -/
  | srl (o : RType)
  /-- R116: Shifts rs1 right arithmetically by rs2. -/
  | sra (o : RType)
  /-- R116: Ors rs1 and rs2. -/
  | or (o : RType)
  /-- R116: Ands rs1 and rs2. -/
  | and (o : RType)
  /-- R116: Multiplies rs1 by rs2, low 64 bits. -/
  | mul (o : RType)
  /-- R116: High 64 bits of the signed product. -/
  | mulh (o : RType)
  /-- R116: High 64 bits of the signed-by-unsigned product. -/
  | mulhsu (o : RType)
  /-- R116: High 64 bits of the unsigned product. -/
  | mulhu (o : RType)
  /-- R116: Signed division as a variable producer. -/
  | div (o : RType)
  /-- R116: Unsigned division as a variable producer. -/
  | divu (o : RType)
  /-- R116: Signed remainder as a variable producer. -/
  | rem (o : RType)
  /-- R116: Unsigned remainder as a variable producer. -/
  | remu (o : RType)
  /-- R116: 32-bit add, sign-extended. -/
  | addw (o : RType)
  /-- R116: 32-bit subtract, sign-extended. -/
  | subw (o : RType)
  /-- R116: 32-bit left shift, sign-extended. -/
  | sllw (o : RType)
  /-- R116: 32-bit logical right shift, sign-extended. -/
  | srlw (o : RType)
  /-- R116: 32-bit arithmetic right shift, sign-extended. -/
  | sraw (o : RType)
  /-- R116: 32-bit multiply, sign-extended. -/
  | mulw (o : RType)
  /-- R116: 32-bit signed division as a variable producer. -/
  | divw (o : RType)
  /-- R116: 32-bit unsigned division as a variable producer. -/
  | divuw (o : RType)
  /-- R116: 32-bit signed remainder as a variable producer. -/
  | remw (o : RType)
  /-- R116: 32-bit unsigned remainder as a variable producer. -/
  | remuw (o : RType)
  /-- R100: S-slot FENCE acting as fence sc, die, L, all. -/
  | fenceS (fields : BitVec 12)
  /-- R118: Issues the whole bundle and then takes the ECALL trap. -/
  | ecall
  /-- R118: Issues the whole bundle and then takes the EBREAK trap. -/
  | ebreak
  /-- R119: Atomically swaps a CSR with rs1. -/
  | csrrw (rd rs1 : Fin 32) (csr : BitVec 12)
  /-- R119: Reads a CSR and sets the bits given in rs1. -/
  | csrrs (rd rs1 : Fin 32) (csr : BitVec 12)
  /-- R119: Reads a CSR and clears the bits given in rs1. -/
  | csrrc (rd rs1 : Fin 32) (csr : BitVec 12)
  /-- R119: Swaps a CSR with a 5-bit immediate. -/
  | csrrwi (rd : Fin 32) (u : Fin 32) (csr : BitVec 12)
  /-- R119: Reads a CSR and sets immediate bits. -/
  | csrrsi (rd : Fin 32) (u : Fin 32) (csr : BitVec 12)
  /-- R119: Reads a CSR and clears immediate bits. -/
  | csrrci (rd : Fin 32) (u : Fin 32) (csr : BitVec 12)
  /-- R120: Pushes a hardware loop with an immediate count, or skips the body for count 0. -/
  | loopi (cnt : BitVec 12) (off : BitVec 10)
  /-- R120: Pushes a hardware loop with its count in rs1. -/
  | loopr (rs1 : Fin 32) (off : BitVec 12)
  /-- R122: Pops the top loop entry and continues after its end unit. -/
  | lbrk
  /-- R135: Commits and stops fetch, or at system level completes a save or ends the context. -/
  | endOp
  /-- R134: Writes feature bit n of feat0 or feat1 to rd. -/
  | qfeat (rd : Fin 32) (n : Fin 128)
  /-- R125: Ends the phase: queues held-back effects for the Paddock and takes a checkpoint. -/
  | pcommit
  /-- R125: Commits as PCOMMIT does and toggles the parity, swapping the halves of phase-paired handles. -/
  | pswap
  /-- R127: Holds its bundle until the progress counter at xa reaches the target in xt. -/
  | waitge (rs1 rs2 : Fin 32)
  /-- R128: Takes the oldest event record into rd as a variable producer. -/
  | evpop (rd : Fin 32)
  /-- R129: Commits its phase with a barrier arrival and waits for the barrier to complete. -/
  | bar (scope : Scope) (id : Fin 512)
  /-- R130: Commits, releases the held item slot and takes the next stage item or end of stream. -/
  | nextitem (rd : Fin 32)
  /-- R131: Waits for an output slot grant, copies the item there and holds back its publish. -/
  | emit (rs1 : Fin 32) (n : Fin 8)
  /-- R133: Takes a scratchpad lock bit and loads the doubleword as a variable producer. -/
  | ldl (o : IType)
  /-- R133: Stores a doubleword and clears its lock bit in one step at the bank. -/
  | stul (o : SType)
  /-- R132: Atomic add on 4 bytes. -/
  | amoaddW (o : RType)
  /-- R132: Atomic add on 8 bytes. -/
  | amoaddD (o : RType)
  /-- R132: Atomic and on 4 bytes. -/
  | amoandW (o : RType)
  /-- R132: Atomic and on 8 bytes. -/
  | amoandD (o : RType)
  /-- R132: Atomic or on 4 bytes. -/
  | amoorW (o : RType)
  /-- R132: Atomic or on 8 bytes. -/
  | amoorD (o : RType)
  /-- R132: Atomic xor on 4 bytes. -/
  | amoxorW (o : RType)
  /-- R132: Atomic xor on 8 bytes. -/
  | amoxorD (o : RType)
  /-- R132: Atomic signed minimum on 4 bytes. -/
  | amominW (o : RType)
  /-- R132: Atomic signed minimum on 8 bytes. -/
  | amominD (o : RType)
  /-- R132: Atomic signed maximum on 4 bytes. -/
  | amomaxW (o : RType)
  /-- R132: Atomic signed maximum on 8 bytes. -/
  | amomaxD (o : RType)
  /-- R132: Atomic unsigned minimum on 4 bytes. -/
  | amominnW (o : RType)
  /-- R132: Atomic unsigned minimum on 8 bytes. -/
  | amominnD (o : RType)
  /-- R132: Atomic unsigned maximum on 4 bytes. -/
  | amomaxnW (o : RType)
  /-- R132: Atomic unsigned maximum on 8 bytes. -/
  | amomaxnD (o : RType)
  /-- R132: Atomic swap on 4 bytes. -/
  | amoswapW (o : RType)
  /-- R132: Atomic swap on 8 bytes. -/
  | amoswapD (o : RType)
  /-- R132: Atomic compare-and-swap on 4 bytes. -/
  | casW (o : RType)
  /-- R132: Atomic compare-and-swap on 8 bytes. -/
  | casD (o : RType)
  /-- R145: Returns to program level, resumes at tpc and lands the frozen in-flight records. -/
  | tret
  /-- R146: Writes the frozen program context incrementally to the context area. -/
  | ctxsave (rs1 : Fin 32)
  /-- R147: Checks the area header and loads a saved context into the frozen state. -/
  | ctxload (rs1 : Fin 32)
  /-- R382: Draws a new key into the next epoch of the tenant's slot. -/
  | kgen (rd : Fin 32)
  /-- R383: Re-encrypts each block of the range under the current epoch. -/
  | krot (rd rs1 : Fin 32)
  /-- R384: Seals a range, builds its hash tree and returns the root. -/
  | seal (rd rs1 : Fin 32)
  /-- R385: Removes the seal with the given base, size and aux. -/
  | unseal (rd rs1 : Fin 32)
  /-- R386: Returns every block of the range to the zero state. -/
  | scrub (rd rs1 : Fin 32)
  /-- R387: Checks that the range is clear and writes a measurement folded into the clear log. -/
  | mclrchk (rd rs1 : Fin 32)
  /-- R27: Issues a dictionary entry rep+1 times in consecutive issue cycles. -/
  | token (rep : Fin 32) (index : Fin 512) (mark : Bool)
  /-- R31: The all-zero NOP word of the L, V, F, M, D or K slot, which has no effect. -/
  | nop (slot : Slot)
  /-- R164: Loads a shaped vector register from the local scratchpad. -/
  | vld (o : LM)
  /-- R165: Stores a shaped vector register to the local scratchpad or die window. -/
  | vst (o : LM)
  /-- R164: Loads one row and broadcasts it to every row. -/
  | vldb (o : LM)
  /-- R166: Stores the elements of a register as transposed bit planes. -/
  | vstp (o : LM)
  /-- R167: Loads a vector register from another core's scratchpad as a variable producer. -/
  | vldx (o : LM)
  /-- R164: Loads rows at a stride held in xs. -/
  | vlds (o : LS)
  /-- R165: Stores rows at a stride held in xs. -/
  | vsts (o : LS)
  /-- R168: Loads 8 bytes into an x register through a handle. -/
  | sld (o : LM)
  /-- R168: Stores 8 bytes from an x register through a handle. -/
  | sst (o : LM)
  /-- R178: Appends one predicated entry to scatter queue q2 or q3. -/
  | vpush (vs : Fin 32) (qd : Fin 4) (pg : Option (Fin 48))
  /-- R156: Loads a handle descriptor from a local granule, checked at its landing cycle. -/
  | hset (h : Fin 16) (xa : Fin 32)
  /-- R157: Reads one 8-byte word of a handle descriptor into xd. -/
  | hget (h : Fin 16) (xd : Fin 32) (sel : Fin 4)
  /-- R158: Writes the all-zero descriptor to a handle. -/
  | hclr (h : Fin 16)
  /-- R173: Waits on the outstanding-access counters of its paths and handles, then orders accesses by kind and scope. -/
  | fence (kind : FenceKind) (o : LF)
  /-- R174: Acquires the named paths and handles at the wider scope without waiting. -/
  | acqH (o : LF)
  /-- R175: Takes a held-back entry that increments the counters of bound handles once their writes are performed. -/
  | relH (o : LF)
  /-- R176: Waits until earlier accesses in range have passed their checks and raises their deferred faults. -/
  | errfence (paths : BitVec 5) (hmask : BitVec 16)
  /-- R189: Wrapping element add. -/
  | vadd (e : VEng) (o : V3R)
  /-- R189: Wrapping element subtract. -/
  | vsub (e : VEng) (o : V3R)
  /-- R189: Signed saturating add. -/
  | vaddsI (e : VEng) (o : V3R)
  /-- R189: Unsigned saturating add. -/
  | vaddsN (e : VEng) (o : V3R)
  /-- R189: Signed saturating subtract. -/
  | vsubsI (e : VEng) (o : V3R)
  /-- R189: Unsigned saturating subtract. -/
  | vsubsN (e : VEng) (o : V3R)
  /-- R189: Low bits of the element product. -/
  | vmul (e : VEng) (o : V3R)
  /-- R189: High bits of the signed element product. -/
  | vmulhI (e : VEng) (o : V3R)
  /-- R189: High bits of the unsigned element product. -/
  | vmulhN (e : VEng) (o : V3R)
  /-- R189: Signed element minimum. -/
  | vminI (e : VEng) (o : V3R)
  /-- R189: Unsigned element minimum. -/
  | vminN (e : VEng) (o : V3R)
  /-- R189: Signed element maximum. -/
  | vmaxI (e : VEng) (o : V3R)
  /-- R189: Unsigned element maximum. -/
  | vmaxN (e : VEng) (o : V3R)
  /-- R189: Saturating signed absolute value. -/
  | vabs (e : VEng) (o : V2R)
  /-- R189: Bitwise not. -/
  | vnot (e : VEng) (o : V2R)
  /-- R189: Element shift left. -/
  | vsll (e : VEng) (o : V3R)
  /-- R189: Element logical shift right. -/
  | vsrl (e : VEng) (o : V3R)
  /-- R189: Element arithmetic shift right. -/
  | vsra (e : VEng) (o : V3R)
  /-- R189: Bitwise and. -/
  | vand (e : VEng) (o : V3R)
  /-- R189: Bitwise or. -/
  | vor (e : VEng) (o : V3R)
  /-- R189: Bitwise xor. -/
  | vxor (e : VEng) (o : V3R)
  /-- R189: Bitwise a and not b. -/
  | vandn (e : VEng) (o : V3R)
  /-- R191: Selects vs1 for active elements and vs2 for inactive ones. -/
  | vsel (e : VEng) (o : V3R)
  /-- R194: Signed compare into a predicate. -/
  | vcmpI (e : VEng) (o : VCP)
  /-- R194: Unsigned compare into a predicate. -/
  | vcmpN (e : VEng) (o : VCP)
  /-- R194: F16 or F32 compare into a predicate. -/
  | vcmpF (e : VEng) (o : VCP)
  /-- R194: BF16 compare into a predicate. -/
  | vcmpBf (e : VEng) (o : VCP)
  /-- R195: Signed row or column reduction by the fixed tree. -/
  | vredI (e : VEng) (o : VRed)
  /-- R195: Unsigned row or column reduction. -/
  | vredN (e : VEng) (o : VRed)
  /-- R195: F32 row or column reduction with RNE nodes. -/
  | vredF (e : VEng) (o : VRed)
  /-- R195: BF16 row or column reduction. -/
  | vredBf (e : VEng) (o : VRed)
  /-- R190: Floating add. -/
  | vfadd (e : VEng) (o : V3R)
  /-- R190: Floating subtract. -/
  | vfsub (e : VEng) (o : V3R)
  /-- R190: Floating multiply. -/
  | vfmul (e : VEng) (o : V3R)
  /-- R190: Fused multiply-add into vd. -/
  | vfma (e : VEng) (o : V3R)
  /-- R190: Fused multiply-subtract. -/
  | vfms (e : VEng) (o : V3R)
  /-- R190: Fused negated multiply-add. -/
  | vfnma (e : VEng) (o : V3R)
  /-- R190: Floating minimum. -/
  | vfmin (e : VEng) (o : V3R)
  /-- R190: Floating maximum. -/
  | vfmax (e : VEng) (o : V3R)
  /-- R190: BF16 add. -/
  | vbfadd (e : VEng) (o : V3R)
  /-- R190: BF16 subtract. -/
  | vbfsub (e : VEng) (o : V3R)
  /-- R190: BF16 multiply. -/
  | vbfmul (e : VEng) (o : V3R)
  /-- R190: BF16 fused multiply-add. -/
  | vbfma (e : VEng) (o : V3R)
  /-- R190: BF16 fused multiply-subtract. -/
  | vbfms (e : VEng) (o : V3R)
  /-- R190: BF16 fused negated multiply-add. -/
  | vbfnma (e : VEng) (o : V3R)
  /-- R190: BF16 minimum. -/
  | vbfmin (e : VEng) (o : V3R)
  /-- R190: BF16 maximum. -/
  | vbfmax (e : VEng) (o : V3R)
  /-- R191: Predicated element move. -/
  | vmov (e : VEng) (o : V2R)
  /-- R192: Fills every element with an immediate. -/
  | vbcast (e : VEng) (vd : Fin 32) (imm : BitVec 16)
  /-- R192: Fills every element from an x register. -/
  | vbcx (e : VEng) (vd xs : Fin 32)
  /-- R197: Converts elements from format fin to format fout with rounding and range rules. -/
  | vcvt (e : VEng) (o : VCV)
  /-- R201: Expands T3P digits to I8, I16 or I32. -/
  | vunp3 (e : VEng) (vd vs1 : Fin 32) (fout : Fmt) (strict w1 : Bool)
  /-- R202: Narrows two registers into one with signed saturation. -/
  | vpack (e : VEng) (o : V3R)
  /-- R193: Writes vshape from an x register after checking the shape. -/
  | vsetshape (e : VEng) (xs : Fin 32)
  /-- R196: Predicate and. -/
  | pand (e : VEng) (o : VPR)
  /-- R196: Predicate or. -/
  | por (e : VEng) (o : VPR)
  /-- R196: Predicate xor. -/
  | pxor (e : VEng) (o : VPR)
  /-- R196: Predicate not. -/
  | pnot (e : VEng) (pd pa : Fin 48)
  /-- R196: Sets the low n bits of a predicate. -/
  | pset (e : VEng) (pd : Fin 48) (n : Fin 513)
  /-- R196: Counts the set bits of a predicate into xd. -/
  | pcount (e : VEng) (xd : Fin 32) (pa : Fin 48)
  /-- R210: Correctly rounded 2^a. -/
  | exp2 (o : F2R)
  /-- R210: Correctly rounded log2(a). -/
  | log2 (o : F2R)
  /-- R210: Correctly rounded reciprocal. -/
  | rcp (o : F2R)
  /-- R210: Correctly rounded reciprocal square root. -/
  | rsqrt (o : F2R)
  /-- R210: Correctly rounded square root. -/
  | sqrt (o : F2R)
  /-- R210: Correctly rounded element division in the F slot. -/
  | fDiv (o : F3R)
  /-- R210: Correctly rounded tanh(a). -/
  | tanh (o : F2R)
  /-- R213: Folds each row's active data elements into its Welford state. -/
  | wupd (o : F3R)
  /-- R214: Merges two Welford states row by row. -/
  | wmrg (o : F3R)
  /-- R215: Finishes a Welford state into mean, variance and rstd. -/
  | wfin (o : F3R)
  /-- R216: Loads network pattern k from bytes 0–63 of vs1. -/
  | bnld (vs1 : Fin 32) (pat : Fin 8)
  /-- R217: Passes each 8-byte group of the operands through pattern k. -/
  | bnet (o : FNet)
  /-- R218: Multiplies 8 × 8 bit matrices over GF(2). -/
  | bmm8 (o : F3R)
  /-- R219: Deposits bits under a mask within each element. -/
  | pdep (o : F3R)
  /-- R219: Extracts bits under a mask within each element. -/
  | pext (o : F3R)
  /-- R220: Selects source elements of the same row by index. -/
  | bperm (o : F3R)
  /-- R221: Transposes the tile in vs1. -/
  | vtrn (o : F2R)
  /-- R241: Multiplies activation planes by a weight buffer and adds one pass into a tile. -/
  | mma (o : MM)
  /-- R244: Makes a tile clear. -/
  | mzero (z : Fin 2)
  /-- R234: Loads a weight buffer from memory, clipped to the handle region. -/
  | mwld (o : MW)
  /-- R237: Loads a weight buffer from a sealed weight stream with verification. -/
  | mwstrm (o : MW)
  /-- R238: Toggles the buffer map. -/
  | mwswap
  /-- R246: Converts and writes a tile to memory and leaves the tile clear. -/
  | mret (o : MR)
  /-- R248: Copies a tile, buffer or counter word of engine state into xd. -/
  | mstat (xd : Fin 32) (sel : Fin 5)
  /-- R259: Sets the count and strides of one nest level. -/
  | dlvl (lvl : Fin 6) (xc xss xsd : Fin 32)
  /-- R264: Starts an affine nest copy of unchanged bytes with edge fill. -/
  | dcopyCopy (o : DC)
  /-- R264: Starts a nest that writes fill bytes. -/
  | dcopyFill (o : DC)
  /-- R265: Starts a nest that decodes source elements into the destination format. -/
  | dcopyDecode (o : DC)
  /-- R268: Takes a held-back add-int copy that starts when its entry leaves the Paddock. -/
  | dcopyAddint (o : DC)
  /-- R264: Starts a clone of whole crypto blocks in global memory. -/
  | dcopyClone (o : DC)
  /-- R263: Sets the fill slot. -/
  | dpad (xv : Fin 32)
  /-- R272: Sets the gather and scatter data handles and configuration word. -/
  | dgcfg (hs hd : Fin 16) (xc : Fin 32)
  /-- R273: Starts a gather stream from an index list into q0 or q1. -/
  | dgidx (o : DI)
  /-- R273: Starts a scatter stream from q2 or q3 through an index list. -/
  | dsidx (o : DI)
  /-- R276: Inserts a translation-invalidation marker into the D stream. -/
  | dtinv
  /-- R277: Starts a package or pod collective as a held-back contribution. -/
  | dcoll (o : DK)
  /-- R279: Streams the dirty pages of a region with record headers. -/
  | dsnap (o : DI)
  /-- R287: Computes into a check register. -/
  | kalu (op : KOp) (kd : Fin 8) (a b : KSrc)
  /-- R288: Compares a check register with an x register. -/
  | kchkX (ka : Fin 8) (xb : Fin 32) (w : Bool)
  /-- R288: Compares two vector registers in all bytes. -/
  | kchkV (va vb : Fin 32)
  /-- R288: Compares two predicates in all bits. -/
  | kchkP (pa pb : Fin 48)
  /-- R290: Folds a scalar register into the run signature. -/
  | ksig (xs : Fin 32)
  /-- R291: Copies a check register into an x register. -/
  | krd (xd : Fin 32) (ka : Fin 8)
  /-- R31: A bundle whose slot word is an unassigned or reserved encoding raises ILLEGAL_OP at issue with no effect. -/
  | unassignedOpcode (slot : Slot) (word : SlotWord)
  /-- R27: Fetch reaches a token whose kind bit is 1 and raises ILLEGAL_BUNDLE as a fetch failure. -/
  | illegalToken (tok : BitVec 16)
  /-- R124: Commits before a 65th held-back effect or a third held command, acting as PCOMMIT. -/
  | forcedCommit
  /-- R295: Forces one commit after the next bundle when the undo log reaches 3,072 entries. -/
  | forcedCommitUndoLog
  /-- R129: Performs a held-back barrier arrival after earlier stores are performed at its scope. -/
  | barrierArrival (core : Nat) (scope : Scope) (id : Fin 512)
  /-- R129: Completes a barrier generation when all participants have arrived, acting as an acquire fence. -/
  | barrierComplete (scope : Scope) (id : Fin 512)
  /-- R325: Hands the next published slot to a waiting core in round robin and fills its rd. -/
  | nextitemHandout (launch queue : Nat)
  /-- R325: Grants a free output ring slot to a waiting EMIT in arrival order. -/
  | emitGrant (launch queue : Nat)
  /-- R131: Performs the held-back publish of a slot and advances the tail over contiguous slots. -/
  | emitPublish (launch queue slot : Nat)
  /-- R325: Performs the held-back release of an item slot and advances the head. -/
  | itemRelease (launch queue slot : Nat)
  /-- R177: Gives a cleared lock bit to the oldest waiting LDL at the bank. -/
  | lockGrant (core bank bit : Nat)
  /-- R177: Retries an LDL that found the bank queue full, every 32 cycles. -/
  | ldlRetry
  /-- R103: Performs an atomic at the home of its location after it leaves the Paddock and returns the old value. -/
  | atomicPerform (n : Nat)
  /-- R380: Performs a trust operation block by block once it leaves the Paddock. -/
  | trustOpPerform (n : Nat)
  /-- R380: Fills xd with the status once every block step, tree write and result byte is performed. -/
  | trustOpComplete (n : Nat)
  /-- R175: Adds 1 to each recorded counter when the REL.H entry leaves the Paddock. -/
  | relHPerform (n : Nat)
  /-- R241: Writes the tile and ORs its flags and pending counts when the MMA completes. -/
  | mmaComplete (z : Fin 2)
  /-- R234: Finishes a weight load, recording pack, format and residue sums and landing flags. -/
  | mwldComplete (b : Fin 2)
  /-- R237: Finishes a sealed weight load after the last block verifies and sets the stream bit. -/
  | mwstrmComplete (b : Fin 2)
  /-- R247: Completes retirement when the last entry is read, clearing the tile and landing flags. -/
  | mretComplete (z : Fin 2)
  /-- R268: Starts an add-int copy when its held-back entry leaves the Paddock. -/
  | addintCopyStart (n : Nat)
  /-- R267: Completes a copy once its reads are fixed and its writes performed at the destination scope. -/
  | copyComplete (n : Nat)
  /-- R273: Appends a whole gathered entry to its queue when it has room. -/
  | gatherEntryDeliver
  /-- R273: Takes a queue entry and writes its fitting elements. -/
  | scatterEntryTake
  /-- R275: Completes a scatter stream and posts record 0x03. -/
  | scatterComplete
  /-- R112: Completes DTINV once earlier copies complete, dropping held translations. -/
  | dtinvComplete (n : Nat)
  /-- R278: Reads and sends the contribution when its entry leaves the Paddock. -/
  | dcollContribution (n : Nat)
  /-- R278: Completes the collective at this core and posts record 0x04. -/
  | dcollComplete (n : Nat)
  /-- R279: Ends the snapshot stream and posts record 0x05. -/
  | dsnapComplete (n : Nat)
  /-- R48: A result of class latency L lands in its landing issue cycle after padding. -/
  | resultLanding
  /-- R49: A late or variable result fills its empty destination on arrival. -/
  | resultArrival (n : Nat)
  /-- R142: Raises a fault found after its bundle issued before the next bundle issues, or holds it. -/
  | deferredTrap (f : FaultRec)
  /-- R338: Yard requests the kill of a launch, cause 5. -/
  | yardKill (launch : Nat)
  /-- R18: A store or held-back effect passes the outbound port and enters the Paddock. -/
  | paddockEntry
  /-- R18: An entry leaves the Paddock exactly 512 cycles after it entered. -/
  | paddockRelease
  /-- R124: A committed effect whose writes are performed leaves the pending list for the outbound port. -/
  | pendingListRelease (n : Nat)
  /-- R101: A released write is performed at its scopes and leaves the outstanding-access counts. -/
  | storePerform (n : Nat)
  /-- R105: Adds a copy's bytes to its bound progress counter when the entry leaves the Paddock. -/
  | counterIncrementPerform (n : Nat)
  /-- R169: A die-window refusal returns and raises a deferred PERMISSION. -/
  | tagRefusal (n : Nat)
  /-- R301: A sensor report rolls the core back to its latest commit at or before d − 480. -/
  | upsetReport (zone : Fin 16)
  /-- R294: A checkpoint stops being live and frees its undo entries and shadows. -/
  | checkpointRelease
  /-- R305: Ends the dry run, records n, e, s and f, and starts the confirm run. -/
  | dryRunEnd
  /-- R305: Compares the two runs and releases entries, traps or retires the core. -/
  | confirmRunEnd
  /-- R306: The hub resumes a retired context on a freed core of its stage. -/
  | recoveryResume (launch core : Nat)
  /-- R308: An uncorrectable error is consumed, cancelling the phase or trapping. -/
  | uncorrectableConsumed (place : ErrWhere) (slot : Slot) (addr : Nat) (h : Fin 16)
  /-- R148: The hub requests pre-emption of a running context. -/
  | preemptRequest (area : Word)
  /-- R148: At the first yield point after the request the core freezes and saves without z and w. -/
  | voluntaryPreempt
  /-- R148: No yield point within yieldbound: the core traps for a forced save. -/
  | yieldOverrun
  /-- R335: Every core has saved and drained its Paddock. -/
  | preemptComplete (part : Nat)
  /-- R336: In an idle cycle the core writes one changed context granule to its slot. -/
  | backgroundWriteback (granule : Nat)
  /-- R407: Runs the built-in test kernel and disables a core that fails. -/
  | coreSelfTest (core : Nat) (pass : Bool)
  /-- R319: Host writes the tail count, and the hub handles entries while head differs. -/
  | queueDoorbell (queue : Nat) (tail : BitVec 32)
  /-- R319: Setting enable takes a queue from OFF to RUN with head 0 and last none. -/
  | queueEnable (queue : Nat) (size : Nat)
  /-- R319: Clearing enable takes a queue to OFF. -/
  | queueDisable (queue : Nat)
  /-- R317: A verified no-op entry is accepted and does nothing. -/
  | noOp (queue seq : Nat)
  /-- R322: A verified launch entry submits and checks a launch record. -/
  | launch (queue seq : Nat) (record : Word)
  /-- R317: A verified counter add adds at the counter's home at once or after earlier launches. -/
  | counterAdd (queue seq : Nat) (addr addend : Word) (after : Bool)
  /-- R317: Performs a waiting counter add once earlier launches of the queue have ended. -/
  | counterAddDeferred (queue : Nat)
  /-- R316: A verified resync sets last to its seq and the queue to RUN. -/
  | resync (queue seq : Nat)
  /-- R317: A verified entry of another type is consumed and posts event 0x06 status 0x10. -/
  | otherTypeEntry (queue seq : Nat) (kind : Byte)
  /-- R324: A ready launch that gets its cores resets queues, places sections and starts cores. -/
  | launchStart (launch : Nat)
  /-- R326: When every stage has ended, adds 1 to the completion counter and posts event 0x07. -/
  | launchComplete (launch : Nat)
  /-- R399: Setting enable in the event ring ctl sets head and tail to 0. -/
  | eventRingEnable (vf size : Nat)
  /-- R327: Computes stage pressures every 4,096 reference cycles and chooses a move pair. -/
  | rebalanceBoundary
  /-- R330: Gives free cores to ready and running launches by priority. -/
  | coreAllocation (part : Nat)
  /-- R334: Chooses the next quantum-table entry and starts a slice switch. -/
  | sliceBoundary (part : Nat)
  /-- R332: Yard changes the division of dies into partitions. -/
  | partitionChange (first count size : Nat)
  /-- R339: Receives the gang slice start and end times over UALink. -/
  | gangSliceTimes (gang start slice : Nat)
  /-- R339: At time T each member ends its slice and switches to the gang. -/
  | gangSliceStart (gang : Nat)
  /-- R340: An outgoing context not pre-empted by T + 50 µs is killed with cause 4. -/
  | gangPreemptTimeout (gang : Nat)
  /-- R350: A write to invctl starts a translation invalidation over a range. -/
  | invalidate (vf : Nat) (len : BitVec 64)
  /-- R350: busy clears once accesses under dropped translations are performed at pkg. -/
  | invalidateDone (vf : Nat)
  /-- R351: Yard's request freezes a page and drops its translations. -/
  | migrationRequest (vf : Nat) (va : Word) (tier dpa : Nat)
  /-- R351: After earlier writes are performed, copies ciphertext, MACs and records to the target. -/
  | migrationCopy (vf : Nat) (va : Word)
  /-- R351: Compare-and-swaps the leaf to the new copy and releases the old one. -/
  | migrationSwitch (vf : Nat) (va : Word)
  /-- R355: Issues a bank's refresh in each refresh window. -/
  | perBankRefresh (stack chan pc bank : Nat)
  /-- R356: Issues owed refreshes and a refresh-management command for an alerting bank. -/
  | activationAlert (stack chan pc bank : Nat)
  /-- R358: Retrains a channel when a lane margin falls below threshold. -/
  | channelRetrain (stack chan pc lane : Nat) (cleared : Bool)
  /-- R361: Refills every core's token bucket by shares every 1,024 reference cycles. -/
  | bandwidthBoundary
  /-- R360: Yard writes the package bandwidth budget. -/
  | budgetWrite (v : Word)
  /-- R360: Yard writes a share entry, ignored if shares would exceed 1,024 or tags repeat. -/
  | shareWrite (i : Nat) (v : Word)
  /-- R365: Tack scrubs a killed context's memory. -/
  | scrubCtx (launch : Nat)
  /-- R365: Tack scrubs pages that Yard returns to its pool. -/
  | scrubPages (vf : Nat) (base : Word) (size : Nat)
  /-- R365: Returns the RNG state and failure count. -/
  | health
  /-- R396: Tack draws and returns a 32-byte debug nonce. -/
  | debugNonce
  /-- R396: Tack verifies an unlock record, raises the debug level and extends measurement 5. -/
  | debugUnlock (record : List Byte)
  /-- R365: Passes a fabric handshake message to or from a UALink port. -/
  | fabric (peer : Nat) (msg : List Byte)
  /-- R404: Tack records the start as good and fixes measurement 4. -/
  | ready
  /-- R365: Writes a verified Tack or Yard image to the boot flash. -/
  | fwUpdate (tack : Bool) (version : Nat) (image : List Byte)
  /-- R406: In Shed mode sets the failed-start count to 0 and resets the package. -/
  | shedClear
  /-- R371: Registers the host-memory region for tier-10 metadata. -/
  | hostmeta (base size : Nat)
  /-- R367: Yard assigns a VF and Tack binds a fresh LIVE key slot. -/
  | vfAssign (vf part : Nat)
  /-- R367: Revokes the VF's slot, kills its contexts with cause 8 and scrubs its pages. -/
  | unbind (vf : Nat)
  /-- R369: Collects 1,024 fresh samples after a failure and updates the failure count. -/
  | rngRetest
  /-- R368: Reseeds the generator every 2^20 requests. -/
  | rngReseed
  /-- R389: SPDM version request. -/
  | getVersion (fn : Nat)
  /-- R389: SPDM capabilities request. -/
  | getCapabilities (fn : Nat)
  /-- R389: SPDM algorithm negotiation. -/
  | negotiateAlgorithms (fn : Nat) (offered : Bool)
  /-- R389: SPDM certificate digests request. -/
  | getDigests (fn : Nat)
  /-- R389: SPDM certificate request for slot 0 or 1. -/
  | getCertificate (fn slot : Nat)
  /-- R389: SPDM challenge answered with an Ed448 signature. -/
  | challenge (fn slot : Nat) (nonce : List Byte)
  /-- R390: Returns the signed measurement blocks. -/
  | getMeasurements (fn index : Nat) (nonce : List Byte)
  /-- R389: SPDM session key exchange. -/
  | keyExchange (fn : Nat) (share : List Byte)
  /-- R389: SPDM session finish. -/
  | finish (fn : Nat) (mac : List Byte)
  /-- R318: Updates the session keys and resets every queue's last to none. -/
  | keyUpdate (fn : Nat)
  /-- R389: SPDM session heartbeat. -/
  | heartbeat (fn : Nat)
  /-- R389: Ends an SPDM session. -/
  | endSession (fn : Nat)
  /-- R393: Registers a peer package's measurement digest for UALink admission. -/
  | peerAllow (vf : Nat) (digest : List Byte)
  /-- R367: Revokes the assignment slot, scrubs and binds a fresh confidential slot. -/
  | lockInterface (vf : Nat)
  /-- R391: Moves the VF to RUN. -/
  | startInterface (vf : Nat)
  /-- R367: Revokes the slot, kills contexts and returns the VF to CONFIG_UNLOCKED. -/
  | stopInterface (vf : Nat)
  /-- R391: Reports queue blocks, partition and slot state. -/
  | getDeviceInterfaceReport (vf : Nat)
  /-- R391: Reports the TDISP state. -/
  | getDeviceInterfaceState (vf : Nat)
  /-- R391: Reports the TDISP version. -/
  | getTdispVersion (vf : Nat)
  /-- R391: Reports the TDISP capabilities. -/
  | getTdispCapabilities (vf : Nat)
  /-- R392: Initiator's first handshake message with nonce and key shares. -/
  | hs1 (peer : Nat) (msg : List Byte)
  /-- R392: Responder's handshake message with ciphertext, measurement and signature. -/
  | hs2 (peer : Nat) (msg : List Byte)
  /-- R392: Initiator's final handshake message; both sides derive the pair secret. -/
  | hs3 (peer : Nat) (msg : List Byte)
  /-- R392: Retries a failed peer handshake once per second. -/
  | handshakeRetry (peer : Nat)
  /-- R393: Starts a new handshake at 2^31 messages under one pair secret. -/
  | fabricRekey (peer : Nat)
  /-- R394: Moves a die link to a new key when its counter nears 2^63 or ce changes. -/
  | dieLinkRekey (a b dir : Nat) (slot : Option Nat)
  /-- R394: Retries a flit whose tag fails. -/
  | flitRetry (a b dir : Nat) (tagOk : Bool)
  /-- R404: Reset starts boot stage 0. -/
  | packageReset
  /-- R405: Boot ROM reads the start record, counts the start or enters Shed mode, and verifies Tack. -/
  | bootStage0 (tackSig : Bool) (version : Nat)
  /-- R404: Tack starts the RNG, draws stack keys, measures and loads Yard. -/
  | bootStage1 (rngOk yardOk : Bool)
  /-- R404: Yard trains UCIe links and HBM4E stacks. -/
  | bootStage2 (dies hbm : List Nat)
  /-- R404: Yard runs the core self-test on every core. -/
  | bootStage3 (passed : List Nat)
  /-- R404: Yard trains the PCIe link for enumeration. -/
  | bootStage4 (linkUp : Bool)
  /-- R404: Yard sets pod and package identity and trains UALink. -/
  | bootStage5 (pod package : Nat)
  /-- R404: A stage not ended by its limit fails the start. -/
  | bootStageTimeout
  /-- R404: After the 1 s reset hold, the package starts again. -/
  | startRestart
  /-- R410: A rail fault stops every clock and fails the start with 0x0A. -/
  | railFault
  /-- R410: Junction above 105 °C stops every clock and fails the start with 0x0B. -/
  | thermalTrip
  /-- R410: Lowers the core clock in 25 MHz steps within 1 ms of a power excess. -/
  | powerLimitThrottle (power : Nat)
  /-- R400: Kills the VF's contexts, revokes its slot and resets its queues and registers. -/
  | functionLevelReset (vf : Nat)
  /-- R408: Repairs UCIe lanes from redundant lanes, or disables a module. -/
  | ucieLaneRepair (a b module lane : Nat) (ok : Bool)
  /-- R409: Reroutes traffic around a lost die link in the other dimension order. -/
  | ucieLinkLoss (a b : Nat)
  /-- R411: Queue fetch and event posts wait for the host link. -/
  | pcieLinkDown
  /-- R411: Waiting event posts are written when the link returns. -/
  | pcieLinkUp (width : Nat)
  /-- R411: Tier-01 reads become poisoned and writes are dropped with UNCORRECTABLE. -/
  | cxlDeviceLoss
  /-- R392: A trained UALink connection starts the peer handshake. -/
  | ualinkPortTrain (port peer lanes : Nat)
  /-- R411: A lost port fails pod collectives with a deferred BAD_DATA. -/
  | ualinkPortLoss (port : Nat)
  /-- R403: Each port corrects to pod reference time at least every 10 ms. -/
  | podTimeCorrection (t : Nat)
  /-- R398: A host or Yard write to a register with no row of its own. -/
  | registerWrite (reg : HostReg) (v : Word)
  /-- R316: A ring entry whose GCM tag does not verify is dropped, authfail rises and event 0x02 is posted. -/
  | tagFailure (queue seq : Nat)
  /-- R367: Tack's scrub of a revoked slot's or killed context's memory finishes, the slot returns to EMPTY and the killed launch's cores return to the pool. -/
  | scrubComplete (target : Nat)
  /-- R391: An IDE integrity failure on a VF's host DMA data moves the VF to TDISP ERROR, stops its queues and revokes its slot. -/
  | ideIntegrityFailure (vf : Nat)
  /-- R391: A TDISP message that the table does not name is answered with the TDISP error UNSUPPORTED_REQUEST. -/
  | unsupportedRequest (vf msg : Nat)
  /-- R408: Loss of UALink lanes makes the port retrain at 2 or 1 lanes. -/
  | ualinkLaneLoss (port lanes : Nat)
  deriving DecidableEq, Repr

end Sys2Proof
end

