-- ==== Sys2Proof/Decode.lean ====
section
/-! DEFINITION. Decoding of slot words and tokens (R25 to R43), total on any word and answering none where R31 to R42 raise
ILLEGAL_OP, and after it the encoder. A word is a natural number below 2^32; a field is what division and remainder give. -/

namespace Sys2Proof

/-- The n bits of w from bit lo upward (R3). -/
def bits (w lo n : Nat) : Nat := w / 2 ^ lo % 2 ^ n

/-- One bit of w. -/
def flag (w lo : Nat) : Bool := bits w lo 1 == 1

/-- A bit as a number. -/
def one (b : Bool) : Nat := if b then 1 else 0

/-- A five-bit register number. -/
def reg (w lo : Nat) : Fin 32 := Fin.ofNat 32 (bits w lo 5)

/-- A four-bit handle number. -/
def hnd (w lo : Nat) : Fin 16 := Fin.ofNat 16 (bits w lo 4)

/-- A predicate register number; 48 to 63 are illegal (R42). -/
def prOf (n : Nat) : Option (Fin 48) := if h : n < 48 then some ⟨n, h⟩ else none

/-- The pg field: 63 is no predicate, 48 to 62 are illegal (R42, R53). -/
def pgOf (n : Nat) : Option (Option (Fin 48)) :=
  if h : n < 48 then some (some ⟨n, h⟩) else if n = 63 then some none else none

/-- The code of a pg field. -/
def pgCode (p : Option (Fin 48)) : Nat := match p with | some i => i.val | none => 63

/-- Scope encodings (R11). -/
def scopeOf (n : Nat) : Option Scope :=
  match n with | 0 => some .core | 1 => some .quad | 2 => some .die | 3 => some .pkg | 4 => some .pod | _ => none

/-- The code of a scope (R11). -/
def scopeCode (s : Scope) : Nat := match s with | .core => 0 | .quad => 1 | .die => 2 | .pkg => 3 | .pod => 4

/-- Fence kinds (R98, R173). -/
def fenceKindOf (n : Nat) : FenceKind := match n with | 0 => .acq | 1 => .rel | 2 => .acqrel | _ => .sc

/-- The code of a fence kind. -/
def fenceKindCode (k : FenceKind) : Nat := match k with | .acq => 0 | .rel => 1 | .acqrel => 2 | .sc => 3

/-- Format codes (R65); 15 is reserved. -/
def fmtOf (n : Nat) : Option Fmt :=
  match n with
  | 0 => some .page | 1 => some .i8 | 2 => some .i16 | 3 => some .i32 | 4 => some .f16 | 5 => some .bf16 | 6 => some .f32
  | 7 => some .bi8 | 8 => some .bi4 | 9 => some .f4x | 10 => some .t3p | 11 => some .n8 | 12 => some .n16 | 13 => some .n32
  | 14 => some .i4 | _ => none

/-- The code of a format (R65). -/
def fmtCode (f : Fmt) : Nat :=
  match f with
  | .page => 0 | .i8 => 1 | .i16 => 2 | .i32 => 3 | .f16 => 4 | .bf16 => 5 | .f32 => 6 | .bi8 => 7 | .bi4 => 8 | .f4x => 9
  | .t3p => 10 | .n8 => 11 | .n16 => 12 | .n32 => 13 | .i4 => 14

/-- Rounding mode codes (R79); 5 to 7 are illegal (R42). -/
def rndOf (n : Nat) : Option Rnd :=
  match n with | 0 => some .rne | 1 => some .rtz | 2 => some .rup | 3 => some .rdn | 4 => some .rod | _ => none

/-- The code of a rounding mode. -/
def rndCode (r : Rnd) : Nat := match r with | .rne => 0 | .rtz => 1 | .rup => 2 | .rdn => 3 | .rod => 4

/-- Condition codes (R36). -/
def condOf (n : Nat) : Option Cond :=
  match n with
  | 0 => some .eq | 1 => some .ne | 2 => some .lt | 3 => some .le | 4 => some .gt | 5 => some .ge | _ => none

/-- The code of a condition. -/
def condCode (c : Cond) : Nat := match c with | .eq => 0 | .ne => 1 | .lt => 2 | .le => 3 | .gt => 4 | .ge => 5

/-- Reduction selectors (R37). -/
def redOf (n : Nat) : Option RedOp := match n with | 0 => some .sum | 1 => some .max | 2 => some .min | _ => none

/-- The code of a reduction. -/
def redCode (r : RedOp) : Nat := match r with | .sum => 0 | .max => 1 | .min => 2

/-- Pack codes (R39); 3 is illegal (R42). -/
def packOf (n : Nat) : Option Pack := match n with | 0 => some .one | 1 => some .two | 2 => some .five | _ => none

/-- The code of a pack. -/
def packCode (p : Pack) : Nat := match p with | .one => 0 | .two => 1 | .five => 2

/-- MMA modes (R39). -/
def mmodeOf (n : Nat) : Option MMode :=
  match n with | 0 => some .int | 1 => some .block | 2 => some .f4x | 3 => some .t3 | _ => none

/-- The code of an MMA mode. -/
def mmodeCode (m : MMode) : Nat := match m with | .int => 0 | .block => 1 | .f4x => 2 | .t3 => 3

/-- Kinds of collective (R40). -/
def collKindOf (n : Nat) : CollKind := match n with | 0 => .bcast | 1 => .gather | 2 => .scatter | _ => .add

/-- The code of a kind of collective. -/
def collKindCode (k : CollKind) : Nat := match k with | .bcast => 0 | .gather => 1 | .scatter => 2 | .add => 3

/-- KALU operations (R41). -/
def kopOf (n : Nat) : Option KOp :=
  match n with
  | 0 => some .add | 1 => some .sub | 2 => some .and | 3 => some .or | 4 => some .xor | 5 => some .sll | 6 => some .srl
  | 7 => some .sra | 8 => some .slt | _ => none

/-- The code of a KALU operation. -/
def kopCode (o : KOp) : Nat :=
  match o with
  | .add => 0 | .sub => 1 | .and => 2 | .or => 3 | .xor => 4 | .sll => 5 | .srl => 6 | .sra => 7 | .slt => 8

/-- A KALU source (R41): with select bit 0 the two high bits of the number are 0. -/
def ksrc (sel n : Nat) : Option KSrc :=
  if sel = 1 then some (.x (Fin.ofNat 32 n)) else if n < 8 then some (.k (Fin.ofNat 8 n)) else none

/-- The select bit of a KALU source. -/
def ksrcBit (s : KSrc) : Nat := match s with | .k _ => 0 | .x _ => 1

/-- The number of a KALU source. -/
def ksrcNum (s : KSrc) : Nat := match s with | .k n => n.val | .x n => n.val

/-! ### Forms -/

/-- R-type (R33). -/
def rType (w : Nat) : RType := ⟨reg w 7, reg w 15, reg w 20⟩

/-- I-type (R33). -/
def iType (w : Nat) : IType := ⟨reg w 7, reg w 15, BitVec.ofNat 12 (bits w 20 12)⟩

/-- S-type (R33). -/
def sType (w : Nat) : SType := ⟨reg w 15, reg w 20, BitVec.ofNat 12 (bits w 25 7 * 32 + bits w 7 5)⟩

/-- B-type: bits [12:1] of the offset, as the RISC-V layout spreads them (R116). -/
def bType (w : Nat) : BType :=
  ⟨reg w 15, reg w 20, BitVec.ofNat 12 (bits w 31 1 * 2048 + bits w 7 1 * 1024 + bits w 25 6 * 16 + bits w 8 4)⟩

/-- A six-bit shift amount (R116). -/
def shType (w : Nat) : ShType := ⟨reg w 7, reg w 15, Fin.ofNat 64 (bits w 20 6)⟩

/-- A five-bit shift amount of a W form (R116). -/
def shwType (w : Nat) : ShType := ⟨reg w 7, reg w 15, Fin.ofNat 64 (bits w 20 5)⟩

/-- An S word with funct3 alone: every other field is 0. -/
def bare (w : Nat) : Bool := bits w 7 5 == 0 && bits w 15 17 == 0

/-- LM (R34). -/
def lm (w : Nat) : LM := ⟨reg w 21, reg w 16, hnd w 12, BitVec.ofNat 12 (bits w 0 12)⟩

/-- LS (R34). -/
def lsForm (w : Nat) : Option LS := if bits w 0 7 = 0 then some ⟨reg w 21, reg w 16, hnd w 12, reg w 7⟩ else none

/-- LF (R34). -/
def lfForm (w : Nat) : Option LF :=
  (scopeOf (bits w 21 3)).map (fun s => ⟨s, BitVec.ofNat 5 (bits w 16 5), BitVec.ofNat 16 (bits w 0 16)⟩)

/-- The field rules of V3R and F3R (R42): zeroing needs a predicate, and a queue operand has vs2[4:2] = 0. -/
def v3rLegal (pg : Option (Fin 48)) (zm q : Bool) (vs2 : Nat) : Bool := (pg.isSome || !zm) && (!q || vs2 < 4)

/-- V3R (R36); dup is legal in the V1 slot alone (R42). -/
def v3r (e : VEng) (w : Nat) : Option V3R :=
  (pgOf (bits w 5 6)).bind (fun pg =>
    if v3rLegal pg (flag w 4) (flag w 1) (bits w 11 5) && (e == .v1 || !flag w 0) then
      some ⟨reg w 21, reg w 16, reg w 11, pg, flag w 4, flag w 3, flag w 2, flag w 1, flag w 0⟩
    else none)

/-- V3R with vs2 and q at 0 (R37). -/
def v2r (e : VEng) (w : Nat) : Option V2R :=
  (pgOf (bits w 5 6)).bind (fun pg =>
    if v3rLegal pg (flag w 4) false 0 && (e == .v1 || !flag w 0) && bits w 11 5 == 0 && bits w 1 1 == 0 then
      some ⟨reg w 21, reg w 16, pg, flag w 4, flag w 3, flag w 2, flag w 0⟩
    else none)

/-- A reduction (R37). -/
def vred (e : VEng) (w : Nat) : Option VRed :=
  (pgOf (bits w 5 6)).bind (fun pg => (redOf (bits w 11 2)).bind (fun o =>
    if v3rLegal pg (flag w 4) false 0 && (e == .v1 || !flag w 0) && bits w 14 2 == 0 && bits w 1 1 == 0 then
      some ⟨reg w 21, reg w 16, flag w 13, o, pg, flag w 4, flag w 3, flag w 2, flag w 0⟩
    else none))

/-- VCP (R36). -/
def vcp (w : Nat) : Option VCP :=
  (prOf (bits w 20 6)).bind (fun pd => (pgOf (bits w 4 6)).bind (fun pg => (condOf (bits w 1 3)).map (fun c =>
    ⟨pd, reg w 15, reg w 10, pg, c, flag w 0⟩)))

/-- VPR (R36). -/
def vpr (w : Nat) : Option VPR :=
  if bits w 0 8 = 0 then
    (prOf (bits w 20 6)).bind (fun pd => (prOf (bits w 14 6)).bind (fun pa => (prOf (bits w 8 6)).map (fun pb => ⟨pd, pa, pb⟩)))
  else none

/-- The block formats, whose values take a register and its companion (R42, R198). -/
def Fmt.isBlock (f : Fmt) : Bool := match f with | .bi8 => true | .bi4 => true | .f4x => true | _ => false

/-- The field rules of VCVT (R42): fin and fout name a format, and a block side names an even register. -/
def vcvLegal (fin fout : Fmt) (vd vs1 : Nat) : Bool :=
  fin != .page && fout != .page && (!fout.isBlock || vd % 2 == 0) && (!fin.isBlock || vs1 % 2 == 0)

/-- VCV (R36). -/
def vcv (w : Nat) : Option VCV :=
  (fmtOf (bits w 12 4)).bind (fun fin => (fmtOf (bits w 8 4)).bind (fun fout => (rndOf (bits w 5 3)).bind (fun r =>
    if vcvLegal fin fout (bits w 21 5) (bits w 16 5) && bits w 0 2 == 0 then
      some ⟨reg w 21, reg w 16, fin, fout, r, flag w 4, flag w 3, flag w 2⟩
    else none)))

/-- F3R (R38). -/
def f3r (w : Nat) : Option F3R :=
  (pgOf (bits w 5 6)).bind (fun pg =>
    if v3rLegal pg (flag w 4) (flag w 1) (bits w 11 5) && bits w 0 1 == 0 then
      some ⟨reg w 21, reg w 16, reg w 11, pg, flag w 4, flag w 3, flag w 2, flag w 1⟩
    else none)

/-- F3R with vs2 and q at 0 (R38). -/
def f2r (w : Nat) : Option F2R :=
  (pgOf (bits w 5 6)).bind (fun pg =>
    if v3rLegal pg (flag w 4) false 0 && bits w 11 5 == 0 && bits w 0 2 == 0 then
      some ⟨reg w 21, reg w 16, pg, flag w 4, flag w 3, flag w 2⟩
    else none)

/-- BNET (R38): bits [4:2] are the pattern number. -/
def fnet (w : Nat) : Option FNet :=
  (pgOf (bits w 5 6)).bind (fun pg =>
    if v3rLegal pg false (flag w 1) (bits w 11 5) && bits w 0 1 == 0 then
      some ⟨reg w 21, reg w 16, reg w 11, pg, Fin.ofNat 8 (bits w 2 3), flag w 1⟩
    else none)

/-- MM (R39). -/
def mmForm (w : Nat) : Option MM :=
  (mmodeOf (bits w 2 3)).map (fun m =>
    ⟨Fin.ofNat 2 (bits w 25 1), Fin.ofNat 2 (bits w 24 1), reg w 19, hnd w 15, Fin.ofNat 64 (bits w 9 6), Fin.ofNat 16 (bits w 5 4),
      m, flag w 1, flag w 0⟩)

/-- The pairings of a weight format with a pack factor (R233). Format 0 is taken from the next source and passes here. -/
def packAllows (f : Fmt) (p : Pack) : Bool :=
  match f, p with
  | .page, _ => true
  | .i4, _ | .t3p, _ => true
  | .i8, .one | .i8, .five | .n8, .one | .n8, .five => true
  | .i16, .one | .i16, .five => true
  | .bi4, .one | .bi4, .two | .f4x, .one | .f4x, .two => true
  | .bi8, .one | .f16, .one | .bf16, .one | .f32, .one => true
  | _, _ => false

/-- MW (R39, R42). -/
def mwForm (w : Nat) : Option MW :=
  (fmtOf (bits w 12 4)).bind (fun f => (packOf (bits w 10 2)).bind (fun p => (rndOf (bits w 7 3)).bind (fun r =>
    if packAllows f p && bits w 0 4 == 0 then
      some ⟨Fin.ofNat 2 (bits w 25 1), reg w 20, hnd w 16, f, p, r, flag w 6, flag w 5, flag w 4⟩
    else none)))

/-- Formats that MRET may name (R42): the block formats, T3P and 0 are illegal. -/
def retFmt (f : Fmt) : Bool := !f.isBlock && f != .t3p && f != .page

/-- MR (R39, R42). -/
def mrForm (w : Nat) : Option MR :=
  (fmtOf (bits w 12 4)).bind (fun f => (rndOf (bits w 9 3)).bind (fun r =>
    if retFmt f && bits w 0 2 == 0 then
      some ⟨Fin.ofNat 2 (bits w 25 1), reg w 20, hnd w 16, f, r, flag w 8, reg w 3, flag w 2⟩
    else none))

/-- DC (R40). -/
def dcForm (w : Nat) : DC := ⟨hnd w 22, hnd w 18, reg w 13, reg w 8, reg w 3⟩

/-- DI (R40). -/
def diForm (w : Nat) : Option DI := if bits w 0 12 = 0 then some ⟨hnd w 22, reg w 17, reg w 12⟩ else none

/-- DK (R40); a collective has scope pkg or pod (R42). -/
def dkForm (w : Nat) : Option DK :=
  if bits w 0 7 = 0 ∧ 3 ≤ bits w 7 3 then
    (scopeOf (bits w 7 3)).map (fun s => ⟨hnd w 22, reg w 17, reg w 12, collKindOf (bits w 10 2), s⟩)
  else none

/-! ### Spaces and slots -/

/-- The LOAD space (R32); funct3 111 is illegal. -/
def decodeLoad (w : Nat) : Option Instr :=
  match bits w 12 3 with
  | 0 => some (.lb (iType w))
  | 1 => some (.lh (iType w))
  | 2 => some (.lw (iType w))
  | 3 => some (.ld (iType w))
  | 4 => some (.lbu (iType w))
  | 5 => some (.lhu (iType w))
  | 6 => some (.lwu (iType w))
  | _ => none

/-- The STORE space (R32). -/
def decodeStore (w : Nat) : Option Instr :=
  match bits w 12 3 with
  | 0 => some (.sb (sType w))
  | 1 => some (.sh (sType w))
  | 2 => some (.sw (sType w))
  | 3 => some (.sd (sType w))
  | _ => none

/-- The BRANCH space (R32). -/
def decodeBranch (w : Nat) : Option Instr :=
  match bits w 12 3 with
  | 0 => some (.beq (bType w))
  | 1 => some (.bne (bType w))
  | 4 => some (.blt (bType w))
  | 5 => some (.bge (bType w))
  | 6 => some (.bltu (bType w))
  | 7 => some (.bgeu (bType w))
  | _ => none

/-- The OP-IMM space (R32): bits above a shift amount are funct bits. -/
def decodeOpImm (w : Nat) : Option Instr :=
  match bits w 12 3 with
  | 0 => some (.addi (iType w))
  | 2 => some (.slti (iType w))
  | 3 => some (.sltiu (iType w))
  | 4 => some (.xori (iType w))
  | 6 => some (.ori (iType w))
  | 7 => some (.andi (iType w))
  | 1 => if bits w 26 6 = 0 then some (.slli (shType w)) else none
  | 5 => if bits w 26 6 = 0 then some (.srli (shType w)) else if bits w 26 6 = 16 then some (.srai (shType w)) else none
  | _ => none

/-- The OP-IMM-32 space (R32). -/
def decodeOpImm32 (w : Nat) : Option Instr :=
  match bits w 12 3 with
  | 0 => some (.addiw (iType w))
  | 1 => if bits w 25 7 = 0 then some (.slliw (shwType w)) else none
  | 5 => if bits w 25 7 = 0 then some (.srliw (shwType w)) else if bits w 25 7 = 32 then some (.sraiw (shwType w)) else none
  | _ => none

/-- The OP space (R32), the multiply and divide group under funct7 1. -/
def decodeOp (w : Nat) : Option Instr :=
  match bits w 25 7, bits w 12 3 with
  | 0, 0 => some (.add (rType w))
  | 32, 0 => some (.sub (rType w))
  | 0, 1 => some (.sll (rType w))
  | 0, 2 => some (.slt (rType w))
  | 0, 3 => some (.sltu (rType w))
  | 0, 4 => some (.xor (rType w))
  | 0, 5 => some (.srl (rType w))
  | 32, 5 => some (.sra (rType w))
  | 0, 6 => some (.or (rType w))
  | 0, 7 => some (.and (rType w))
  | 1, 0 => some (.mul (rType w))
  | 1, 1 => some (.mulh (rType w))
  | 1, 2 => some (.mulhsu (rType w))
  | 1, 3 => some (.mulhu (rType w))
  | 1, 4 => some (.div (rType w))
  | 1, 5 => some (.divu (rType w))
  | 1, 6 => some (.rem (rType w))
  | 1, 7 => some (.remu (rType w))
  | _, _ => none

/-- The OP-32 space (R32). -/
def decodeOp32 (w : Nat) : Option Instr :=
  match bits w 25 7, bits w 12 3 with
  | 0, 0 => some (.addw (rType w))
  | 32, 0 => some (.subw (rType w))
  | 0, 1 => some (.sllw (rType w))
  | 0, 5 => some (.srlw (rType w))
  | 32, 5 => some (.sraw (rType w))
  | 1, 0 => some (.mulw (rType w))
  | 1, 4 => some (.divw (rType w))
  | 1, 5 => some (.divuw (rType w))
  | 1, 6 => some (.remw (rType w))
  | 1, 7 => some (.remuw (rType w))
  | _, _ => none

/-- custom-2, the atomics (R33). -/
def decodeAmo (w : Nat) : Option Instr :=
  match bits w 25 7, bits w 12 3 with
  | 0, 2 => some (.amoaddW (rType w))
  | 0, 3 => some (.amoaddD (rType w))
  | 4, 2 => some (.amoandW (rType w))
  | 4, 3 => some (.amoandD (rType w))
  | 8, 2 => some (.amoorW (rType w))
  | 8, 3 => some (.amoorD (rType w))
  | 12, 2 => some (.amoxorW (rType w))
  | 12, 3 => some (.amoxorD (rType w))
  | 16, 2 => some (.amominW (rType w))
  | 16, 3 => some (.amominD (rType w))
  | 20, 2 => some (.amomaxW (rType w))
  | 20, 3 => some (.amomaxD (rType w))
  | 24, 2 => some (.amominnW (rType w))
  | 24, 3 => some (.amominnD (rType w))
  | 28, 2 => some (.amomaxnW (rType w))
  | 28, 3 => some (.amomaxnD (rType w))
  | 32, 2 => some (.amoswapW (rType w))
  | 32, 3 => some (.amoswapD (rType w))
  | 36, 2 => some (.casW (rType w))
  | 36, 3 => some (.casD (rType w))
  | _, _ => none

/-- The SYSTEM space (R32): ECALL, EBREAK and the CSR operations; every other encoding is illegal. -/
def decodeSystem (w : Nat) : Option Instr :=
  match bits w 12 3 with
  | 0 => if bits w 7 5 = 0 ∧ bits w 15 5 = 0 then
      (if bits w 20 12 = 0 then some .ecall else if bits w 20 12 = 1 then some .ebreak else none)
    else none
  | 1 => some (.csrrw (reg w 7) (reg w 15) (BitVec.ofNat 12 (bits w 20 12)))
  | 2 => some (.csrrs (reg w 7) (reg w 15) (BitVec.ofNat 12 (bits w 20 12)))
  | 3 => some (.csrrc (reg w 7) (reg w 15) (BitVec.ofNat 12 (bits w 20 12)))
  | 5 => some (.csrrwi (reg w 7) (reg w 15) (BitVec.ofNat 12 (bits w 20 12)))
  | 6 => some (.csrrsi (reg w 7) (reg w 15) (BitVec.ofNat 12 (bits w 20 12)))
  | 7 => some (.csrrci (reg w 7) (reg w 15) (BitVec.ofNat 12 (bits w 20 12)))
  | _ => none

/-- custom-0: loops, commits, END, QFEAT (R33). Fields that an entry does not name must be 0. -/
def decodeCustom0 (w : Nat) : Option Instr :=
  match bits w 12 3 with
  | 0 => if bits w 20 12 = 0 then none
    else some (.loopi (BitVec.ofNat 12 (bits w 20 12)) (BitVec.ofNat 10 (bits w 15 5 * 32 + bits w 7 5)))
  | 1 => if bits w 7 5 = 0 then some (.loopr (reg w 15) (BitVec.ofNat 12 (bits w 20 12))) else none
  | 2 => if bare w then some .lbrk else none
  | 3 => if bare w then some .endOp else none
  | 4 => if bits w 15 5 = 0 ∧ bits w 20 12 < 128 then some (.qfeat (reg w 7) (Fin.ofNat 128 (bits w 20 12))) else none
  | 5 => if bare w then some .pcommit else none
  | 6 => if bare w then some .pswap else none
  | _ => none

/-- custom-1: waits, barriers, stages, scratchpad locks (R33). -/
def decodeCustom1 (w : Nat) : Option Instr :=
  match bits w 12 3 with
  | 0 => if bits w 25 7 = 0 ∧ bits w 7 5 = 0 then some (.waitge (reg w 15) (reg w 20)) else none
  | 1 => if bits w 15 17 = 0 then some (.evpop (reg w 7)) else none
  | 2 => if bits w 7 5 = 0 ∧ bits w 15 5 = 0 then
      (scopeOf (bits w 29 3)).map (fun sc => .bar sc (Fin.ofNat 512 (bits w 20 9)))
    else none
  | 3 => if bits w 15 17 = 0 then some (.nextitem (reg w 7)) else none
  | 4 => if bits w 7 5 = 0 ∧ bits w 20 12 < 8 then some (.emit (reg w 15) (Fin.ofNat 8 (bits w 20 12))) else none
  | 5 => some (.ldl (iType w))
  | 6 => some (.stul (sType w))
  | _ => none

/-- custom-3: system and trust operations (R33, R378). -/
def decodeCustom3 (w : Nat) : Option Instr :=
  match bits w 12 3 with
  | 0 => if bare w then some .tret else none
  | 1 => if bits w 7 5 = 0 ∧ bits w 20 12 = 0 then some (.ctxsave (reg w 15)) else none
  | 2 => if bits w 7 5 = 0 ∧ bits w 20 12 = 0 then some (.ctxload (reg w 15)) else none
  | 3 => if bits w 15 17 = 0 then some (.kgen (reg w 7)) else none
  | 4 => if bits w 20 12 = 0 then some (.krot (reg w 7) (reg w 15)) else none
  | 5 => if bits w 20 12 = 0 then some (.seal (reg w 7) (reg w 15)) else none
  | 6 => if bits w 20 12 = 0 then some (.unseal (reg w 7) (reg w 15)) else none
  | 7 => if bits w 20 12 = 0 then some (.scrub (reg w 7) (reg w 15))
    else if bits w 20 12 = 32 then some (.mclrchk (reg w 7) (reg w 15)) else none
  | _ => none

/-- The S slot (R32): bit 0 is always 1, bit 1 is the yield mark and is ignored (R26). -/
def decodeS (w : Nat) : Option Instr :=
  if bits w 0 1 = 1 then
    match bits w 2 5 with
    | 0 => decodeLoad w
    | 2 => decodeCustom0 w
    | 3 => if bits w 7 13 = 0 then some (.fenceS (BitVec.ofNat 12 (bits w 20 12))) else none
    | 4 => decodeOpImm w
    | 5 => some (.auipc (reg w 7) (BitVec.ofNat 20 (bits w 12 20)))
    | 6 => decodeOpImm32 w
    | 8 => decodeStore w
    | 10 => decodeCustom1 w
    | 12 => decodeOp w
    | 13 => some (.lui (reg w 7) (BitVec.ofNat 20 (bits w 12 20)))
    | 14 => decodeOp32 w
    | 22 => decodeAmo w
    | 24 => decodeBranch w
    | 25 => if bits w 12 3 = 0 then some (.jalr (iType w)) else none
    | 27 => some (.jal (reg w 7) (BitVec.ofNat 20 (bits w 31 1 * 524288 + bits w 12 8 * 2048 + bits w 20 1 * 1024 + bits w 21 10)))
    | 28 => decodeSystem w
    | 30 => decodeCustom3 w
    | _ => none
  else none

/-- The L slot (R34, R35). -/
def decodeL (w : Nat) : Option Instr :=
  match bits w 26 6 with
  | 0 => if w = 0 then some (.nop .l) else none
  | 1 => some (.vld (lm w))
  | 2 => some (.vst (lm w))
  | 3 => some (.vldb (lm w))
  | 4 => some (.vstp (lm w))
  | 5 => some (.vldx (lm w))
  | 8 => some (.sld (lm w))
  | 9 => some (.sst (lm w))
  | 6 => (lsForm w).map .vlds
  | 7 => (lsForm w).map .vsts
  | 10 => if bits w 6 13 = 0 ∧ 2 ≤ bits w 19 2 then
      (pgOf (bits w 0 6)).map (.vpush (reg w 21) (Fin.ofNat 4 (bits w 19 2)))
    else none
  | 16 => if bits w 0 17 = 0 ∧ bits w 22 4 ≠ 15 then some (.hset (hnd w 22) (reg w 17)) else none
  | 17 => if bits w 0 14 = 0 ∧ bits w 14 3 < 4 then some (.hget (hnd w 22) (reg w 17) (Fin.ofNat 4 (bits w 14 3))) else none
  | 18 => if bits w 0 22 = 0 ∧ bits w 22 4 ≠ 15 then some (.hclr (hnd w 22)) else none
  | 24 => (lfForm w).map (.fence (fenceKindOf (bits w 24 2)))
  | 25 => if bits w 24 2 = 0 then (lfForm w).map .acqH else none
  | 26 => if bits w 24 2 = 0 then (lfForm w).map .relH else none
  | 27 => if bits w 21 5 = 0 then some (.errfence (BitVec.ofNat 5 (bits w 16 5)) (BitVec.ofNat 16 (bits w 0 16))) else none
  | _ => none

/-- The V0 and V1 slots (R36, R37). -/
def decodeV (e : VEng) (w : Nat) : Option Instr :=
  match bits w 26 6 with
  | 0 => if w = 0 then some (.nop (match e with | .v0 => .v0 | .v1 => .v1)) else none
  | 1 => (v3r e w).map (.vadd e)
  | 2 => (v3r e w).map (.vsub e)
  | 3 => (v3r e w).map (.vaddsI e)
  | 4 => (v3r e w).map (.vaddsN e)
  | 5 => (v3r e w).map (.vsubsI e)
  | 6 => (v3r e w).map (.vsubsN e)
  | 7 => (v3r e w).map (.vmul e)
  | 8 => (v3r e w).map (.vmulhI e)
  | 9 => (v3r e w).map (.vmulhN e)
  | 10 => (v3r e w).map (.vminI e)
  | 11 => (v3r e w).map (.vminN e)
  | 12 => (v3r e w).map (.vmaxI e)
  | 13 => (v3r e w).map (.vmaxN e)
  | 14 => (v2r e w).map (.vabs e)
  | 15 => (v2r e w).map (.vnot e)
  | 16 => (v3r e w).map (.vsll e)
  | 17 => (v3r e w).map (.vsrl e)
  | 18 => (v3r e w).map (.vsra e)
  | 19 => (v3r e w).map (.vand e)
  | 20 => (v3r e w).map (.vor e)
  | 21 => (v3r e w).map (.vxor e)
  | 22 => (v3r e w).map (.vandn e)
  | 23 => (v3r e w).map (.vsel e)
  | 24 => (vcp w).map (.vcmpI e)
  | 25 => (vcp w).map (.vcmpN e)
  | 26 => (vcp w).map (.vcmpF e)
  | 27 => (vcp w).map (.vcmpBf e)
  | 28 => (vred e w).map (.vredI e)
  | 29 => (vred e w).map (.vredN e)
  | 30 => (vred e w).map (.vredF e)
  | 31 => (vred e w).map (.vredBf e)
  | 32 => (v3r e w).map (.vfadd e)
  | 33 => (v3r e w).map (.vfsub e)
  | 34 => (v3r e w).map (.vfmul e)
  | 35 => (v3r e w).map (.vfma e)
  | 36 => (v3r e w).map (.vfms e)
  | 37 => (v3r e w).map (.vfnma e)
  | 38 => (v3r e w).map (.vfmin e)
  | 39 => (v3r e w).map (.vfmax e)
  | 40 => (v3r e w).map (.vbfadd e)
  | 41 => (v3r e w).map (.vbfsub e)
  | 42 => (v3r e w).map (.vbfmul e)
  | 43 => (v3r e w).map (.vbfma e)
  | 44 => (v3r e w).map (.vbfms e)
  | 45 => (v3r e w).map (.vbfnma e)
  | 46 => (v3r e w).map (.vbfmin e)
  | 47 => (v3r e w).map (.vbfmax e)
  | 48 => (v2r e w).map (.vmov e)
  | 49 => if bits w 16 5 = 0 then some (.vbcast e (reg w 21) (BitVec.ofNat 16 (bits w 0 16))) else none
  | 50 => if bits w 0 16 = 0 then some (.vbcx e (reg w 21) (reg w 16)) else none
  | 51 => (vcv w).map (.vcvt e)
  | 52 => if bits w 12 4 = 10 ∧ bits w 4 4 = 0 ∧ bits w 0 2 = 0 ∧ 1 ≤ bits w 8 4 ∧ bits w 8 4 ≤ 3 then
      (fmtOf (bits w 8 4)).map (fun f => .vunp3 e (reg w 21) (reg w 16) f (flag w 3) (flag w 2))
    else none
  | 53 => (v3r e w).map (.vpack e)
  | 54 => if bits w 21 5 = 0 ∧ bits w 0 16 = 0 then some (.vsetshape e (reg w 16)) else none
  | 56 => (vpr w).map (.pand e)
  | 57 => (vpr w).map (.por e)
  | 58 => (vpr w).map (.pxor e)
  | 59 => if bits w 0 14 = 0 then (prOf (bits w 20 6)).bind (fun d => (prOf (bits w 14 6)).map (.pnot e d)) else none
  | 60 => if bits w 0 10 = 0 ∧ bits w 10 10 ≤ 512 then (prOf (bits w 20 6)).map (fun d => .pset e d (Fin.ofNat 513 (bits w 10 10))) else none
  | 61 => if bits w 0 14 = 0 ∧ bits w 25 1 = 0 then (prOf (bits w 14 6)).map (.pcount e (reg w 20)) else none
  | _ => none

/-- The F slot (R38): bit 0 is fixed at 0. -/
def decodeF (w : Nat) : Option Instr :=
  match bits w 26 6 with
  | 0 => if w = 0 then some (.nop .f) else none
  | 1 => (f2r w).map .exp2
  | 2 => (f2r w).map .log2
  | 3 => (f2r w).map .rcp
  | 4 => (f2r w).map .rsqrt
  | 5 => (f2r w).map .sqrt
  | 6 => (f3r w).map .fDiv
  | 7 => (f2r w).map .tanh
  | 8 => (f3r w).map .wupd
  | 9 => (f3r w).map .wmrg
  | 10 => (f3r w).map .wfin
  | 16 => if bits w 21 5 = 0 ∧ bits w 5 11 = 63 ∧ bits w 0 2 = 0 then some (.bnld (reg w 16) (Fin.ofNat 8 (bits w 2 3))) else none
  | 17 => (fnet w).map .bnet
  | 18 => (f3r w).map .bmm8
  | 19 => (f3r w).map .pdep
  | 20 => (f3r w).map .pext
  | 21 => (f3r w).map .bperm
  | 22 => (f2r w).map .vtrn
  | _ => none

/-- The M slot (R39). -/
def decodeM (w : Nat) : Option Instr :=
  match bits w 26 6 with
  | 0 => if w = 0 then some (.nop .m) else none
  | 1 => (mmForm w).map .mma
  | 2 => if bits w 0 25 = 0 then some (.mzero (Fin.ofNat 2 (bits w 25 1))) else none
  | 3 => (mwForm w).map .mwld
  | 4 => (mwForm w).map .mwstrm
  | 5 => if bits w 0 26 = 0 then some .mwswap else none
  | 6 => (mrForm w).map .mret
  | 7 => if bits w 0 18 = 0 ∧ bits w 18 3 < 5 then some (.mstat (reg w 21) (Fin.ofNat 5 (bits w 18 3))) else none
  | _ => none

/-- DCOPY by its mode field (R40). -/
def decodeDcopy (w : Nat) : Option Instr :=
  match bits w 0 3 with
  | 0 => some (.dcopyCopy (dcForm w))
  | 1 => some (.dcopyFill (dcForm w))
  | 2 => some (.dcopyDecode (dcForm w))
  | 3 => some (.dcopyAddint (dcForm w))
  | 4 => some (.dcopyClone (dcForm w))
  | _ => none

/-- The D slot (R40). -/
def decodeD (w : Nat) : Option Instr :=
  match bits w 26 6 with
  | 0 => if w = 0 then some (.nop .d) else none
  | 1 => if bits w 0 8 = 0 ∧ bits w 23 3 < 6 then some (.dlvl (Fin.ofNat 6 (bits w 23 3)) (reg w 18) (reg w 13) (reg w 8)) else none
  | 2 => decodeDcopy w
  | 3 => if bits w 0 21 = 0 then some (.dpad (reg w 21)) else none
  | 4 => if bits w 0 13 = 0 then some (.dgcfg (hnd w 22) (hnd w 18) (reg w 13)) else none
  | 5 => (diForm w).map .dgidx
  | 6 => (diForm w).map .dsidx
  | 7 => if bits w 0 26 = 0 then some .dtinv else none
  | 8 => (dkForm w).map .dcoll
  | 9 => (diForm w).map .dsnap
  | _ => none

/-- The K slot (R41). -/
def decodeK (w : Nat) : Option Instr :=
  match bits w 26 6 with
  | 0 => if w = 0 then some (.nop .k) else none
  | 1 => if bits w 0 7 = 0 ∧ bits w 23 3 ≠ 7 then
      (kopOf (bits w 7 4)).bind (fun o => (ksrc (bits w 22 1) (bits w 17 5)).bind (fun a =>
        (ksrc (bits w 16 1) (bits w 11 5)).map (fun b => .kalu o (Fin.ofNat 8 (bits w 23 3)) a b)))
    else none
  | 2 => if bits w 0 17 = 0 then some (.kchkX (Fin.ofNat 8 (bits w 23 3)) (reg w 18) (flag w 17)) else none
  | 3 => if bits w 0 16 = 0 then some (.kchkV (reg w 21) (reg w 16)) else none
  | 4 => if bits w 0 14 = 0 then (prOf (bits w 20 6)).bind (fun a => (prOf (bits w 14 6)).map (.kchkP a)) else none
  | 5 => if bits w 0 21 = 0 then some (.ksig (reg w 21)) else none
  | 6 => if bits w 0 18 = 0 then some (.krd (reg w 21) (Fin.ofNat 8 (bits w 18 3))) else none
  | _ => none

/-- The operation that a slot's word encodes; none where the decode step raises ILLEGAL_OP (R44, check 1). -/
def decodeSlot (sl : Slot) (w : Nat) : Option Instr :=
  match sl with
  | .s => decodeS w
  | .l => decodeL w
  | .v0 => decodeV .v0 w
  | .v1 => decodeV .v1 w
  | .f => decodeF w
  | .m => decodeM w
  | .d => decodeD w
  | .k => decodeK w

/-- The operation of a slot word, an illegal word being `unassignedOpcode` (R31). -/
def decodeWord (sl : Slot) (w : Nat) : Instr :=
  (decodeSlot sl w).getD (.unassignedOpcode sl (BitVec.ofNat 32 w))

/-- A token (R27); kind bit 1 makes it illegal. -/
def decodeToken (t : Nat) : Instr :=
  if bits t 0 1 = 0 then .token (Fin.ofNat 32 (bits t 11 5)) (Fin.ofNat 512 (bits t 2 9)) (flag t 1)
  else .illegalToken (BitVec.ofNat 16 t)

/-- The slot that a 32-bit word is tried in when nothing says which slot it stands in: S, whose words alone have bit 0 set
(R32), then V0, V1, L, F, M, D and K, the first that decodes it; a NOP word of all zeros is V0's. -/
def tableSlot (w : Nat) : Option Slot :=
  [Slot.s, .v0, .v1, .l, .f, .m, .d, .k].find? (fun sl => (decodeSlot sl w).isSome)

/-- The instruction read from an instruction whose bits are w (nbits of them): a slot word for 32, a token for 16. The opcode
spaces are private to the slots (R31), so a word that several slots decode is read in the order of `tableSlot`. -/
def decodeTableWord (nbits w : Nat) : Option Instr :=
  if nbits = 16 then some (decodeToken (w % 2 ^ 16))
  else if nbits = 32 then (tableSlot (w % 2 ^ 32)).bind (fun sl => decodeSlot sl (w % 2 ^ 32))
  else none

/-! ### The encoder -/

/-- R-type over a word of fixed bits (R33). -/
def encR (base : Nat) (o : RType) : Nat := base + o.rd.val * 2 ^ 7 + o.rs1.val * 2 ^ 15 + o.rs2.val * 2 ^ 20

/-- I-type (R33). -/
def encI (base : Nat) (o : IType) : Nat := base + o.rd.val * 2 ^ 7 + o.rs1.val * 2 ^ 15 + o.imm.toNat * 2 ^ 20

/-- S-type (R33). -/
def encS (base : Nat) (o : SType) : Nat :=
  base + bits o.imm.toNat 0 5 * 2 ^ 7 + o.rs1.val * 2 ^ 15 + o.rs2.val * 2 ^ 20 + bits o.imm.toNat 5 7 * 2 ^ 25

/-- B-type (R116). -/
def encB (base : Nat) (o : BType) : Nat :=
  base + bits o.imm.toNat 10 1 * 2 ^ 7 + bits o.imm.toNat 0 4 * 2 ^ 8 + o.rs1.val * 2 ^ 15 + o.rs2.val * 2 ^ 20
    + bits o.imm.toNat 4 6 * 2 ^ 25 + bits o.imm.toNat 11 1 * 2 ^ 31

/-- Shift-immediate (R116). -/
def encSh (base : Nat) (o : ShType) : Nat := base + o.rd.val * 2 ^ 7 + o.rs1.val * 2 ^ 15 + o.sh.val * 2 ^ 20

/-- LM (R34). -/
def encLM (op : Nat) (o : LM) : Nat := op * 2 ^ 26 + o.vd.val * 2 ^ 21 + o.xb.val * 2 ^ 16 + o.h.val * 2 ^ 12 + o.off.toNat

/-- LS (R34). -/
def encLS (op : Nat) (o : LS) : Nat := op * 2 ^ 26 + o.vd.val * 2 ^ 21 + o.xb.val * 2 ^ 16 + o.h.val * 2 ^ 12 + o.xs.val * 2 ^ 7

/-- LF (R34). -/
def encLF (op kind : Nat) (o : LF) : Nat :=
  op * 2 ^ 26 + kind * 2 ^ 24 + scopeCode o.scope * 2 ^ 21 + o.paths.toNat * 2 ^ 16 + o.hmask.toNat

/-- V3R (R36). -/
def encV3R (op : Nat) (o : V3R) : Nat :=
  op * 2 ^ 26 + o.vd.val * 2 ^ 21 + o.vs1.val * 2 ^ 16 + o.vs2.val * 2 ^ 11 + pgCode o.pg * 2 ^ 5 + one o.zm * 2 ^ 4
    + one o.w1 * 2 ^ 3 + one o.w2 * 2 ^ 2 + one o.q * 2 + one o.dup

/-- V3R without vs2 (R37). -/
def encV2R (op : Nat) (o : V2R) : Nat :=
  op * 2 ^ 26 + o.vd.val * 2 ^ 21 + o.vs1.val * 2 ^ 16 + pgCode o.pg * 2 ^ 5 + one o.zm * 2 ^ 4
    + one o.w1 * 2 ^ 3 + one o.w2 * 2 ^ 2 + one o.dup

/-- A reduction (R37). -/
def encVRed (op : Nat) (o : VRed) : Nat :=
  op * 2 ^ 26 + o.vd.val * 2 ^ 21 + o.vs1.val * 2 ^ 16 + one o.cols * 2 ^ 13 + redCode o.op * 2 ^ 11 + pgCode o.pg * 2 ^ 5
    + one o.zm * 2 ^ 4 + one o.w1 * 2 ^ 3 + one o.w2 * 2 ^ 2 + one o.dup

/-- VCP (R36). -/
def encVCP (op : Nat) (o : VCP) : Nat :=
  op * 2 ^ 26 + o.pd.val * 2 ^ 20 + o.vs1.val * 2 ^ 15 + o.vs2.val * 2 ^ 10 + pgCode o.pg * 2 ^ 4 + condCode o.cond * 2 + one o.w

/-- VPR (R36). -/
def encVPR (op : Nat) (o : VPR) : Nat := op * 2 ^ 26 + o.pd.val * 2 ^ 20 + o.pa.val * 2 ^ 14 + o.pb.val * 2 ^ 8

/-- VCVT (R36, R37). -/
def encVCV (o : VCV) : Nat :=
  51 * 2 ^ 26 + o.vd.val * 2 ^ 21 + o.vs1.val * 2 ^ 16 + fmtCode o.fin * 2 ^ 12 + fmtCode o.fout * 2 ^ 8 + rndCode o.rnd * 2 ^ 5
    + one o.sat * 2 ^ 4 + one o.strict * 2 ^ 3 + one o.w1 * 2 ^ 2

/-- F3R (R38). -/
def encF3R (op : Nat) (o : F3R) : Nat :=
  op * 2 ^ 26 + o.vd.val * 2 ^ 21 + o.vs1.val * 2 ^ 16 + o.vs2.val * 2 ^ 11 + pgCode o.pg * 2 ^ 5 + one o.zm * 2 ^ 4
    + one o.w1 * 2 ^ 3 + one o.w2 * 2 ^ 2 + one o.q * 2

/-- F3R without vs2 (R38). -/
def encF2R (op : Nat) (o : F2R) : Nat :=
  op * 2 ^ 26 + o.vd.val * 2 ^ 21 + o.vs1.val * 2 ^ 16 + pgCode o.pg * 2 ^ 5 + one o.zm * 2 ^ 4
    + one o.w1 * 2 ^ 3 + one o.w2 * 2 ^ 2

/-- BNET (R38). -/
def encFNet (o : FNet) : Nat :=
  17 * 2 ^ 26 + o.vd.val * 2 ^ 21 + o.vs1.val * 2 ^ 16 + o.vs2.val * 2 ^ 11 + pgCode o.pg * 2 ^ 5 + o.pat.val * 2 ^ 2 + one o.q * 2

/-- MMA (R39). -/
def encMM (o : MM) : Nat :=
  1 * 2 ^ 26 + o.z.val * 2 ^ 25 + o.w.val * 2 ^ 24 + o.xa.val * 2 ^ 19 + o.h.val * 2 ^ 15 + o.rows.val * 2 ^ 9 + o.planes.val * 2 ^ 5
    + mmodeCode o.mode * 2 ^ 2 + one o.acc * 2 + one o.wt

/-- MWLD and MWSTRM (R39). -/
def encMW (op : Nat) (o : MW) : Nat :=
  op * 2 ^ 26 + o.w.val * 2 ^ 25 + o.xa.val * 2 ^ 20 + o.h.val * 2 ^ 16 + fmtCode o.fmt * 2 ^ 12 + packCode o.pack * 2 ^ 10
    + rndCode o.rnd * 2 ^ 7 + one o.sat * 2 ^ 6 + one o.strict * 2 ^ 5 + one o.wt * 2 ^ 4

/-- MRET (R39). -/
def encMR (o : MR) : Nat :=
  6 * 2 ^ 26 + o.z.val * 2 ^ 25 + o.xa.val * 2 ^ 20 + o.h.val * 2 ^ 16 + fmtCode o.fout * 2 ^ 12 + rndCode o.rnd * 2 ^ 9
    + one o.sat * 2 ^ 8 + o.xs.val * 2 ^ 3 + one o.wt * 2 ^ 2

/-- DCOPY (R40). -/
def encDC (mode : Nat) (o : DC) : Nat :=
  2 * 2 ^ 26 + o.hs.val * 2 ^ 22 + o.hd.val * 2 ^ 18 + o.xs.val * 2 ^ 13 + o.xd.val * 2 ^ 8 + o.xk.val * 2 ^ 3 + mode

/-- DGIDX, DSIDX and DSNAP (R40). -/
def encDI (op : Nat) (o : DI) : Nat := op * 2 ^ 26 + o.h.val * 2 ^ 22 + o.xa.val * 2 ^ 17 + o.xn.val * 2 ^ 12

/-- DCOLL (R40). -/
def encDK (o : DK) : Nat :=
  8 * 2 ^ 26 + o.h.val * 2 ^ 22 + o.xa.val * 2 ^ 17 + o.xn.val * 2 ^ 12 + collKindCode o.kind * 2 ^ 10 + scopeCode o.scope * 2 ^ 7

/-- The word of a slot operation, the yield mark of an S word left at 0 (R26); none for an event, which has no encoding. -/
def encode : Instr → Option Nat
  | .lui rd imm => some (53 + rd.val * 2 ^ 7 + imm.toNat * 2 ^ 12)
  | .auipc rd imm => some (21 + rd.val * 2 ^ 7 + imm.toNat * 2 ^ 12)
  | .jal rd imm => some (109 + rd.val * 2 ^ 7 + bits imm.toNat 11 8 * 2 ^ 12 + bits imm.toNat 10 1 * 2 ^ 20 + bits imm.toNat 0 10 * 2 ^ 21
      + bits imm.toNat 19 1 * 2 ^ 31)
  | .jalr o => some (encI 101 o)
  | .beq o => some (encB 97 o)
  | .bne o => some (encB 4193 o)
  | .blt o => some (encB 16481 o)
  | .bge o => some (encB 20577 o)
  | .bltu o => some (encB 24673 o)
  | .bgeu o => some (encB 28769 o)
  | .lb o => some (encI 1 o)
  | .lh o => some (encI 4097 o)
  | .lw o => some (encI 8193 o)
  | .ld o => some (encI 12289 o)
  | .lbu o => some (encI 16385 o)
  | .lhu o => some (encI 20481 o)
  | .lwu o => some (encI 24577 o)
  | .sb o => some (encS 33 o)
  | .sh o => some (encS 4129 o)
  | .sw o => some (encS 8225 o)
  | .sd o => some (encS 12321 o)
  | .addi o => some (encI 17 o)
  | .slti o => some (encI 8209 o)
  | .sltiu o => some (encI 12305 o)
  | .xori o => some (encI 16401 o)
  | .ori o => some (encI 24593 o)
  | .andi o => some (encI 28689 o)
  | .slli o => some (encSh 4113 o)
  | .srli o => some (encSh 20497 o)
  | .srai o => some (encSh 1073762321 o)
  | .addiw o => some (encI 25 o)
  | .slliw o => some (encSh 4121 o)
  | .srliw o => some (encSh 20505 o)
  | .sraiw o => some (encSh 1073762329 o)
  | .add o => some (encR 49 o)
  | .sub o => some (encR 1073741873 o)
  | .sll o => some (encR 4145 o)
  | .slt o => some (encR 8241 o)
  | .sltu o => some (encR 12337 o)
  | .xor o => some (encR 16433 o)
  | .srl o => some (encR 20529 o)
  | .sra o => some (encR 1073762353 o)
  | .or o => some (encR 24625 o)
  | .and o => some (encR 28721 o)
  | .mul o => some (encR 33554481 o)
  | .mulh o => some (encR 33558577 o)
  | .mulhsu o => some (encR 33562673 o)
  | .mulhu o => some (encR 33566769 o)
  | .div o => some (encR 33570865 o)
  | .divu o => some (encR 33574961 o)
  | .rem o => some (encR 33579057 o)
  | .remu o => some (encR 33583153 o)
  | .addw o => some (encR 57 o)
  | .subw o => some (encR 1073741881 o)
  | .sllw o => some (encR 4153 o)
  | .srlw o => some (encR 20537 o)
  | .sraw o => some (encR 1073762361 o)
  | .mulw o => some (encR 33554489 o)
  | .divw o => some (encR 33570873 o)
  | .divuw o => some (encR 33574969 o)
  | .remw o => some (encR 33579065 o)
  | .remuw o => some (encR 33583161 o)
  | .fenceS g => some (13 + g.toNat * 2 ^ 20)
  | .ecall => some (113)
  | .ebreak => some (1048689)
  | .csrrw rd a n => some (4209 + rd.val * 2 ^ 7 + a.val * 2 ^ 15 + n.toNat * 2 ^ 20)
  | .csrrs rd a n => some (8305 + rd.val * 2 ^ 7 + a.val * 2 ^ 15 + n.toNat * 2 ^ 20)
  | .csrrc rd a n => some (12401 + rd.val * 2 ^ 7 + a.val * 2 ^ 15 + n.toNat * 2 ^ 20)
  | .csrrwi rd a n => some (20593 + rd.val * 2 ^ 7 + a.val * 2 ^ 15 + n.toNat * 2 ^ 20)
  | .csrrsi rd a n => some (24689 + rd.val * 2 ^ 7 + a.val * 2 ^ 15 + n.toNat * 2 ^ 20)
  | .csrrci rd a n => some (28785 + rd.val * 2 ^ 7 + a.val * 2 ^ 15 + n.toNat * 2 ^ 20)
  | .loopi n off => some (9 + bits off.toNat 0 5 * 2 ^ 7 + bits off.toNat 5 5 * 2 ^ 15 + n.toNat * 2 ^ 20)
  | .loopr a off => some (4105 + a.val * 2 ^ 15 + off.toNat * 2 ^ 20)
  | .lbrk => some (8201)
  | .endOp => some (12297)
  | .qfeat rd n => some (16393 + rd.val * 2 ^ 7 + n.val * 2 ^ 20)
  | .pcommit => some (20489)
  | .pswap => some (24585)
  | .waitge a b => some (41 + a.val * 2 ^ 15 + b.val * 2 ^ 20)
  | .evpop rd => some (4137 + rd.val * 2 ^ 7)
  | .bar sc n => some (8233 + n.val * 2 ^ 20 + scopeCode sc * 2 ^ 29)
  | .nextitem rd => some (12329 + rd.val * 2 ^ 7)
  | .emit a n => some (16425 + a.val * 2 ^ 15 + n.val * 2 ^ 20)
  | .ldl o => some (encI 20521 o)
  | .stul o => some (encS 24617 o)
  | .amoaddW o => some (encR 8281 o)
  | .amoaddD o => some (encR 12377 o)
  | .amoandW o => some (encR 134226009 o)
  | .amoandD o => some (encR 134230105 o)
  | .amoorW o => some (encR 268443737 o)
  | .amoorD o => some (encR 268447833 o)
  | .amoxorW o => some (encR 402661465 o)
  | .amoxorD o => some (encR 402665561 o)
  | .amominW o => some (encR 536879193 o)
  | .amominD o => some (encR 536883289 o)
  | .amomaxW o => some (encR 671096921 o)
  | .amomaxD o => some (encR 671101017 o)
  | .amominnW o => some (encR 805314649 o)
  | .amominnD o => some (encR 805318745 o)
  | .amomaxnW o => some (encR 939532377 o)
  | .amomaxnD o => some (encR 939536473 o)
  | .amoswapW o => some (encR 1073750105 o)
  | .amoswapD o => some (encR 1073754201 o)
  | .casW o => some (encR 1207967833 o)
  | .casD o => some (encR 1207971929 o)
  | .tret => some (121)
  | .ctxsave a => some (4217 + a.val * 2 ^ 15)
  | .ctxload a => some (8313 + a.val * 2 ^ 15)
  | .kgen rd => some (12409 + rd.val * 2 ^ 7)
  | .krot rd a => some (16505 + rd.val * 2 ^ 7 + a.val * 2 ^ 15)
  | .seal rd a => some (20601 + rd.val * 2 ^ 7 + a.val * 2 ^ 15)
  | .unseal rd a => some (24697 + rd.val * 2 ^ 7 + a.val * 2 ^ 15)
  | .scrub rd a => some (28793 + rd.val * 2 ^ 7 + a.val * 2 ^ 15)
  | .mclrchk rd a => some (33583225 + rd.val * 2 ^ 7 + a.val * 2 ^ 15)
  | .vld o => some (encLM 1 o)
  | .vst o => some (encLM 2 o)
  | .vldb o => some (encLM 3 o)
  | .vstp o => some (encLM 4 o)
  | .vldx o => some (encLM 5 o)
  | .vlds o => some (encLS 6 o)
  | .vsts o => some (encLS 7 o)
  | .sld o => some (encLM 8 o)
  | .sst o => some (encLM 9 o)
  | .vpush v q p => some (10 * 2 ^ 26 + v.val * 2 ^ 21 + q.val * 2 ^ 19 + pgCode p)
  | .hset h a => some (16 * 2 ^ 26 + h.val * 2 ^ 22 + a.val * 2 ^ 17)
  | .hget h d n => some (17 * 2 ^ 26 + h.val * 2 ^ 22 + d.val * 2 ^ 17 + n.val * 2 ^ 14)
  | .hclr h => some (18 * 2 ^ 26 + h.val * 2 ^ 22)
  | .fence k o => some (encLF 24 (fenceKindCode k) o)
  | .acqH o => some (encLF 25 0 o)
  | .relH o => some (encLF 26 0 o)
  | .errfence p m => some (27 * 2 ^ 26 + p.toNat * 2 ^ 16 + m.toNat)
  | .vadd _ o => some (encV3R 1 o)
  | .vsub _ o => some (encV3R 2 o)
  | .vaddsI _ o => some (encV3R 3 o)
  | .vaddsN _ o => some (encV3R 4 o)
  | .vsubsI _ o => some (encV3R 5 o)
  | .vsubsN _ o => some (encV3R 6 o)
  | .vmul _ o => some (encV3R 7 o)
  | .vmulhI _ o => some (encV3R 8 o)
  | .vmulhN _ o => some (encV3R 9 o)
  | .vminI _ o => some (encV3R 10 o)
  | .vminN _ o => some (encV3R 11 o)
  | .vmaxI _ o => some (encV3R 12 o)
  | .vmaxN _ o => some (encV3R 13 o)
  | .vabs _ o => some (encV2R 14 o)
  | .vnot _ o => some (encV2R 15 o)
  | .vsll _ o => some (encV3R 16 o)
  | .vsrl _ o => some (encV3R 17 o)
  | .vsra _ o => some (encV3R 18 o)
  | .vand _ o => some (encV3R 19 o)
  | .vor _ o => some (encV3R 20 o)
  | .vxor _ o => some (encV3R 21 o)
  | .vandn _ o => some (encV3R 22 o)
  | .vsel _ o => some (encV3R 23 o)
  | .vcmpI _ o => some (encVCP 24 o)
  | .vcmpN _ o => some (encVCP 25 o)
  | .vcmpF _ o => some (encVCP 26 o)
  | .vcmpBf _ o => some (encVCP 27 o)
  | .vredI _ o => some (encVRed 28 o)
  | .vredN _ o => some (encVRed 29 o)
  | .vredF _ o => some (encVRed 30 o)
  | .vredBf _ o => some (encVRed 31 o)
  | .vfadd _ o => some (encV3R 32 o)
  | .vfsub _ o => some (encV3R 33 o)
  | .vfmul _ o => some (encV3R 34 o)
  | .vfma _ o => some (encV3R 35 o)
  | .vfms _ o => some (encV3R 36 o)
  | .vfnma _ o => some (encV3R 37 o)
  | .vfmin _ o => some (encV3R 38 o)
  | .vfmax _ o => some (encV3R 39 o)
  | .vbfadd _ o => some (encV3R 40 o)
  | .vbfsub _ o => some (encV3R 41 o)
  | .vbfmul _ o => some (encV3R 42 o)
  | .vbfma _ o => some (encV3R 43 o)
  | .vbfms _ o => some (encV3R 44 o)
  | .vbfnma _ o => some (encV3R 45 o)
  | .vbfmin _ o => some (encV3R 46 o)
  | .vbfmax _ o => some (encV3R 47 o)
  | .vmov _ o => some (encV2R 48 o)
  | .vbcast _ d i => some (49 * 2 ^ 26 + d.val * 2 ^ 21 + i.toNat)
  | .vbcx _ d a => some (50 * 2 ^ 26 + d.val * 2 ^ 21 + a.val * 2 ^ 16)
  | .vcvt _ o => some (encVCV o)
  | .vunp3 _ d a f t w => some (52 * 2 ^ 26 + d.val * 2 ^ 21 + a.val * 2 ^ 16 + 10 * 2 ^ 12 + fmtCode f * 2 ^ 8 + one t * 2 ^ 3 + one w * 2 ^ 2)
  | .vpack _ o => some (encV3R 53 o)
  | .vsetshape _ a => some (54 * 2 ^ 26 + a.val * 2 ^ 16)
  | .pand _ o => some (encVPR 56 o)
  | .por _ o => some (encVPR 57 o)
  | .pxor _ o => some (encVPR 58 o)
  | .pnot _ d a => some (59 * 2 ^ 26 + d.val * 2 ^ 20 + a.val * 2 ^ 14)
  | .pset _ d n => some (60 * 2 ^ 26 + d.val * 2 ^ 20 + n.val * 2 ^ 10)
  | .pcount _ d a => some (61 * 2 ^ 26 + d.val * 2 ^ 20 + a.val * 2 ^ 14)
  | .exp2 o => some (encF2R 1 o)
  | .log2 o => some (encF2R 2 o)
  | .rcp o => some (encF2R 3 o)
  | .rsqrt o => some (encF2R 4 o)
  | .sqrt o => some (encF2R 5 o)
  | .fDiv o => some (encF3R 6 o)
  | .tanh o => some (encF2R 7 o)
  | .wupd o => some (encF3R 8 o)
  | .wmrg o => some (encF3R 9 o)
  | .wfin o => some (encF3R 10 o)
  | .bnld a k => some (16 * 2 ^ 26 + a.val * 2 ^ 16 + 63 * 2 ^ 5 + k.val * 2 ^ 2)
  | .bnet o => some (encFNet o)
  | .bmm8 o => some (encF3R 18 o)
  | .pdep o => some (encF3R 19 o)
  | .pext o => some (encF3R 20 o)
  | .bperm o => some (encF3R 21 o)
  | .vtrn o => some (encF2R 22 o)
  | .mma o => some (encMM o)
  | .mzero z => some (2 * 2 ^ 26 + z.val * 2 ^ 25)
  | .mwld o => some (encMW 3 o)
  | .mwstrm o => some (encMW 4 o)
  | .mwswap => some (5 * 2 ^ 26)
  | .mret o => some (encMR o)
  | .mstat d n => some (7 * 2 ^ 26 + d.val * 2 ^ 21 + n.val * 2 ^ 18)
  | .dlvl l a b d => some (1 * 2 ^ 26 + l.val * 2 ^ 23 + a.val * 2 ^ 18 + b.val * 2 ^ 13 + d.val * 2 ^ 8)
  | .dcopyCopy o => some (encDC 0 o)
  | .dcopyFill o => some (encDC 1 o)
  | .dcopyDecode o => some (encDC 2 o)
  | .dcopyAddint o => some (encDC 3 o)
  | .dcopyClone o => some (encDC 4 o)
  | .dpad a => some (3 * 2 ^ 26 + a.val * 2 ^ 21)
  | .dgcfg a b d => some (4 * 2 ^ 26 + a.val * 2 ^ 22 + b.val * 2 ^ 18 + d.val * 2 ^ 13)
  | .dgidx o => some (encDI 5 o)
  | .dsidx o => some (encDI 6 o)
  | .dtinv => some (7 * 2 ^ 26)
  | .dcoll o => some (encDK o)
  | .dsnap o => some (encDI 9 o)
  | .kalu o d a b => some (1 * 2 ^ 26 + d.val * 2 ^ 23 + ksrcBit a * 2 ^ 22 + ksrcNum a * 2 ^ 17 + ksrcBit b * 2 ^ 16 + ksrcNum b * 2 ^ 11 + kopCode o * 2 ^ 7)
  | .kchkX a b w => some (2 * 2 ^ 26 + a.val * 2 ^ 23 + b.val * 2 ^ 18 + one w * 2 ^ 17)
  | .kchkV a b => some (3 * 2 ^ 26 + a.val * 2 ^ 21 + b.val * 2 ^ 16)
  | .kchkP a b => some (4 * 2 ^ 26 + a.val * 2 ^ 20 + b.val * 2 ^ 14)
  | .ksig a => some (5 * 2 ^ 26 + a.val * 2 ^ 21)
  | .krd d a => some (6 * 2 ^ 26 + d.val * 2 ^ 21 + a.val * 2 ^ 18)
  | .token r i y => some (r.val * 2 ^ 11 + i.val * 2 ^ 2 + one y * 2)
  | .illegalToken t => some t.toNat
  | .nop sl => if sl = .s then none else some 0
  | .unassignedOpcode _ w => some w.toNat
  | .forcedCommit | .forcedCommitUndoLog | .barrierArrival _ _ _ | .barrierComplete _ _ | .nextitemHandout _ _
  | .emitGrant _ _ | .emitPublish _ _ _ | .itemRelease _ _ _ | .lockGrant _ _ _ | .ldlRetry | .atomicPerform _
  | .trustOpPerform _ | .trustOpComplete _ | .relHPerform _ | .mmaComplete _ | .mwldComplete _ | .mwstrmComplete _
  | .mretComplete _ | .addintCopyStart _ | .copyComplete _ | .gatherEntryDeliver | .scatterEntryTake
  | .scatterComplete | .dtinvComplete _ | .dcollContribution _ | .dcollComplete _ | .dsnapComplete _ | .resultLanding
  | .resultArrival _ | .deferredTrap _ | .yardKill _ | .paddockEntry | .paddockRelease | .pendingListRelease _
  | .storePerform _ | .counterIncrementPerform _ | .tagRefusal _ | .upsetReport _ | .checkpointRelease | .dryRunEnd
  | .confirmRunEnd | .recoveryResume _ _ | .uncorrectableConsumed _ _ _ _ | .preemptRequest _ | .voluntaryPreempt
  | .yieldOverrun | .preemptComplete _ | .backgroundWriteback _ | .coreSelfTest _ _ | .queueDoorbell _ _
  | .queueEnable _ _ | .queueDisable _ | .noOp _ _ | .launch _ _ _ | .counterAdd _ _ _ _ _ | .counterAddDeferred _
  | .resync _ _ | .otherTypeEntry _ _ _ | .launchStart _ | .launchComplete _ | .eventRingEnable _ _
  | .rebalanceBoundary | .coreAllocation _ | .sliceBoundary _ | .partitionChange _ _ _ | .gangSliceTimes _ _ _
  | .gangSliceStart _ | .gangPreemptTimeout _ | .invalidate _ _ | .invalidateDone _ | .migrationRequest _ _ _ _
  | .migrationCopy _ _ | .migrationSwitch _ _ | .perBankRefresh _ _ _ _ | .activationAlert _ _ _ _
  | .channelRetrain _ _ _ _ _ | .bandwidthBoundary | .budgetWrite _ | .shareWrite _ _ | .scrubCtx _
  | .scrubPages _ _ _ | .health | .debugNonce | .debugUnlock _ | .fabric _ _ | .ready | .fwUpdate _ _ _ | .shedClear
  | .hostmeta _ _ | .vfAssign _ _ | .unbind _ | .rngRetest | .rngReseed | .getVersion _ | .getCapabilities _
  | .negotiateAlgorithms _ _ | .getDigests _ | .getCertificate _ _ | .challenge _ _ _ | .getMeasurements _ _ _
  | .keyExchange _ _ | .finish _ _ | .keyUpdate _ | .heartbeat _ | .endSession _ | .peerAllow _ _ | .lockInterface _
  | .startInterface _ | .stopInterface _ | .getDeviceInterfaceReport _ | .getDeviceInterfaceState _
  | .getTdispVersion _ | .getTdispCapabilities _ | .hs1 _ _ | .hs2 _ _ | .hs3 _ _ | .handshakeRetry _
  | .fabricRekey _ | .dieLinkRekey _ _ _ _ | .flitRetry _ _ _ _ | .packageReset | .bootStage0 _ _ | .bootStage1 _ _
  | .bootStage2 _ _ | .bootStage3 _ | .bootStage4 _ | .bootStage5 _ _ | .bootStageTimeout | .startRestart
  | .railFault | .thermalTrip | .powerLimitThrottle _ | .functionLevelReset _ | .ucieLaneRepair _ _ _ _ _
  | .ucieLinkLoss _ _ | .pcieLinkDown | .pcieLinkUp _ | .cxlDeviceLoss | .ualinkPortTrain _ _ _ | .ualinkPortLoss _
  | .podTimeCorrection _ | .registerWrite _ _ | .tagFailure _ _ | .scrubComplete _ | .ideIntegrityFailure _
  | .unsupportedRequest _ _ | .ualinkLaneLoss _ _ => none

/-- The slot in which an operation stands (R12); none for a token and for an event. -/
def slotOf : Instr → Option Slot
  | .lui _ _ | .auipc _ _ | .jal _ _ | .jalr _ | .beq _ | .bne _ | .blt _ | .bge _ | .bltu _ | .bgeu _ | .lb _
  | .lh _ | .lw _ | .ld _ | .lbu _ | .lhu _ | .lwu _ | .sb _ | .sh _ | .sw _ | .sd _ | .addi _ | .slti _ | .sltiu _
  | .xori _ | .ori _ | .andi _ | .slli _ | .srli _ | .srai _ | .addiw _ | .slliw _ | .srliw _ | .sraiw _ | .add _
  | .sub _ | .sll _ | .slt _ | .sltu _ | .xor _ | .srl _ | .sra _ | .or _ | .and _ | .mul _ | .mulh _ | .mulhsu _
  | .mulhu _ | .div _ | .divu _ | .rem _ | .remu _ | .addw _ | .subw _ | .sllw _ | .srlw _ | .sraw _ | .mulw _
  | .divw _ | .divuw _ | .remw _ | .remuw _ | .fenceS _ | .ecall | .ebreak | .csrrw _ _ _ | .csrrs _ _ _
  | .csrrc _ _ _ | .csrrwi _ _ _ | .csrrsi _ _ _ | .csrrci _ _ _ | .loopi _ _ | .loopr _ _ | .lbrk | .endOp
  | .qfeat _ _ | .pcommit | .pswap | .waitge _ _ | .evpop _ | .bar _ _ | .nextitem _ | .emit _ _ | .ldl _ | .stul _
  | .amoaddW _ | .amoaddD _ | .amoandW _ | .amoandD _ | .amoorW _ | .amoorD _ | .amoxorW _ | .amoxorD _ | .amominW _
  | .amominD _ | .amomaxW _ | .amomaxD _ | .amominnW _ | .amominnD _ | .amomaxnW _ | .amomaxnD _ | .amoswapW _
  | .amoswapD _ | .casW _ | .casD _ | .tret | .ctxsave _ | .ctxload _ | .kgen _ | .krot _ _ | .seal _ _ | .unseal _ _
  | .scrub _ _ | .mclrchk _ _ => some .s
  | .vld _ | .vst _ | .vldb _ | .vstp _ | .vldx _ | .vlds _ | .vsts _ | .sld _ | .sst _ | .vpush _ _ _ | .hset _ _
  | .hget _ _ _ | .hclr _ | .fence _ _ | .acqH _ | .relH _ | .errfence _ _ => some .l
  | .vadd e _ | .vsub e _ | .vaddsI e _ | .vaddsN e _ | .vsubsI e _ | .vsubsN e _ | .vmul e _ | .vmulhI e _
  | .vmulhN e _ | .vminI e _ | .vminN e _ | .vmaxI e _ | .vmaxN e _ | .vabs e _ | .vnot e _ | .vsll e _ | .vsrl e _
  | .vsra e _ | .vand e _ | .vor e _ | .vxor e _ | .vandn e _ | .vsel e _ | .vcmpI e _ | .vcmpN e _ | .vcmpF e _
  | .vcmpBf e _ | .vredI e _ | .vredN e _ | .vredF e _ | .vredBf e _ | .vfadd e _ | .vfsub e _ | .vfmul e _
  | .vfma e _ | .vfms e _ | .vfnma e _ | .vfmin e _ | .vfmax e _ | .vbfadd e _ | .vbfsub e _ | .vbfmul e _
  | .vbfma e _ | .vbfms e _ | .vbfnma e _ | .vbfmin e _ | .vbfmax e _ | .vmov e _ | .vbcast e _ _ | .vbcx e _ _
  | .vcvt e _ | .vunp3 e _ _ _ _ _ | .vpack e _ | .vsetshape e _ | .pand e _ | .por e _ | .pxor e _ | .pnot e _ _
  | .pset e _ _ | .pcount e _ _ => some (match e with | .v0 => .v0 | .v1 => .v1)
  | .exp2 _ | .log2 _ | .rcp _ | .rsqrt _ | .sqrt _ | .fDiv _ | .tanh _ | .wupd _ | .wmrg _ | .wfin _ | .bnld _ _
  | .bnet _ | .bmm8 _ | .pdep _ | .pext _ | .bperm _ | .vtrn _ => some .f
  | .mma _ | .mzero _ | .mwld _ | .mwstrm _ | .mwswap | .mret _ | .mstat _ _ => some .m
  | .dlvl _ _ _ _ | .dcopyCopy _ | .dcopyFill _ | .dcopyDecode _ | .dcopyAddint _ | .dcopyClone _ | .dpad _
  | .dgcfg _ _ _ | .dgidx _ | .dsidx _ | .dtinv | .dcoll _ | .dsnap _ => some .d
  | .kalu _ _ _ _ | .kchkX _ _ _ | .kchkV _ _ | .kchkP _ _ | .ksig _ | .krd _ _ => some .k
  | .nop sl => if sl = .s then none else some sl
  | .unassignedOpcode sl _ => some sl
  | .token _ _ _ | .illegalToken _ | .forcedCommit | .forcedCommitUndoLog | .barrierArrival _ _ _
  | .barrierComplete _ _ | .nextitemHandout _ _ | .emitGrant _ _ | .emitPublish _ _ _ | .itemRelease _ _ _
  | .lockGrant _ _ _ | .ldlRetry | .atomicPerform _ | .trustOpPerform _ | .trustOpComplete _ | .relHPerform _
  | .mmaComplete _ | .mwldComplete _ | .mwstrmComplete _ | .mretComplete _ | .addintCopyStart _ | .copyComplete _
  | .gatherEntryDeliver | .scatterEntryTake | .scatterComplete | .dtinvComplete _ | .dcollContribution _
  | .dcollComplete _ | .dsnapComplete _ | .resultLanding | .resultArrival _ | .deferredTrap _ | .yardKill _
  | .paddockEntry | .paddockRelease | .pendingListRelease _ | .storePerform _ | .counterIncrementPerform _
  | .tagRefusal _ | .upsetReport _ | .checkpointRelease | .dryRunEnd | .confirmRunEnd | .recoveryResume _ _
  | .uncorrectableConsumed _ _ _ _ | .preemptRequest _ | .voluntaryPreempt | .yieldOverrun | .preemptComplete _
  | .backgroundWriteback _ | .coreSelfTest _ _ | .queueDoorbell _ _ | .queueEnable _ _ | .queueDisable _ | .noOp _ _
  | .launch _ _ _ | .counterAdd _ _ _ _ _ | .counterAddDeferred _ | .resync _ _ | .otherTypeEntry _ _ _
  | .launchStart _ | .launchComplete _ | .eventRingEnable _ _ | .rebalanceBoundary | .coreAllocation _
  | .sliceBoundary _ | .partitionChange _ _ _ | .gangSliceTimes _ _ _ | .gangSliceStart _ | .gangPreemptTimeout _
  | .invalidate _ _ | .invalidateDone _ | .migrationRequest _ _ _ _ | .migrationCopy _ _ | .migrationSwitch _ _
  | .perBankRefresh _ _ _ _ | .activationAlert _ _ _ _ | .channelRetrain _ _ _ _ _ | .bandwidthBoundary
  | .budgetWrite _ | .shareWrite _ _ | .scrubCtx _ | .scrubPages _ _ _ | .health | .debugNonce | .debugUnlock _
  | .fabric _ _ | .ready | .fwUpdate _ _ _ | .shedClear | .hostmeta _ _ | .vfAssign _ _ | .unbind _ | .rngRetest
  | .rngReseed | .getVersion _ | .getCapabilities _ | .negotiateAlgorithms _ _ | .getDigests _ | .getCertificate _ _
  | .challenge _ _ _ | .getMeasurements _ _ _ | .keyExchange _ _ | .finish _ _ | .keyUpdate _ | .heartbeat _
  | .endSession _ | .peerAllow _ _ | .lockInterface _ | .startInterface _ | .stopInterface _
  | .getDeviceInterfaceReport _ | .getDeviceInterfaceState _ | .getTdispVersion _ | .getTdispCapabilities _
  | .hs1 _ _ | .hs2 _ _ | .hs3 _ _ | .handshakeRetry _ | .fabricRekey _ | .dieLinkRekey _ _ _ _ | .flitRetry _ _ _ _
  | .packageReset | .bootStage0 _ _ | .bootStage1 _ _ | .bootStage2 _ _ | .bootStage3 _ | .bootStage4 _
  | .bootStage5 _ _ | .bootStageTimeout | .startRestart | .railFault | .thermalTrip | .powerLimitThrottle _
  | .functionLevelReset _ | .ucieLaneRepair _ _ _ _ _ | .ucieLinkLoss _ _ | .pcieLinkDown | .pcieLinkUp _
  | .cxlDeviceLoss | .ualinkPortTrain _ _ _ | .ualinkPortLoss _ | .podTimeCorrection _ | .registerWrite _ _
  | .tagFailure _ _ | .scrubComplete _ | .ideIntegrityFailure _ | .unsupportedRequest _ _ | .ualinkLaneLoss _ _ => none

end Sys2Proof
end

