-- ==== Sys2Proof/Config.lean ====
section
/-! DEFINITION. What one AX1 fixes, and the free values: constants with no body, about which nothing can be proved. A
statement about the machine therefore holds for every timing, every noise sample and every outcome that the manual leaves
open (assumptions 4 to 7). -/

namespace Sys2Proof.Config

/-- Silicon stepping reported in `gen`[7:0] (R62). -/
opaque stepping : BitVec 8

/-- The wall-cycle length of the n-th activity whose latency the manual leaves open: remote and global reads, the performing
of released writes, copy-engine and hub work. -/
opaque latency : Nat → Nat

/-- The n-th choice among outcomes that the manual allows: which admissible write a read returns (R91), whether a cached
translation is used (R349), which of two values an overlapped unit keeps (R297). -/
opaque choice : Nat → Nat

/-- The n-th 32 bytes whose layout the manual does not give: a held-back effect in the context area (R146). -/
opaque granule : Nat → BitVec 256

/-- The bytes of Sarerbex's translation of a Ubrov set (R60), a function of the set's bytes, the image id and version and the generation
alone: the granules of the native code, and the dictionary entries of the kernel at a record. Only a read of the code store shows
them; what the set does is its records' (R59). -/
opaque ubrovCode : List (BitVec 8) → BitVec 64 → Nat → Nat → Nat → BitVec 256
opaque ubrovDict : List (BitVec 8) → BitVec 64 → Nat → Nat → Nat → Nat → BitVec 256

/-- The n-th sample of the physical noise source (R368). -/
opaque noise : Nat → BitVec 8

/-- AEAD, signature, key-agreement and digest primitives of the standards that the part speaks (R389, R392, R393): their
outputs are those standards' business and stay uninterpreted. -/
opaque ed448Verify : List (BitVec 8) → List (BitVec 8) → Bool
opaque ed448Sign : List (BitVec 8) → List (BitVec 8)
opaque x448 : List (BitVec 8) → List (BitVec 8)
opaque mlKem : List (BitVec 8) → List (BitVec 8)
opaque secp384 : List (BitVec 8) → List (BitVec 8)
opaque certificate : Nat → List (BitVec 8)
opaque hmac : List (BitVec 8) → List (BitVec 8) → List (BitVec 8)
opaque chainValid : List (BitVec 8) → Bool
opaque serial : List (BitVec 8)
opaque bootImage : Nat → List (BitVec 8)

/-- AES-256-GCM decryption under a key, with its IV, additional data, ciphertext and tag: none where the tag does not verify
(R315). -/
opaque gcmOpen (key iv aad body tag : List (BitVec 8)) : Option (List (BitVec 8))

/-- The security version in the fuses (R404). -/
opaque fusedVersion : Nat

/-- The die, quad and core number of the core that the model executes come from State; these are the package's extents (R8). -/
def dies : Nat := 8
def coresPerDie : Nat := 96
def scratchBytes : Nat := 0x60000
def codeBytes : Nat := 0x10000
def paddockDelay : Nat := 512
def strikeBound : Nat := 480

/-- The AX1 latency contract, the reset value of `latcon` (R47). -/
def latconReset : Word := 0x021F573B55374020

end Sys2Proof.Config
end

