-- ==== Sys2Proof/Machine/State.lean ====
section
/-! DEFINITION. The state of the machine as plain data: one compute core in full (R13), the memory that the package's cores
share, and the hub, trust engine and links that serve it. Every piece names the rule that gives it; a piece that is the
model's own (a queue of the environment's inputs, a counter of free values, the open issue cycle) says so. -/

namespace Sys2Proof.Machine

open Sys2Proof

/-! ### Outcomes -/

/-- The ways in which a step stops with a fault. The manual's own faults are traps, and a trap is a next state (R141). -/
inductive Fault where
  /-- Raised by `step` when every clock is stopped, the package is not held in reset, and no environment input waits (R410): time
  itself stands still. No run from reset comes there. Safe: the machine makes no move. -/
  | clocksStopped
  deriving DecidableEq, Repr

/-- The ways in which an instruction is refused. -/
inductive Refusal where
  /-- Raised by an arm of `exec` for an instruction that has no meaning yet. Safe: it claims nothing. -/
  | notModelled (mnemonic : String)
  deriving DecidableEq, Repr

/-! ### Memory -/

/-- Memory as a list of cells in one canonical form: addresses strictly rise, and no cell holds the value that an unlisted
address reads as. Keys: a local-window address (R86) is itself; a die-window or code-store address is its virtual address;
byte p of tier t's device address space (R342) is (t + 1) * 2^60 + p, tier 2 being host memory. -/
abbrev Memory := List Host.Cell

/-- One earlier value of a naturally aligned 8-byte unit of global memory (R89 to R91): which reads may still return it. Bit
16 * path + handle of `blocked` is 1 when a read on that path through that handle may not. `near` is the narrowest scope whose
instance holds this core and the writer that overtook it (R96), `pkg` whether that write has reached its home (R95). -/
structure OldUnit where
  unit : Nat
  val : Word
  blocked : BitVec 80
  near : Scope
  pkg : Bool
  deriving DecidableEq, Repr

/-- The counter record of a 4 KiB crypto block (R370), and the key slot whose key its ciphertext is under (R366). A block that
is not listed is in its reset state: `zero` = 1. -/
structure CtrRec where
  block : Nat
  shared : Bool
  zero : Bool
  slot : Nat
  epoch : Bool
  major : BitVec 48
  blk : BitVec 18
  lpid : BitVec 32
  minor : BitVec 384
  deriving DecidableEq, Repr

/-- How a 64-byte line is bad: its check code cannot correct it (R357) or its MAC or record fails (R374). -/
inductive BadKind where
  | uncorrectable | integrity
  deriving DecidableEq, Repr

/-- How an access uses a page (R346): a read, a write, a read-modify-write, or a collective's write, which needs no r but may
not go to tiers 01 and 10. -/
inductive AccKind where
  | read | write | rmw | collWrite
  deriving DecidableEq, Repr

/-- A translation in use (R345, R348, R349): the function whose tenant it serves, the virtual address and size of its page, where the
leaf lies, and the leaf's two words. -/
structure Xlat where
  vf : Nat
  va : Nat
  size : Nat
  leafAddr : Nat
  w0 : Word
  w1 : Word
  deriving DecidableEq, Repr

/-- The regions of the tenant address space (R86): the local window, offset o of die core n's window, the code store, global
memory, and what the table marks none. -/
inductive Window where
  | spad
  | die (n o : Nat)
  | code
  | global
  | hole
  deriving DecidableEq, Repr

/-! ### Sequencer (slot S) -/

/-- The core's two levels (R114). -/
inductive Level where
  | program | system
  deriving DecidableEq, Repr

/-- What the core's thread is doing. -/
inductive RunState where
  /-- no context on the core (R20, R330) -/
  | idle
  /-- issuing bundles -/
  | running
  /-- END issued at program level: fetch has stopped and the core drains (R135) -/
  | draining
  /-- a NEXTITEM that a stage move ended: the core drains, then starts the stage's kernel (R329) -/
  | moving (stage : Nat)
  /-- a pre-emption saves the context; its Paddock drains before another context runs (R148) -/
  | saving (forced : Bool)
  /-- stopped by a double trap (kill cause 1, with both causes) or an END that ended the context (kill cause 9); the hub
  contains the launch (R141, R135, R338) -/
  | stopped (kill : Nat) (first second : Nat)
  /-- retired (R306) -/
  | retired
  deriving DecidableEq, Repr

/-- One entry of the loop stack (R13, R120). -/
structure LoopEntry where
  index : Word
  count : Word
  start : Nat
  stop : Nat
  deriving DecidableEq, Repr

/-- The token whose repetitions are being issued (R27): its dictionary entry, its repetition field and its yield mark. -/
structure Unit' where
  index : Fin 512
  rep : Fin 32
  mark : Bool
  deriving DecidableEq, Repr

/-- A pending barrier wait (R129, R146); `mark` tells that its BAR bundle is yield-marked (R148). -/
structure BarWait where
  scope : Scope
  id : Fin 512
  gen : BitVec 32
  mark : Bool
  deriving DecidableEq, Repr

/-- The hub's pre-emption request (R148): the wall cycle of the request, the save area, the cycles counted so far, and whether
YIELD_OVERRUN was taken for it. -/
structure Preempt where
  at' : Nat
  area : Word
  waited : Nat
  forced : Bool
  deriving DecidableEq, Repr

/-- The stage item slot that the core last took (R130). -/
structure ItemSlot where
  launch : Nat
  queue : Nat
  slot : Nat
  addr : Word
  deriving DecidableEq, Repr

/-- Which work the core runs: the launch, its stage and the virtual function (R323, R324). -/
structure Ctx where
  launch : Nat
  stage : Nat
  vf : Nat
  imageId : Word
  deriving DecidableEq, Repr

/-- The sequencer's state. `barWait` is the program's barrier wait, `handlerWait` a handler's. `x` is the program bank and `sx` the system bank; register x0 of either is held and never read. -/
structure Seq where
  pc : Nat
  reps : Nat
  token : Option Unit'
  run : RunState
  level : Level
  x : Vector Word 32
  sx : Vector Word 32
  loops : List LoopEntry
  vshape : BitVec 20
  vflags : BitVec 7
  mflags : BitVec 3
  phase : BitVec 48
  parity : Bool
  cycle : Word
  instret : Word
  latcon : Word
  handlerLatcon : Word
  yieldbound : BitVec 32
  tcause : BitVec 9
  tval : BitVec 60
  tpc : BitVec 21
  tvec : BitVec 11
  tenant : BitVec 29
  gmode : Bool
  held : List FaultRec
  heldOverrun : Bool
  preempt : Option Preempt
  barWait : Option BarWait
  handlerWait : Option BarWait
  item : Option ItemSlot
  firstItem : Bool
  ctx : Option Ctx
  deriving DecidableEq, Repr

/-! ### Vector, predicate, queue, function-unit and check registers -/

/-- One entry of an operand queue: its length in bytes and its bytes, zero beyond the length (R13, R184). -/
structure QEntry where
  len : Nat
  bytes : VReg
  deriving DecidableEq, Repr

/-- The register files that both levels share (R13, R114), the F patterns (R206) and the check registers (R284). `qix` is the
place, 0 to 3, of each queue's oldest entry (R179). -/
structure Regs where
  v : Vector VReg 32
  p : Vector PReg 48
  h : Vector Granule 16
  k : Vector Word 8
  q : Vector (List QEntry) 4
  qix : Vector (Fin 4) 4
  pat : Vector (BitVec 512) 8
  deriving DecidableEq, Repr

/-! ### Matrix engine -/

/-- A tile (R225): `shape` is none when clear, else rows, columns and whether its type is FP32; `entries` is row-major. `busy`
is the empty mark of R228. -/
structure Tile where
  shape : Option (Nat × Nat × Bool)
  entries : List (BitVec 32)
  busy : Bool
  deriving DecidableEq, Repr

/-- A weight buffer with its exponent store, descriptor and residue sums (R223): row k holds 128 cells of 10 bits. -/
structure WBuf where
  cells : Vector (BitVec 1280) 256
  exps : Vector (BitVec 2048) 8
  pack : Pack
  fmt : Fmt
  stream : Bool
  loading : Bool
  residue : Vector (BitVec 8) 256
  deriving DecidableEq, Repr

/-- An MMA in flight: the planes read so far, one granule a wall cycle, and each row's eight scale bytes (R231, R242). -/
structure MmaOp where
  id : Nat
  z : Fin 2
  buf : Fin 2
  ea : Nat
  h : Fin 16
  rows : Nat
  planes : Nat
  mode : MMode
  acc : Bool
  read : List Granule
  scales : List (List Byte)
  due : Nat
  waited : Nat
  issued : Nat
  commit : Nat
  sys : Bool
  deriving DecidableEq, Repr

/-- A weight load in flight (R234 to R237): the buffer (physical), the range lo to hi of the clipped bytes, the bytes `size` of
an unclipped load, the formats and the pages captured at issue, the addresses of the metadata bytes, the bytes read so far (the data, then
the metadata), and the faults met by line. -/
structure LoadOp where
  id : Nat
  buf : Fin 2
  stream : Bool
  lo : Nat
  hi : Nat
  size : Nat
  h : Fin 16
  fmt : Fmt
  pack : Pack
  rnd : Rnd
  sat : Bool
  strict : Bool
  guarded : Bool
  pages : List Xlat
  metas : List Nat
  read : List Byte
  lost : List (Nat × BitVec 8)
  due : Nat
  waited : Nat
  commit : Nat
  sys : Bool
  deriving DecidableEq, Repr

/-- A retirement in flight (R245): the entries still to be written and where; `commit` is the commits made before it issued. -/
structure RetOp where
  id : Nat
  z : Fin 2
  base : Nat
  h : Fin 16
  step : Nat
  bytes : List Byte
  vfl : BitVec 7
  mfl : BitVec 3
  due : Nat
  waited : Nat
  commit : Nat
  sys : Bool
  deriving DecidableEq, Repr

/-- The matrix engine (R223): `map` is the buffer map; the counters are saturation and overflow counts (R249). -/
structure Mat where
  tiles : Vector Tile 2
  bufs : Vector WBuf 2
  map : Bool
  pendSat : BitVec 32
  pendOvf : BitVec 32
  comSat : BitVec 32
  comOvf : BitVec 32
  mma : Option MmaOp
  load : Option LoadOp
  ret : Option RetOp
  deriving DecidableEq, Repr

/-! ### Copy engine -/

/-- One nest level (R255). -/
structure Level' where
  count : Nat
  ss : Int
  ds : Int
  deriving DecidableEq, Repr

/-- The modes of DCOPY (R264). -/
inductive CopyMode where
  | copy | fill | decode | addint | clone
  deriving DecidableEq, Repr

/-- What a D command does. -/
inductive DKind where
  | copy (mode : CopyMode)
  | coll (kind : CollKind) (scope : Scope) (id root n : Nat)
  | snap
  | tinv
  deriving DecidableEq, Repr

/-- Where a D command stands: waiting for its commit and Paddock entry, queued, started, all its data read and written on its
way, or stopped by a fault. -/
inductive DStage where
  | held | queued | started | moved
  deriving DecidableEq, Repr

/-- A command of the copy engine (R255, R257): the nest, fill slot, descriptors and formats it captured at issue, its operand
values; the run and the place in it that it reads and writes next, what it has read and not yet written, and how many bytes it
has written. `link` is the number of a collective (R277) or the cursor of a snapshot (R279); `cleared` is the pages whose dirty mark a snapshot has
cleared: the leaf's place, and where in the stream the page's record begins and ends; `word` is its slot word; `commit` is
the commits made before it issued (R280); `waited` for how many cycles in a row it has lost a bank (R161). -/
structure DCmd where
  id : Nat
  kind : DKind
  nest : List Level'
  fill : Word
  hs : Fin 16
  hd : Fin 16
  ds : Granule
  dd : Granule
  src : Word
  dst : Word
  len : Nat
  parity : Bool
  fs : Fmt
  fd : Fmt
  stage : DStage
  due : Nat
  rrun : Nat
  roff : Nat
  wrun : Nat
  woff : Nat
  buf : List (List Byte)
  written : Nat
  flags : BitVec 7
  link : Nat
  cleared : List (Nat × Nat × Nat)
  word : SlotWord
  commit : Nat
  waited : Nat
  sys : Bool
  silent : Bool
  deriving DecidableEq, Repr

/-- A gather or scatter stream (R255, R273): `pos` is the next stream position, `entry` the first position of the entry being
assembled or written, `line` the indices read and not yet used, `got` the elements of the first 16 of them that a line access has
served, by stream position (R274), `bytes` the entry's bytes so far or still to be written. -/
structure Stream where
  id : Nat
  list : Nat
  count : Nat
  pos : Nat
  entry : Nat
  line : List Nat
  got : List (Nat × List Byte)
  bytes : List Byte
  open' : Bool
  ih : Fin 16
  dh : Fin 16
  idesc : Granule
  ddesc : Granule
  esz : Nat
  elems : Nat
  queue : Fin 4
  fill : Word
  parity : Bool
  dropped : Nat
  taken : Nat
  written : Nat
  due : Nat
  waited : Nat
  commit : Nat
  sys : Bool
  deriving DecidableEq, Repr

/-- The copy engine (R255). `gh` and `sh` are the data handles that DGCFG named (R272); `capture` and `refill` are the refill
lists of guarded phase-paired handles, by handle number (R309). -/
structure Cpy where
  nest : Vector Level' 6
  fill : Word
  cfg : BitVec 14
  gh : Fin 16
  sh : Fin 16
  cmds : List DCmd
  gather : Option Stream
  scatter : Option Stream
  events : List Word
  lost : BitVec 32
  capture : List (Fin 16 × List DCmd × Bool)
  refill : List (Fin 16 × List DCmd)
  deriving DecidableEq, Repr

/-! ### Results in flight -/

/-- Where a result goes. `vv n` is a block result: register n and its companion n + 1 (R198). -/
inductive Dest where
  | none
  | x (n : Fin 32) | v (n : Fin 32) | vv (n : Fin 32) | p (n : Fin 48) | h (n : Fin 16) | k (n : Fin 8)
  | vshape | csr (n : BitVec 12) | pat (n : Fin 8) | map | level (n : Fin 6) | fillSlot | gcfg (hs hd : Fin 16)
  | tile (z : Fin 2)
  | mem
  /-- a store to the own bank that clears the lock bit of its address (R133) -/
  | unlock (a : Nat)
  /-- a KCHK's comparison, with `gmode`.guarded as it stood at its issue (R289) -/
  | check (word : SlotWord) (guarded : Bool)
  deriving DecidableEq, Repr

/-- How a load's bytes become a register value. -/
inductive LoadShape where
  /-- a scalar of n bytes, sign- or zero-extended (R117) -/
  | scalar (n : Nat) (signed : Bool)
  /-- the bytes in order, zero beyond (R164) -/
  | vector
  /-- a descriptor granule, checked as it lands (R156) -/
  | descriptor
  deriving DecidableEq, Repr

/-- What brings an awaited value: an event record (R128), a stage item (R130), an atomic's old value (R132), a lock (R133), a
trust operation's status (R380). -/
inductive Await where
  | evpop | item | atomic | lock | trust
  deriving DecidableEq, Repr

/-- What a result in flight holds. -/
inductive FVal where
  | x (w : Word)
  | v (b : VReg)
  | vv (b c : VReg)
  | p (b : PReg)
  | h (g : Granule)
  /-- local bytes still to be written, in service order -/
  | bytes (cells : List Host.Cell)
  | cmp (equal : Bool)
  | pat (b : BitVec 512)
  | lvl (l : Level')
  | unit
  /-- a read of the byte keys in order: the bytes already served at their banks, and those still to be read -/
  | load (cells : List (Nat × Option Byte)) (shape : LoadShape)
  /-- a value that another event brings -/
  | awaited (k : Await)
  deriving DecidableEq, Repr

/-- The remote read that brings a result's value: the path and handle of its bounds and counters, its virtual address, the
die-window index it reads, if any (R167, R169), and whether the descriptor that it captured is guarded (R159, R308). -/
structure ReadInfo where
  path : Path
  h : Fin 16
  va : Nat
  window : Option Nat
  guarded : Bool
  deriving DecidableEq, Repr

/-- A result in flight (R48 to R50, R144). `rem` is the number of further issue cycles of its level after which it lands; a
result with `late` has passed its landing cycle without a value; `variable'` marks a variable producer, `fresh` one that was
issued in the open cycle. `origin` is its issue cycle, `commit` the commits made before it issued. `dup` holds V1's copy of a duplicated result (R204), `shadow` the shadow ALU's copy (R293). `early` counts
the wall cycles in which a fence or a save waited for it as a local access (R173, assumption 20), `waited` those in a row in which
it got no bank (R161), `paid` how many of its lines have their token (R363). -/
structure Flight where
  id : Nat
  dest : Dest
  val : FVal
  vfl : BitVec 7
  mfl : BitVec 3
  rem : Nat
  late : Bool
  variable' : Bool
  fresh : Bool
  slot : Slot
  sys : Bool
  origin : Nat
  commit : Nat
  due : Nat
  acc : Option (Path × Fin 16)
  read : Option ReadInfo
  dup : Option (VReg × BitVec 7)
  shadow : Option Word
  early : Nat
  waited : Nat
  paid : Nat
  deriving DecidableEq, Repr

/-! ### Leaving the core -/

/-- The atomic operations (R132). -/
inductive AmoOp where
  | add | and | or | xor | min | max | minn | maxn | swap | cas
  deriving DecidableEq, Repr

/-- The trust operations (R378). -/
inductive TrustOp where
  | kgen | krot | seal | unseal | scrub | mclrchk
  deriving DecidableEq, Repr

/-- One counter that a REL.H entry releases (R175): the handle, the counter's address and memory key, and the scope. -/
structure RelItem where
  h : Fin 16
  addr : Word
  key : Nat
  scope : Scope
  deriving DecidableEq, Repr

/-- A held-back effect (R17, R124, R285). -/
inductive Effect where
  | atomic (addr : Word) (key : Nat) (op : AmoOp) (wide : Bool) (b c : Word) (flight : Option Nat)
  | relh (items : List RelItem) (paths : BitVec 5) (hmask : BitVec 16)
  | emit (launch queue slot : Nat) (addr : Word)
  | copyInc (cmd : Nat) (addr : Word) (key : Nat) (amount : Nat) (scope : Scope)
  | scatterInc (stream : Nat) (addr : Word) (key : Nat) (amount : Nat) (scope : Scope)
  | bar (scope : Scope) (id : Fin 512)
  | held (cmd : Nat) (addr : Word) (amount : Nat)
  | trust (op : TrustOp) (addr : Word) (base size aux : Word) (keys : List Nat) (flight : Option Nat)
  | release (launch queue slot : Nat) (addr : Word)
  deriving DecidableEq, Repr

/-- What an outbound entry is: a store of up to 64 bytes within one 64-byte line, or an effect of 16 bytes (R300). A store to
another core's or the own die window carries its virtual address as key; an `unlock` store is a STUL (R133). -/
inductive OutBody where
  | store (va : Nat) (key : Nat) (bytes : List Byte)
  | unlock (va : Nat) (bytes : List Byte)
  /-- a whole crypto block: a clone with the bytes and record read from its source, or a zero initialisation (R354) -/
  | block (va key : Nat) (bytes : List Byte) (source : Option CtrRec)
  | effect (e : Effect)
  deriving DecidableEq, Repr

/-- An outbound entry (R300): the path and handle it is counted on, the commits made before it issued, the slot that issued it,
and the access to which it belongs: `acc` is one number for all entries of a store, or a command's id. A `quiet` one is of the
background write-back, which no counter counts (R336). -/
structure OutEntry where
  id : Nat
  body : OutBody
  path : Path
  h : Fin 16
  commit : Nat
  slot : Slot
  sys : Bool
  acc : Nat
  quiet : Bool
  deriving DecidableEq, Repr

/-- An entry in the Paddock with the wall cycle in which it entered (R18). -/
structure PadEntry where
  entry : OutEntry
  entered : Nat
  deriving DecidableEq, Repr

/-- A released entry that is not yet performed: the wall cycles at which it reaches the die coherence point and its home, and
whether it has been performed at die scope (R95, R101). -/
structure Leaving where
  entry : OutEntry
  dueDie : Nat
  dueHome : Nat
  atDie : Bool
  deriving DecidableEq, Repr

/-- The four counts of one outstanding-access counter (R170). -/
structure Counts where
  rd : BitVec 16
  wd : BitVec 16
  wk : BitVec 16
  wo : BitVec 16
  deriving DecidableEq, Repr

/-- A refusal on its way back (R169): the access, when it arrives, the fault, the counts that the write leaves then, and the
result that fills with 0. -/
structure Refused where
  id : Nat
  due : Nat
  fault : FaultRec
  cnt : Option (Path × Fin 16)
  flight : Option Nat
  deriving DecidableEq, Repr

/-- The core's way out: held-back list, pending list, outbound port, Paddock, released entries and the 80 counters, counter
(p, h) at 16 * p + h. `portUsed` is what the port carried in this wall cycle; `tokens` is the bandwidth bucket (R363),
`waiting` whether a request waits for a token, `spent` whether the interval's tokens are used up, `paid` how many lines of
the crypto block at the port have their token, `issuePaid` how many lines of the operation that waits to issue; `grants` holds the slots
granted to EMIT (launch, queue, slot), `handed` the item slots given to a NEXTITEM with the commits made before it, `emitWait`
the queue for which an EMIT asks; `failed` the copies and streams that ended by a fault while their increment was still held
back (R269); `seen` the held stores, by entry and 8-byte unit, whose value a read on their path has returned (R91, R92). -/
structure Out where
  heldBack : List OutEntry
  pending : List OutEntry
  port : List OutEntry
  portUsed : Nat
  paddock : List PadEntry
  leaving : List Leaving
  cnt : Vector Counts 80
  tokens : Nat
  waiting : Bool
  spent : Bool
  paid : Nat
  issuePaid : Nat
  refusals : List Refused
  grants : List (Nat × Nat × Nat)
  handed : List (Nat × ItemSlot)
  emitWait : Option (Nat × Nat)
  failed : List Nat
  seen : List (Nat × Nat)
  deriving DecidableEq, Repr

/-! ### Pipe: time and results -/

/-- Wall time, program and handler issue cycles, the package reference timer with its fraction, the results in flight in
issue order, and the wall cycles from which the vector and function engines and the divider accept their next operation (R48, R51,
R144, R4), and from which the copy engine's two directions are free (R257). `tried` whether the next unit has been held up,
`done` tells that the core has issued, stalled or idled in this wall cycle, `banks` which banks have served a granule in it (R161),
`stall` for how many wall cycles issue is frozen (R307); `found`, while the events of one wall cycle are being worked out, is the
deferred faults that it has brought to light (R142); `upset` an upset in the shadow ALU that the next unit meets (R293). -/
structure Pipe where
  wall : Nat
  issue : Nat
  hissue : Nat
  ref : Nat
  refFrac : Nat
  flight : List Flight
  busyV0 : Nat
  busyV1 : Nat
  busyF : Nat
  busyDiv : Nat
  cpyRead : Nat
  cpyWrite : Nat
  stall : Nat
  done : Bool
  tried : Bool
  banks : List Nat
  found : Option (List FaultRec)
  upset : Bool
  deriving DecidableEq, Repr

/-! ### Recovery -/

/-- One 32-byte piece of state that the undo log saves (R295). -/
inductive Piece where
  | granule (n : Nat) | x (n : Nat) | v (n part : Nat) | p (n part : Nat) | q (n part : Nat) | k (n : Nat)
  | h (n : Nat) | loop (n : Nat) | csr (n : Nat) | pat (n half : Nat) | level (n : Nat) | misc (n : Nat)
  deriving DecidableEq, Repr

/-- A checkpoint (R294): the core's state after its commit bundle. `spad` is the own scratchpad, `foreign` the bytes that another party
wrote there since, in order (R297), `old` the earlier values that reads could return, `seen` what of the held stores reads had returned, `touched` the pieces with an
undo entry made since, `shadows` which of z0, z1, w-A and w-B have a shadow. -/
structure Ckpt where
  commit : Nat
  wall : Nat
  issue : Nat
  seq : Seq
  regs : Regs
  mat : Mat
  cpy : Cpy
  flight : List Flight
  spad : Memory
  foreign : List Host.Cell
  old : List OldUnit
  seen : List (Nat × Nat)
  grants : List (Nat × Nat × Nat)
  heldBack : List OutEntry
  touched : List Piece
  shadows : Vector Bool 4
  deriving DecidableEq, Repr

/-- The rerun rule's two runs (R304). -/
inductive RunKind where
  | dry | confirm
  deriving DecidableEq, Repr

/-- A detected mismatch: its slot, the issue cycle of the checked operation counted from C, and the signature up to it. -/
structure Mismatch where
  slot : Slot
  origin : Nat
  sig : Word
  word : SlotWord
  deriving DecidableEq, Repr

/-- A rerun in progress (R304, R305): its run, the issue cycle and commit it started from, what the dry run recorded, the bytes
the dry run dropped, and the entries that the confirm run holds back are those of commits above `base`. -/
structure Rerun where
  kind : RunKind
  base : Nat
  startIssue : Nat
  dropped : Nat
  dryN : Nat
  dryAtCommit : Bool
  drySig : Word
  dryMis : Option Mismatch
  ended : Bool
  endedAtCommit : Bool
  mis : Option Mismatch
  deriving DecidableEq, Repr

/-- A record of Yard's error log (R310). -/
structure ErrRec where
  kind : Byte
  place : Byte
  vf : Nat
  commits : Nat
  entries : Nat
  core : Word
  cycle : Word
  phase : BitVec 48
  deriving DecidableEq, Repr

/-- What a saved context holds beyond the bytes that the manual lays out (R146): the held-back list with the accesses its
effects belong to, the committed effects that wait for the saved scatter, the in-flight results, the held commands, the streams' own counts, and faults beyond the 16 held ones; by
the save's area. -/
structure Aside where
  area : Word
  held : List OutEntry
  pending : List OutEntry
  flights : List Flight
  cmds : List DCmd
  gather : Option Stream
  scatter : Option Stream
  faults : List FaultRec
  deriving DecidableEq, Repr

/-- Recovery state: the live checkpoints, newest first; how many commits the context has made; the arm of the forced commit for
a full undo log (R295), whether it is due and whether issue waits for it; the rerun; the address of the last cancel, for its recurrence (R308); Yard's error log; and the context save's tracking (R146): the last area with the granules
written or loaded there, the scratchpad granules written since the context started, the save whose writes are awaited; `settling` while
a rollback waits for earlier engine work before fetch resumes (R301, step 4); `retiring` while a retirement's entries drain: what its
record will say of place, commits, entries and phase (R306, R310). -/
structure Rec where
  ckpts : List Ckpt
  commits : Nat
  undoArmed : Bool
  forceDue : Bool
  forceWait : Bool
  rerun : Option Rerun
  cancelled : Option Nat
  errlog : List ErrRec
  retiredCount : Nat
  area : Option Word
  image : List (Nat × Granule)
  spadWritten : List Nat
  saveAcc : Option Nat
  settling : Bool
  asides : List Aside
  retiring : Option (Nat × Nat × Nat × BitVec 48)
  deriving DecidableEq, Repr

/-! ### Die: lock bits -/

/-- A scratchpad lock bit that is set (R133): its bank's core, its bank and bit, and its owner's launch and core. -/
structure LockBit where
  core : Nat
  bank : Nat
  bit : Nat
  ownerCtx : Nat
  ownerCore : Nat
  commit : Nat
  deriving DecidableEq, Repr

/-- An LDL that waits at a bank, or is to be retried when the bank's queue was full (R177). -/
structure LockWait where
  core : Nat
  bank : Nat
  bit : Nat
  fromCtx : Nat
  fromCore : Nat
  flight : Option Nat
  addr : Nat
  queued : Bool
  retryAt : Nat
  deriving DecidableEq, Repr

/-! ### Memory system -/

/-- A page that migrates (R351): the VF, page address and leaf words as frozen, the target, and how far it is: its copy made, its leaf
switched. -/
structure Migration where
  vf : Nat
  va : Nat
  leafAddr : Nat
  leaf0 : Word
  leaf1 : Word
  tier : Nat
  dpa : Nat
  size : Nat
  copied : Bool
  switched : Bool
  deriving DecidableEq, Repr

/-- A write of the hub or of another agent that waits while its page migrates (R111, R351): the function, the address, the bytes or
the amount that a counter is raised by, and the writer's `near` scope (R96), none for the hub. -/
structure Stalled where
  vf : Nat
  va : Nat
  bytes : List Byte
  amount : Option Nat
  near : Option Scope
  deriving DecidableEq, Repr

/-- A pseudo-channel's bank with owed refreshes (R355). -/
structure Bank where
  stack : Nat
  chan : Nat
  pc : Nat
  bank : Nat
  owed : Nat
  refreshes : Nat
  mgmt : Nat
  deriving DecidableEq, Repr

/-- A data lane's history (R358, R359): consecutive retrains below threshold, and whether it moved to the spare. -/
structure Lane where
  stack : Nat
  chan : Nat
  pc : Nat
  lane : Nat
  below : Nat
  repaired : Bool
  deriving DecidableEq, Repr

/-- The memory system outside the cells: earlier values, counter records, bad lines, cached translations, migrations with the writes of
others that wait for them, refresh
and lane state, disabled pseudo-channels (stack, channel, pseudo-channel) and stacks, and the bandwidth registers (R360) with
the last boundary at which the buckets were filled (R361). -/
structure MemSys where
  old : List OldUnit
  recs : List CtrRec
  bad : List (Nat × BadKind)
  tlb : List Xlat
  migrations : List Migration
  stalled : List Stalled
  banks : List Bank
  lanes : List Lane
  thresholds : List (Nat × Word)
  retraining : List (Nat × Nat × Nat)
  deadPc : List (Nat × Nat × Nat)
  deadStacks : List Nat
  budget : Nat
  bwDone : Nat
  shares : List (Nat × Nat × Nat)
  locks : List LockBit
  lockWaits : List LockWait
  deriving DecidableEq, Repr

/-! ### Hub -/

/-- TDISP states (R391). -/
inductive Tdisp where
  | unlocked | locked | run | error
  deriving DecidableEq, Repr

/-- A 32-byte record of the event ring (R320). -/
structure EvRec where
  code : Byte
  queue : Nat
  subject : Word
  value : Word
  deriving DecidableEq, Repr

/-- A virtual function: its binding, key slot, TDISP state, translation registers (R350) with the accesses for which an invalidation waits, event ring (R399) with the records
written, the error block (R311), its measurement logs 7 to 9 (R390), the peer digests it allowed (R393), how often MSI-X vector 0 was
signalled (R399), whether Yard has it assigned and whether a lock's failed draw bars it from a slot (R367), and the package cores whose die windows its contexts find on other cores
(R335). -/
structure Vf where
  vf : Nat
  part : Nat
  slot : Option Nat
  tdisp : Tdisp
  root : Word
  invva : Word
  invlen : BitVec 32
  invBusy : Bool
  invIds : List Nat
  ringBase : Word
  ringCtl : Word
  ringHead : BitVec 32
  ringTail : BitVec 32
  ringLost : BitVec 64
  msix : Nat
  err : Vector (BitVec 64) 16
  meas7 : List Byte
  meas8 : List Byte
  meas9 : List Byte
  allowed : List (List Byte)
  assigned : Bool
  barred : Bool
  remap : List (Nat × Nat)
  deriving DecidableEq, Repr

/-- Queue states (R316). -/
inductive QState where
  | off | run | gap | spent
  deriving DecidableEq, Repr

/-- A work queue (R316, R319); `wait` holds counter adds that wait for the launches submitted before them (R317). -/
structure WQueue where
  q : Nat
  vf : Nat
  base : Word
  size : Nat
  doorbell : BitVec 32
  head : BitVec 32
  state : QState
  last : Option Nat
  replay : BitVec 64
  authfail : BitVec 64
  gapdrop : BitVec 32
  wait : List (Word × Word × Nat)
  deriving DecidableEq, Repr

/-- A stage queue of a launch (R325): its ring's base, its extents, the four counts, the published and released slots beyond
the tail and head, the cores waiting for an item, those that asked for a slot with the wall cycle of the request, and where the
round robin starts. -/
structure SQueue where
  base : Word
  entries : Nat
  bytes : Nat
  granted : Nat
  tail : Nat
  taken : Nat
  head : Nat
  published : List Nat
  released : List Nat
  takers : List Nat
  emitters : List (Nat × Nat)
  rr : Nat
  deriving DecidableEq, Repr

/-- A stage of a launch (R323): its kernel and limits, its queues, die mask and crew, and whether it is finishing or ended. -/
structure Stage where
  kernel : Nat
  min : Nat
  max : Nat
  init : Nat
  inq : Option Nat
  outq : Option Nat
  dies : BitVec 8
  crew : List Nat
  finishing : Bool
  ended : Bool
  deriving DecidableEq, Repr

/-- Where a launch stands (R322, R324, R326, R337): after a kill its memory is scrubbed before its cores return. -/
inductive LState where
  | submitted | running | completed | killed | scrubbing | gone
  deriving DecidableEq, Repr

/-- A section that the loader places (R321, R324): its kind (R56), its bytes' address in the image and their count. -/
structure Section where
  kind : Nat
  offset : Nat
  size : Nat
  gen : Nat
  link : Nat
  deriving DecidableEq, Repr

/-- A launch: its record's fields (R321), the image's sections, stages and queues, the rebalancing state (R328), the cores that
have run it (R110), its stages' cores on other packages of the pod (stage, core), and of a kill the cause, the core and that core's trap causes (R141, R338). -/
structure Launch where
  id : Nat
  queue : Nat
  vf : Nat
  record : Word
  priority : Nat
  guarded : Bool
  image : Word
  imageSize : Word
  load : Word
  loadSize : Word
  area : Word
  recovery : Word
  completion : Word
  waits : List (Word × Word)
  sections : List Section
  stages : List Stage
  queues : List SQueue
  state : LState
  streak : Nat
  pair : Option (Nat × Nat)
  move : Option (Nat × Nat)
  ran : List Nat
  remote : List (Nat × Nat)
  killInfo : Option (Nat × Nat × Nat × Nat)
  deriving DecidableEq, Repr

/-- One entry of a quantum table (R333). -/
structure Quantum where
  vf : Nat
  slice : Nat
  weight : Nat
  priority : Nat
  gang : Nat
  charge : Nat
  deriving DecidableEq, Repr

/-- A partition (R332): its dies, free cores, quantum table, the running slice with its end on the
reference timer, for each priority the entry whose turn it is and the slices that it has had in a row (R334), the pointer over
work queues (R330), and the switch in progress: the entry to come and when the pre-emption was requested (R335). -/
structure Part where
  first : Nat
  size : Nat
  pool : List Nat
  table : List Quantum
  running : Option Nat
  turns : Vector (Nat × Nat) 4
  sliceEnd : Nat
  wqPtr : Nat
  switching : Option (Option Nat × Nat)
  deriving DecidableEq, Repr

/-- A barrier of a launch's stage in one scope instance (R129): the generation, who has arrived in it and in the next. -/
structure Barrier where
  launch : Nat
  stage : Nat
  scope : Scope
  inst : Nat
  id : Fin 512
  gen : BitVec 32
  arrived : List Nat
  next : List Nat
  deriving DecidableEq, Repr

/-- A collective in progress (R277): its number, its scope, its parameters as the first arrival gave them, who has arrived and what each
contributed, and whether it has failed. -/
structure Coll where
  no : Nat
  launch : Nat
  stage : Nat
  scope : Scope
  id : Nat
  kind : CollKind
  n : Nat
  root : Nat
  contributed : List (Nat × List Byte)
  failed : Bool
  deriving DecidableEq, Repr

/-- A gang slice that was announced (R339). -/
structure Gang where
  gang : Nat
  start : Nat
  slice : Nat
  active : Bool
  deriving DecidableEq, Repr

/-- A saved context (R306, R335): the launch, the core it was saved from, its slot's address, how it was saved; and what the hub
keeps of it beside the area: the item slot that it holds, whether its first NEXTITEM is still to come, its granted slots. -/
structure Saved where
  launch : Nat
  core : Nat
  area : Word
  forced : Bool
  recovery : Bool
  item : Option ItemSlot
  firstItem : Bool
  grants : List (Nat × Nat × Nat)
  deriving DecidableEq, Repr

/-- The hub's scheduler state. `rebalDone` is the last interval boundary that was evaluated (R327). `disabled` lists the package core indices out of service, `posts` the event records that wait
for the host link (R411), `stopping` the cores on which steps 1 to 4 of a kill are not done yet, with the launch and the wall cycle in which they
will be (R109, R340). -/
structure Hub where
  vfs : List Vf
  queues : List WQueue
  launches : List Launch
  nextLaunch : Nat
  parts : List Part
  barriers : List Barrier
  colls : List Coll
  gangs : List Gang
  saved : List Saved
  disabled : List Nat
  disabledDies : List Nat
  posts : List (Nat × EvRec)
  rebalDone : Nat
  pfErr : Vector (BitVec 64) 32
  stopping : List (Nat × Nat × Nat)
  deriving DecidableEq, Repr

/-! ### Trust engine -/

/-- Key slot states (R366). -/
inductive SlotState where
  | empty | live | revoked
  deriving DecidableEq, Repr

/-- A key slot (R366); slots not listed are EMPTY. -/
structure KeySlot where
  n : Nat
  state : SlotState
  secret0 : List Byte
  secret1 : List Byte
  ce : Bool
  nold : Nat
  tag : BitVec 16
  deriving DecidableEq, Repr

/-- A seal (R377). -/
structure Seal where
  tag : BitVec 16
  base : Nat
  size : Nat
  aux : Nat
  root : List Byte
  deriving DecidableEq, Repr

/-- Where the handshake with a peer package stands (R392). -/
inductive Shake where
  | down | hs1 | hs2 | done | failed
  deriving DecidableEq, Repr

/-- A key of the scale-out ports (R393): the tenant's tag, the direction (0 from the lower package), its bytes and the messages sent
under it. -/
structure FabricKey where
  tag : Nat
  dir : Nat
  key : List Byte
  count : Nat
  deriving DecidableEq, Repr

/-- A peer package (R392, R393): the port it is reached by, the handshake, its messages and own key material so far; the pair
secret with the peer's reported digest (both empty while none is agreed), the messages sent under it, and the tenants' keys derived from
it. -/
structure Peer where
  peer : Nat
  port : Nat
  shake : Shake
  transcript : List Byte
  own : List Byte
  secret : List Byte
  digest : List Byte
  sent : Nat
  retryAt : Nat
  keys : List FabricKey
  deriving DecidableEq, Repr

/-- An SPDM session of a function (R389): 0 is the physical function, n + 1 VF n. -/
structure Session where
  fn : Nat
  version : Bool
  caps : Bool
  algs : Bool
  exchanged : Bool
  active : Bool
  key : List Byte
  updates : Nat
  deriving DecidableEq, Repr

/-- What the device answers to the host, Yard or a peer (R365, R389, R391, R392): the request's name, a status, the bytes. -/
structure Reply where
  dest : Nat
  kind : String
  status : Nat
  data : List Byte
  deriving DecidableEq, Repr

/-- The two health tests of the noise source (R368): the last sample and how often it came in a row, the first sample of the
window with its hits and the place in the window, and whether a test has failed since the last seed. -/
structure Health where
  last : Option Byte
  runLen : Nat
  first : Byte
  hits : Nat
  place : Nat
  tripped : Bool
  deriving DecidableEq, Repr

/-- A trust operation that has been performed and not completed (R380): its entry, the launch, its result and status, the bytes
for the request block, and when it completes. -/
structure TrustRes where
  id : Nat
  launch : Nat
  flight : Option Nat
  status : Nat
  block : Nat
  writes : List (Nat × List Byte)
  keys : List Nat
  fault : Option FaultRec
  due : Nat
  deriving DecidableEq, Repr

/-- The security controller (R364 to R369, R377, R389 to R396). `sinceSeed` counts the generator's requests since the last
reseed, `samples` the noise samples consumed, `done` the trust operations performed and not completed. -/
structure Trust where
  slots : List KeySlot
  seals : List Seal
  rng : List Byte
  failures : Nat
  fault : Bool
  retesting : Bool
  sinceSeed : Nat
  samples : Nat
  health : Health
  done : List TrustRes
  stackKeys : List (List Byte)
  meas : Vector (List Byte) 7
  debug : Nat
  nonce : Option (List Byte)
  sessions : List Session
  peers : List Peer
  hostmeta : Option (Nat × Nat)
  replies : List Reply
  flash : List (Bool × Nat × List Byte)
  deriving DecidableEq, Repr

/-! ### Links, bring-up, power -/

/-- A key of a die link (R394): its direction, the tenant's slot (none for other flits), generation, flit counter and bytes. -/
structure LinkKey where
  dir : Nat
  slot : Option Nat
  gen : Nat
  count : Nat
  key : List Byte
  deriving DecidableEq, Repr

/-- A die link (R394, R402): its two dies (8 is the hub), its modules in service with the spare lanes used in each, its keys, the
consecutive tag failures of each direction and whether it is in service. -/
structure DieLink where
  a : Nat
  b : Nat
  modules : Nat
  lanes : List (Nat × Nat)
  keys : List LinkKey
  fails0 : Nat
  fails1 : Nat
  up : Bool
  deriving DecidableEq, Repr

/-- A scale-out port (R403). -/
structure Port where
  port : Nat
  lanes : Nat
  peer : Option Nat
  deriving DecidableEq, Repr

/-- Bring-up and link state (R397 to R411): the start record's count and last three reasons, newest first; the stage in
progress (6 while READY is awaited, 7 at Ready); Shed mode; whether the package is held in reset and since when; whether READY was accepted;
`cut`: the dies that the next start disables because a lower one cannot reach them (R409). -/
structure Links where
  count : Nat
  reasons : List Byte
  stage : Nat
  shed : Bool
  holding : Option Nat
  resetAt : Nat
  readyDone : Bool
  clocks : Bool
  pcie : Bool
  pcieWidth : Nat
  cxl : Bool
  cxlBytes : Nat
  dieLinks : List DieLink
  cut : List Nat
  ports : List Port
  clockMHz : Nat
  powerLimit : Nat
  podTime : Nat
  deriving DecidableEq, Repr

/-- The position of the modelled core (R10). -/
structure CoreId where
  pod : BitVec 16
  package : BitVec 10
  die : Fin 8
  quad : Fin 24
  core : Fin 4
  deriving DecidableEq, Repr

/-! ### The environment and the open issue cycle (the model's own) -/

/-- What met a correctable error: a bundle's read of core state at issue, the read of core state of an engine's operation by its number
(R307), or an access to an HBM line of a function (R357). -/
inductive Corrected where
  | issue | engine (id : Nat) | line (vf : Nat)
  deriving DecidableEq, Repr

/-- What the world outside the modelled core does (assumption 1): an event row, another core's contribution to a collective or wait for an item or a slot, another agent's write to memory (of a
function's virtual address, or of a bank or host memory by key; `writer` is the package core index of a core of this package) and its
coming home (R95), a line or granule that goes bad, another
core's lock request and unlocking store (R133), another core's walk that fills the die TLB (R348), a bank taken by a request that has waited (R161), a corrected error (R307, R357), a failure of the counter tree on a function's data
(R391), another core's END,
its core freed, moved to another stage, its context saved or its retirement; the cores of a stage on other packages of the pod
(R129, R277: core n of package p is 768 * (p + 1) + n); a queue that Yard assigns to a function or takes from it (R314), a CXL
device found at bring-up (R401); a system kernel that Yard installs for the core's context (R114); or an upset that changes a result in flight, a tile entry or a weight row
(R19, R203, R243). -/
inductive Stimulus where
  | event (i : Instr)
  | collective (launch stage : Nat) (scope : Scope) (id : Nat) (kind : CollKind) (n root core : Nat) (data : List Byte)
  | waitItem (launch queue core : Nat)
  | waitEmit (launch queue core : Nat)
  | write (vf : Option Nat) (a : Nat) (bytes : List Byte) (writer : Option Nat)
  | reachedHome (key n : Nat)
  | badLine (key : Nat) (kind : BadKind)
  | bankTaken (bank : Nat)
  | corrected (place : Corrected)
  | treeFailure (vf : Nat)
  | otherLdl (core bank bit ctx fromCore : Nat)
  | otherStul (core bank bit ctx fromCore : Nat)
  | otherWalk (vf va : Nat)
  | otherEnd (core : Nat)
  | otherFreed (core : Nat)
  | otherMoved (core : Nat)
  | otherSaved (core : Nat) (forced : Bool)
  | otherRetired (core : Nat)
  | remoteCrew (launch stage : Nat) (cores : List Nat)
  | assignQueue (queue : Nat) (vf : Option Nat)
  | cxlDevice (bytes : Nat)
  | systemKernel (granule : Nat) (code : List Granule)
  | upsetResult (id : Nat) (mask : VReg)
  | upsetDup (id : Nat) (mask : VReg)
  | upsetShadow (id : Nat) (mask : Word)
  | upsetIssue
  | upsetTile (z : Fin 2) (entry : Nat) (mask : BitVec 32)
  | upsetWeights (b : Fin 2) (row : Fin 256) (mask : BitVec 1280)
  deriving DecidableEq, Repr

/-- A trap to be taken (R143), at issue or deferred (R142). -/
structure Trap where
  code : BitVec 8
  tval : Word
  deferred : Bool
  deriving DecidableEq, Repr

/-- How the open bundle ends its phase (R125). -/
inductive CommitKind where
  | commit | swap
  deriving DecidableEq, Repr

/-- The issue cycle that is open while a bundle's slots take effect (the model's own bookkeeping): the fetch unit's address,
the next fetch address, whether the unit is yield-marked, what the slots decided so far: `force` that a forced commit comes first (R124). `v0` is the result that slot
V0 posted, `popped` the entry it took; `checked` tells that the unit is a Ubrov record flagged as checked (R58), `shadow` that the shadow ALU's
branch condition or address differs from slot S's (R293); `cnt` is the counters
as they stood before the bundle. -/
structure Cycle where
  pc : Nat
  next : Nat
  mark : Bool
  stalled : Bool
  force : Bool
  trap : Option (Slot × Trap)
  target : Option Nat
  afterTrap : Option Trap
  commit : Option CommitKind
  last : List OutEntry
  popped : Option QEntry
  v0 : Option Nat
  folds : List Word
  ksig : Option Word
  ended : Bool
  moving : Option Nat
  tret : Bool
  wait : Option BarWait
  checked : Bool
  shadow : Bool
  haste : BitVec 16
  cnt : Vector Counts 80
  deriving DecidableEq, Repr

/-- The whole machine. `ubrov` is the records of the Ubrov set that the kernel runs, if it runs one (R58 to R61). -/
structure State where
  id : CoreId
  seq : Seq
  regs : Regs
  mat : Mat
  cpy : Cpy
  pipe : Pipe
  out : Out
  rcv : Rec
  code : Vector Granule 2048
  dict : Vector Granule 512
  ubrov : Option (List Word)
  mem : Memory
  sys : MemSys
  hub : Hub
  trust : Trust
  links : Links
  agenda : List (Nat × Stimulus)
  draws : Nat
  nextId : Nat
  cyc : Option Cycle
  deriving DecidableEq, Repr


/-- What a slot of the bundle does at issue: its effect on the state, a stall of the whole bundle, or a trap (R51, R142). -/
inductive Issued where
  | ok (s : State)
  | stall
  /-- a stall in which the core asks the hub for something (R131) -/
  | wait (s : State)
  /-- the slot needs the room that a forced commit makes (R124, R268) -/
  | force
  | trap (t : Trap)

/-! ### The state after reset

Each value is the spec's where it gives one; the rest are named in assumption 8 and in INVENTORY.md. -/

/-- The sequencer after reset: no context (R404), `vshape` at 4 rows of 512 bytes (R137), every other CSR of R136 to R140 at
its reset value, the AX1 contract in `latcon` (R47) and `yieldbound` at 200,000 (R140). -/
def Seq.afterReset : Seq where
  pc := 0
  reps := 0
  token := none
  run := .idle
  level := .program
  x := Vector.replicate 32 0
  sx := Vector.replicate 32 0
  loops := []
  vshape := 0x1FFC
  vflags := 0
  mflags := 0
  phase := 0
  parity := false
  cycle := 0
  instret := 0
  latcon := Config.latconReset
  handlerLatcon := Config.latconReset
  yieldbound := 200000
  tcause := 0
  tval := 0
  tpc := 0
  tvec := 0
  tenant := 0
  gmode := false
  held := []
  heldOverrun := false
  preempt := none
  barWait := none
  handlerWait := none
  item := none
  firstItem := true
  ctx := none

/-- The fixed descriptor of h15 (R150): kind 1, permissions read, write and atomic, default scope pkg. -/
def h15Descriptor : Granule := BitVec.ofNat 256 (0x3701 * 2 ^ 128)

/-- The identity pattern (R206): byte j holds j. -/
def identityPattern : BitVec 512 := BitVec.ofNat 512 ((List.range 64).foldr (fun j r => j + 256 * r) 0)

/-- The register files after reset, as at the start of a context: handles invalid but for h15 (R150), queues empty, check
registers 0 (R284), identity patterns (R206). -/
def Regs.afterReset : Regs where
  v := Vector.replicate 32 0
  p := Vector.replicate 48 0
  h := (Vector.replicate 16 0).set 15 h15Descriptor
  k := Vector.replicate 8 0
  q := Vector.replicate 4 []
  qix := Vector.replicate 4 0
  pat := Vector.replicate 8 identityPattern

/-- A clear tile (R225). -/
def Tile.clear : Tile := ⟨none, [], false⟩

/-- A cleared weight buffer (R223, R248). -/
def WBuf.clear : WBuf :=
  ⟨Vector.replicate 256 0, Vector.replicate 8 0, .one, .page, false, false, Vector.replicate 256 0⟩

/-- The matrix engine after reset (R223). -/
def Mat.afterReset : Mat where
  tiles := Vector.replicate 2 Tile.clear
  bufs := Vector.replicate 2 WBuf.clear
  map := false
  pendSat := 0
  pendOvf := 0
  comSat := 0
  comOvf := 0
  mma := none
  load := none
  ret := none

/-- The copy engine after reset (R255): every level with count 1 and strides 0, fill slot 0. -/
def Cpy.afterReset : Cpy where
  nest := Vector.replicate 6 ⟨1, 0, 0⟩
  fill := 0
  cfg := 0
  gh := 0
  sh := 0
  cmds := []
  gather := none
  scatter := none
  events := []
  lost := 0
  capture := []
  refill := []

/-- Time and results at reset. -/
def Pipe.afterReset : Pipe := ⟨0, 0, 0, 0, 0, [], 0, 0, 0, 0, 0, 0, 0, false, false, [], none, false⟩

/-- The way out at reset: every counter 0, nothing held. -/
def Out.afterReset : Out := ⟨[], [], [], 0, [], [], Vector.replicate 80 ⟨0, 0, 0, 0⟩, 0, false, false, 0, 0, [], [], [], none, [], []⟩

/-- No checkpoint and an empty error log. -/
def Rec.afterReset : Rec := ⟨[], 0, false, false, false, none, none, [], 0, none, [], [], none, false, [], none⟩

/-- The memory system at reset: no page mapped, every block in its zero state (R370), the budget of R360. -/
def MemSys.afterReset : MemSys where
  old := []
  recs := []
  bad := []
  tlb := []
  migrations := []
  stalled := []
  banks := []
  lanes := []
  thresholds := []
  retraining := []
  deadPc := []
  deadStacks := []
  budget := 524288
  bwDone := 0
  shares := []
  locks := []
  lockWaits := []

/-- The hub at reset: no virtual function is assigned, no queue enabled, no launch submitted; one partition of all eight dies
(assumption 8). -/
def Hub.afterReset : Hub where
  vfs := []
  queues := []
  launches := []
  nextLaunch := 0
  parts := [⟨0, 8, [], [], none, Vector.replicate 4 (0, 0), 0, 0, none⟩]
  barriers := []
  colls := []
  gangs := []
  saved := []
  disabled := []
  disabledDies := []
  posts := []
  rebalDone := 0
  pfErr := Vector.replicate 32 0
  stopping := []

/-- The security controller at reset: every key slot EMPTY (R366), debug level 0 (R395), no nonce. -/
def Trust.afterReset : Trust where
  slots := []
  seals := []
  rng := []
  failures := 0
  fault := false
  retesting := false
  sinceSeed := 0
  samples := 0
  health := ⟨none, 0, 0, 0, 0, false⟩
  done := []
  stackKeys := []
  meas := Vector.replicate 7 []
  debug := 0
  nonce := none
  sessions := []
  peers := []
  hostmeta := none
  replies := []
  flash := []

/-- Links and bring-up at reset: boot stage 0 (R404), a start record of a first start. -/
def Links.afterReset : Links where
  count := 0
  reasons := [0, 0, 0]
  stage := 0
  shed := false
  holding := none
  resetAt := 0
  readyDone := false
  clocks := true
  pcie := false
  pcieWidth := 0
  cxl := false
  cxlBytes := 0
  dieLinks := []
  cut := []
  ports := []
  clockMHz := 1500
  powerLimit := 0
  podTime := 0

/-- The machine right after reset: the package in boot stage 0 (R404), its core idle, nothing in memory. The modelled core is
core 0 of quad 0 of die 0; no environment input is waiting (assumptions 1 and 8). -/
def State.reset : State where
  id := ⟨0, 0, 0, 0, 0⟩
  seq := Seq.afterReset
  regs := Regs.afterReset
  mat := Mat.afterReset
  cpy := Cpy.afterReset
  pipe := Pipe.afterReset
  out := Out.afterReset
  rcv := Rec.afterReset
  code := Vector.replicate 2048 0
  dict := Vector.replicate 512 0x13
  ubrov := none
  mem := []
  sys := MemSys.afterReset
  hub := Hub.afterReset
  trust := Trust.afterReset
  links := Links.afterReset
  agenda := []
  draws := 0
  nextId := 0
  cyc := none

end Sys2Proof.Machine
end

