-- ==== Sys2Proof/Machine/Ops.lean ====
section
/-! DEFINITION. The named operations over memory, registers and results in flight, and taking and leaving a trap. Every meaning
reaches the state through these. -/

namespace Sys2Proof.Machine

open Sys2Proof

/-! ### Bytes and integers -/

/-- The number that bytes make, the first least significant (R3). -/
def leNat : List Byte → Nat
  | [] => 0
  | b :: r => b.toNat + 256 * leNat r

/-- The n low bytes of a number, the least significant first (R3). -/
def leBytes : Nat → Nat → List Byte
  | 0, _ => []
  | n + 1, v => BitVec.ofNat 8 v :: leBytes n (v / 256)

/-- The n-bit field v read as a two's complement integer (R5, SignExt). -/
def signExt (v n : Nat) : Int := if v % 2 ^ n < 2 ^ (n - 1) then (v % 2 ^ n : Nat) else (v % 2 ^ n : Nat) - (2 ^ n : Nat)

/-- An integer reduced to n bits (R5, wrap). -/
def wrapNat (n : Nat) (i : Int) : Nat := (i % (2 ^ n : Nat)).toNat

/-- An integer as a 64-bit word (R5, wrap64). -/
def wordOf (i : Int) : Word := BitVec.ofNat 64 (wrapNat 64 i)

/-- A word from its value modulo 2^64. -/
def word (n : Nat) : Word := BitVec.ofNat 64 n

/-- A 12-bit immediate, sign-extended. -/
def imm12 (i : BitVec 12) : Int := signExt i.toNat 12

/-- An exact integer as an address (R6, R86): one below 0 lies outside every window, as does what stands for it here. -/
def place (i : Int) : Nat := if i < 0 then wrapNat 64 i else i.toNat

/-- An address: the exact sum of a register and an offset (R6, R133, R164, R168). -/
def addr (base : Word) (off : Int) : Nat := place (base.toNat + off)

/-! ### Memory cells -/

/-- The byte at a key; an unlisted byte reads as 0 (assumption 9). -/
def memGet : Memory → Nat → Byte
  | [], _ => 0
  | (k, b) :: r, a => if a = k then b else if a < k then 0 else memGet r a

/-- Memory with one byte written, its canonical form kept. -/
def memPut : Memory → Nat → Byte → Memory
  | [], a, v => if v = 0 then [] else [(a, v)]
  | (k, b) :: r, a, v =>
    if a < k then (if v = 0 then (k, b) :: r else (a, v) :: (k, b) :: r)
    else if a = k then (if v = 0 then r else (a, v) :: r)
    else (k, b) :: memPut r a v

/-- n bytes from a key upward. -/
def memGetN (m : Memory) (a n : Nat) : List Byte := (List.range n).map (fun i => memGet m (a + i))

/-- Bytes written from a key upward. -/
def memPutN : Memory → Nat → List Byte → Memory
  | m, _, [] => m
  | m, a, b :: r => memPutN (memPut m a b) (a + 1) r

/-- The addresses of a memory rise strictly above a bound and no byte is 0. -/
def memAbove : Nat → Memory → Bool
  | _, [] => true
  | lo, (k, b) :: r => decide (lo ≤ k) && b != 0 && memAbove (k + 1) r

/-- The canonical form of a memory. -/
def Memory.wf (m : Memory) : Bool := memAbove 0 m

/-- The key of byte p of a tier's device address space (R342, R345). -/
def tierKey (tier dpa : Nat) : Nat := (tier + 1) * 2 ^ 60 + dpa

/-- The first key above the virtual windows: keys from here on lie in a tier. -/
def tierBase : Nat := 2 ^ 60

/-- The own scratchpad's part of memory (R13). -/
def spadOf (m : Memory) : Memory := m.filter (fun c => decide (c.1 < Config.scratchBytes))

/-- Memory with the own scratchpad replaced. -/
def withSpad (sp m : Memory) : Memory := spadOf sp ++ m.filter (fun c => decide (Config.scratchBytes ≤ c.1))

/-- Memory without the bytes of a range: they read as 0. -/
def memClear (m : Memory) (a n : Nat) : Memory := m.filter (fun c => decide (c.1 < a) || decide (a + n ≤ c.1))

/-! ### Free values -/

/-- The next free value of the n-th draw, and the state after it. -/
def drawChoice (s : State) : Nat × State := (Config.choice s.draws, { s with draws := s.draws + 1 })

/-- A free wall-cycle latency between lo and hi, and the state after it. -/
def drawLatency (lo hi : Nat) (s : State) : Nat × State :=
  (lo + Config.latency s.draws % (hi + 1 - lo), { s with draws := s.draws + 1 })

/-- A free wall-cycle latency of at least one cycle, and the state after it. -/
def drawWait (s : State) : Nat × State := (1 + Config.latency s.draws, { s with draws := s.draws + 1 })

/-- The next number for a result, access, entry or command. -/
def fresh (s : State) : Nat × State := (s.nextId, { s with nextId := s.nextId + 1 })

/-! ### Updates of the parts of State -/

def updSeq (f : Seq → Seq) (s : State) : State := { s with seq := f s.seq }
def updRegs (f : Regs → Regs) (s : State) : State := { s with regs := f s.regs }
def updMat (f : Mat → Mat) (s : State) : State := { s with mat := f s.mat }
def updCpy (f : Cpy → Cpy) (s : State) : State := { s with cpy := f s.cpy }
def updPipe (f : Pipe → Pipe) (s : State) : State := { s with pipe := f s.pipe }
def updOut (f : Out → Out) (s : State) : State := { s with out := f s.out }
def updRcv (f : Rec → Rec) (s : State) : State := { s with rcv := f s.rcv }
def updSys (f : MemSys → MemSys) (s : State) : State := { s with sys := f s.sys }
def updHub (f : Hub → Hub) (s : State) : State := { s with hub := f s.hub }
def updTrust (f : Trust → Trust) (s : State) : State := { s with trust := f s.trust }
def updLinks (f : Links → Links) (s : State) : State := { s with links := f s.links }
def updCyc (f : Cycle → Cycle) (s : State) : State := { s with cyc := s.cyc.map f }
def setMem (m : Memory) (s : State) : State := { s with mem := m }

/-- List element i replaced by f of it. -/
def modifyAt {α : Type} (l : List α) (i : Nat) (f : α → α) : List α :=
  match l, i with
  | [], _ => []
  | a :: r, 0 => f a :: r
  | a :: r, i + 1 => a :: modifyAt r i f

/-! ### Registers -/

/-- Whether the core is at system level (R114). -/
def atSystem (s : State) : Bool := s.seq.level == .system

/-- A scalar register of the current level; x0 reads as zero (R13, R114). -/
def readX (s : State) (r : Fin 32) : Word :=
  if r = 0 then 0 else if atSystem s then s.seq.sx.get r else s.seq.x.get r

/-- A scalar register of one bank written; a write to x0 is discarded (R116). -/
def writeX (sys : Bool) (r : Fin 32) (w : Word) (s : State) : State :=
  if r = 0 then s
  else if sys then updSeq (fun q => { q with sx := q.sx.set r.val w }) s
  else updSeq (fun q => { q with x := q.x.set r.val w }) s

/-- A vector register. -/
def readV (s : State) (n : Fin 32) : VReg := s.regs.v.get n

/-- A vector register written. -/
def writeV (n : Fin 32) (b : VReg) (s : State) : State := updRegs (fun r => { r with v := r.v.set n.val b }) s

/-- A predicate register. -/
def readP (s : State) (n : Fin 48) : PReg := s.regs.p.get n

/-- A predicate register written. -/
def writeP (n : Fin 48) (b : PReg) (s : State) : State := updRegs (fun r => { r with p := r.p.set n.val b }) s

/-- A handle's descriptor; h15 is fixed (R150). -/
def readH (s : State) (n : Fin 16) : Granule := if n = 15 then h15Descriptor else s.regs.h.get n

/-- A handle written; h15 cannot change (R14, R150). -/
def writeH (n : Fin 16) (g : Granule) (s : State) : State :=
  if n = 15 then s else updRegs (fun r => { r with h := r.h.set n.val g }) s

/-- A check register. -/
def readK (s : State) (n : Fin 8) : Word := s.regs.k.get n

/-- A check register written. -/
def writeK (n : Fin 8) (w : Word) (s : State) : State := updRegs (fun r => { r with k := r.k.set n.val w }) s

/-- An operand queue, its oldest entry first. -/
def readQ (s : State) (n : Fin 4) : List QEntry := s.regs.q.get n

/-- An operand queue written. -/
def writeQ (n : Fin 4) (q : List QEntry) (s : State) : State := updRegs (fun r => { r with q := r.q.set n.val q }) s

/-- Sticky flags ORed in (R138). -/
def orFlags (v : BitVec 7) (m : BitVec 3) (s : State) : State :=
  updSeq (fun q => { q with vflags := q.vflags ||| v, mflags := q.mflags ||| m }) s

/-- The register destination of a scalar result: none for x0. -/
def xDest (rd : Fin 32) : Dest := if rd = 0 then .none else .x rd

/-- The companion of a block register (R198): the next register, 31 wrapping to 0 for totality (only even numbers occur). -/
def companion (n : Fin 32) : Fin 32 := Fin.ofNat 32 (n.val + 1)

/-- Element bytes of a vshape value (R137). -/
def shapeB (v : BitVec 20) : Nat := match bits v.toNat 0 2 with | 0 => 1 | 1 => 2 | _ => 4

/-- Rows of a vshape value (R137). -/
def shapeRows (v : BitVec 20) : Nat := bits v.toNat 11 9 + 1

/-- Columns of a vshape value (R137). -/
def shapeCols (v : BitVec 20) : Nat := bits v.toNat 2 9 + 1

/-- Elements of a vshape value. -/
def shapeN (v : BitVec 20) : Nat := shapeRows v * shapeCols v

/-- A shape that the register can hold (R137). -/
def shapeOk (v : BitVec 20) : Bool := decide (bits v.toNat 0 2 ≠ 3) && decide (shapeN v * shapeB v ≤ 2048)

/-! ### The latency contract -/

/-- The contract in force at the current level (R47, R136): handler bundles run under the one in force at the trap. -/
def contract (s : State) : Word := if atSystem s then s.seq.handlerLatcon else s.seq.latcon

/-- The latency of a class (R47). -/
def lat (s : State) (c : Nat) : Nat := bits (contract s).toNat (4 * c) 4 + 1

/-! ### Results in flight -/

/-- A result posted in the open cycle: destination, value and latency. -/
def Flight.start (s : State) (slot : Slot) (dest : Dest) (val : FVal) (latency : Nat) : Flight where
  id := s.nextId
  dest := dest
  val := val
  vfl := 0
  mfl := 0
  rem := latency - 1
  late := false
  variable' := false
  fresh := true
  slot := slot
  sys := atSystem s
  origin := s.pipe.issue
  commit := s.rcv.commits
  due := 0
  acc := none
  read := none
  dup := none
  shadow := none
  early := 0
  waited := 0
  paid := 0

/-- A wall cycle in which a fence or a save waits for the local accesses through the handles of a mask (R172, R173): their service
comes one wall cycle nearer, while their results keep their landing cycles. DEDUCED (20). -/
def hasten (hmask : BitVec 16) (s : State) : State :=
  { s with pipe := { s.pipe with flight := s.pipe.flight.map (fun f => match f.acc with
    | some (.l, h) => if hmask.getLsbD h.val then { f with early := f.early + 1 } else f
    | _ => f) } }

/-- A result joins those in flight, in issue order, and takes its number. -/
def push (f : Flight) (s : State) : State :=
  { s with pipe := { s.pipe with flight := s.pipe.flight ++ [f] }, nextId := s.nextId + 1 }

/-- Whether a result goes to a register that R144 records: x, v, p, h, k, z or a queue entry. -/
def Dest.recorded (d : Dest) : Bool :=
  match d with
  | .x _ | .v _ | .vv _ | .p _ | .h _ | .k _ | .tile _ => true
  | _ => false

/-- Whether a value is there, rather than to be read or brought. -/
def FVal.present (v : FVal) : Bool :=
  match v with
  | .load _ _ | .awaited _ | .bytes _ => false
  | _ => true

/-- The records of results of the program that a condition selects, and of each MMA and MRET in flight (R144, R250). -/
def countRecords (s : State) (sel : Flight → Bool) : Nat :=
  (s.pipe.flight.filter (fun f => !f.sys && f.dest.recorded && sel f)).length
    + (match s.mat.mma with | some m => one (!m.sys) | none => 0) + (match s.mat.ret with | some m => one (!m.sys) | none => 0)

/-- How many in-flight records a trap now would hold: results for registers, and each MMA and MRET in flight (R140, R144,
R250). -/
def recordCount (s : State) : Nat := countRecords s (fun _ => true)

/-- Whether a result lands in the issue cycle that is open, so that no trap after it finds a record of it (R144). -/
def landsNow (s : State) (f : Flight) : Bool := f.rem == 0 && !f.late && f.val.present && decide (f.due ≤ s.pipe.wall)

/-- Whether a 65th potential record would be needed for a result of the given latency (R144). -/
def recordsFull (s : State) (latency : Nat) : Bool :=
  !atSystem s && decide (1 < latency) && decide (64 ≤ countRecords s (fun f => !landsNow s f))

/-- The same for a result that goes to an x register: one for x0 needs no record. -/
def xRecordsFull (s : State) (rd : Fin 32) (latency : Nat) : Bool := decide (rd ≠ 0) && recordsFull s latency

/-- Whether a destination covers another: a block result covers its companion too (R198); a result without a destination covers
nothing. -/
def Dest.covers (d e : Dest) : Bool :=
  match d, e with
  | .none, _ => false
  | .vv n, .v m => n == m || companion n == m
  | .vv n, .vv m => n == m || companion n == m || n == companion m
  | .v m, .vv n => n == m || companion n == m
  | a, b => a == b

/-- Whether a destination is empty for the current level (R49, R50): a late result, or a variable one from the issue cycle
after its own. The records of the frozen program do not empty the handler's sources (assumption 10). -/
def isEmpty (s : State) (d : Dest) : Bool :=
  s.pipe.flight.any (fun f => f.dest.covers d && (f.late || (f.variable' && !f.fresh)) && f.sys == atSystem s)

/-- Whether it is a variable producer that leaves a destination empty (R50). -/
def awaitsProducer (s : State) (d : Dest) : Bool :=
  s.pipe.flight.any (fun f => f.dest.covers d && f.variable' && !f.fresh && f.sys == atSystem s)

/-- Whether an x register is empty; x0 never is. -/
def xEmpty (s : State) (r : Fin 32) : Bool := decide (r ≠ 0) && isEmpty s (.x r)

/-! ### Outstanding-access counters (R170, R171) -/

/-- The number of a path (R94). -/
def pathNo (p : Path) : Nat := match p with | .l => 0 | .d => 1 | .m => 2 | .g => 3 | .c => 4

/-- The index of a counter. -/
def cntIx (p : Path) (h : Fin 16) : Fin 80 := Fin.ofNat 80 (16 * pathNo p + h.val)

/-- A counter. -/
def cntGet (s : State) (p : Path) (h : Fin 16) : Counts := s.out.cnt.get (cntIx p h)

/-- A counter changed. -/
def cntUpd (p : Path) (h : Fin 16) (f : Counts → Counts) (s : State) : State :=
  updOut (fun o => { o with cnt := o.cnt.set (cntIx p h).val (f (o.cnt.get (cntIx p h))) }) s

/-- A read is counted. -/
def cntRead (p : Path) (h : Fin 16) : State → State := cntUpd p h (fun c => { c with rd := c.rd + 1 })

/-- A write is counted at every scope. -/
def cntWrite (p : Path) (h : Fin 16) : State → State :=
  cntUpd p h (fun c => { c with wd := c.wd + 1, wk := c.wk + 1, wo := c.wo + 1 })

/-- A read's value is fixed. -/
def cntReadDone (p : Path) (h : Fin 16) : State → State := cntUpd p h (fun c => { c with rd := c.rd - 1 })

/-- A write is performed at scope die and narrower. -/
def cntWriteDie (p : Path) (h : Fin 16) : State → State := cntUpd p h (fun c => { c with wd := c.wd - 1 })

/-- A write is performed at scopes pkg and pod. -/
def cntWriteHome (p : Path) (h : Fin 16) : State → State :=
  cntUpd p h (fun c => { c with wk := c.wk - 1, wo := c.wo - 1 })

/-- A write is performed at every scope at once, as a scratchpad write is (R171). -/
def cntWriteDone (p : Path) (h : Fin 16) (s : State) : State := cntWriteHome p h (cntWriteDie p h s)

/-- Whether one more read would pass 65,535 (R170). -/
def cntReadFull (s : State) (p : Path) (h : Fin 16) : Bool := (cntGet s p h).rd == 0xFFFF

/-- Whether one more write would pass 65,535 (R170). -/
def cntWriteFull (s : State) (p : Path) (h : Fin 16) : Bool :=
  (cntGet s p h).wd == 0xFFFF || (cntGet s p h).wk == 0xFFFF || (cntGet s p h).wo == 0xFFFF

/-- A counter of the bundle's state before its own accesses, which a fence waits on (R97). -/
def cntBefore (s : State) (p : Path) (h : Fin 16) : Counts :=
  match s.cyc with
  | some c => c.cnt.get (cntIx p h)
  | none => cntGet s p h

/-- Whether a path mask names a path. -/
def inPaths (m : BitVec 5) (p : Path) : Bool := m.getLsbD (pathNo p)

/-- Whether a handle mask names a handle. -/
def inHandles (m : BitVec 16) (h : Fin 16) : Bool := m.getLsbD h.val

/-- The five paths. -/
def allPaths : List Path := [.l, .d, .m, .g, .c]

/-- The sixteen handles. -/
def allHandles : List (Fin 16) := List.finRange 16

/-- A condition over every counter of a range (R173). -/
def rangeAll (paths : BitVec 5) (hmask : BitVec 16) (f : Path → Fin 16 → Bool) : Bool :=
  allPaths.all (fun p => !inPaths paths p || allHandles.all (fun h => !inHandles hmask h || f p h))

/-! ### Trap words (R44, R143) -/

/-- The number of a slot (R12). -/
def slotNo (sl : Slot) : Nat :=
  match sl with | .s => 0 | .l => 1 | .v0 => 2 | .v1 => 3 | .f => 4 | .m => 5 | .d => 6 | .k => 7

/-- `tval` in the layout of R44. -/
def tvalIssue (check slota slotb w : Nat) : Word := word (slotb * 2 ^ 37 + slota * 2 ^ 34 + check * 2 ^ 32 + w % 2 ^ 32)

/-- `tval` with a slot and an address (R143). -/
def tvalAddr (sl : Slot) (a : Nat) : Word := word (slotNo sl * 2 ^ 57 + a % 2 ^ 57)

/-- `tval` with a slot and its word (R143). -/
def tvalWord (sl : Slot) (w : Nat) : Word := word (slotNo sl * 2 ^ 57 + w % 2 ^ 32)

/-- ILLEGAL_BUNDLE (R143). -/
def cIllegalBundle : BitVec 8 := 0x01
/-- ILLEGAL_OP (R143). -/
def cIllegalOp : BitVec 8 := 0x02
/-- EMPTY_READ (R143). -/
def cEmptyRead : BitVec 8 := 0x03
/-- MISALIGNED (R143). -/
def cMisaligned : BitVec 8 := 0x04
/-- HANDLE_BOUNDS (R143). -/
def cHandleBounds : BitVec 8 := 0x05
/-- TRANSLATION (R143). -/
def cTranslation : BitVec 8 := 0x06
/-- PERMISSION (R143). -/
def cPermission : BitVec 8 := 0x07
/-- CHECK_MISMATCH (R143). -/
def cCheckMismatch : BitVec 8 := 0x08
/-- UNCORRECTABLE (R143). -/
def cUncorrectable : BitVec 8 := 0x09
/-- INTEGRITY (R143). -/
def cIntegrity : BitVec 8 := 0x0A
/-- YIELD_OVERRUN (R143). -/
def cYieldOverrun : BitVec 8 := 0x0B
/-- QUEUE (R143). -/
def cQueue : BitVec 8 := 0x0C
/-- BAD_DATA (R143). -/
def cBadData : BitVec 8 := 0x0D
/-- ECALL (R143). -/
def cEcall : BitVec 8 := 0x0E
/-- EBREAK (R143). -/
def cEbreak : BitVec 8 := 0x0F
/-- KEY (R143). -/
def cKey : BitVec 8 := 0x10
/-- ILLEGAL_SHAPE (R143). -/
def cIllegalShape : BitVec 8 := 0x11
/-- PHASE_WRITE (R143). -/
def cPhaseWrite : BitVec 8 := 0x12

/-- ILLEGAL_OP of a slot's word, for decode failures and the state-dependent cases (R143). -/
def trapOp (sl : Slot) (w : Nat) : Trap := ⟨cIllegalOp, tvalIssue 1 (slotNo sl) 0 w, false⟩

/-- A cause whose `tval` is an address (R143). -/
def trapAt (c : BitVec 8) (sl : Slot) (a : Nat) : Trap := ⟨c, tvalAddr sl a, false⟩

/-- A cause whose `tval` is the slot word (R143). -/
def trapWord (c : BitVec 8) (sl : Slot) (w : Nat) : Trap := ⟨c, tvalWord sl w, false⟩

/-- The word of an instruction as it stands in the issuing unit: the yield mark of an S word comes from the unit (R26). -/
def wordOfInstr (s : State) (i : Instr) : Nat :=
  match encode i with
  | some w =>
    if slotOf i = some .s then
      (match s.cyc with | some c => if c.mark then w else w + 2 | none => w + 2)
    else w
  | none => 0

/-! ### Fetch units (R24 to R29) -/

/-- The granule of the code store that holds a byte offset. -/
def granuleAt (s : State) (pc : Nat) : Granule := s.code.get (Fin.ofNat 2048 (pc / 32))

/-- Whether an offset lies in a full bundle (R25). -/
def isFull (s : State) (pc : Nat) : Bool := (granuleAt s pc).getLsbD 0

/-- The records of the Ubrov set that the program runs (R59); a handler is native code. Record n stands at pc 2n, so that a byte
offset that an S word encodes, divided by 2, is the record offset. -/
def records (s : State) : Option (List Word) := if atSystem s then none else s.ubrov

/-- The record at the pc. -/
def recordAt (s : State) : Option Word := (records s).bind (fun l => l[s.seq.pc / 2]?)

/-- The address past the program's last unit. -/
def codeEnd (s : State) : Nat := match records s with | some l => 2 * l.length | none => Config.codeBytes

/-- Whether an offset names a fetch unit: a full bundle's first byte, a token, or a record (R59, R120). -/
def namesUnit (s : State) (pc : Nat) : Bool :=
  decide (pc < codeEnd s) && (if (records s).isNone && isFull s pc then pc % 32 == 0 else pc % 2 == 0)

/-- The next fetch address after the unit at an offset (R29): 32 bytes after a full bundle, 2 after a token or a record, so that the
next granule follows token 15. -/
def nextFetch (s : State) (pc : Nat) : Nat := if (records s).isNone && isFull s pc then pc + 32 else pc + 2

/-- Slot i of a bundle (R25). -/
def slotWord (g : Granule) (i : Nat) : Nat := bits g.toNat (32 * i) 32

/-! ### Traps (R141 to R145) -/

/-- `tpc` of a unit and the repetitions of it already issued (R30). DESIGN CHOICE (71): where fetch has run past offset 0xFFFF, R29
gives no value for the 16-bit field; the address is kept modulo 2^16, so `tpc` is then 0. -/
def tpcOf (pc reps : Nat) : BitVec 21 := BitVec.ofNat 21 (reps % 32 * 2 ^ 16 + pc % 2 ^ 16)

/-- Results that the handler's reset of the system bank makes pointless are dropped: those of an earlier handler that go to a
system scalar register (R114, assumption 10). -/
def dropSystemX (l : List Flight) : List Flight :=
  l.filter (fun f => !(f.sys && (match f.dest with | .x _ => true | _ => false)))

/-- Taking a trap at program level (R141): the pc and cause are saved, the system bank is reset, and fetch goes to the handler.
`tpc` names the unit at `pc` and the repetitions of it that have issued. -/
def enterHandler (t : Trap) (s : State) : State :=
  { s with
    seq := { s.seq with
      level := .system
      sx := Vector.replicate 32 0
      tcause := BitVec.ofNat 9 ((if t.deferred then 256 else 0) + t.code.toNat)
      tval := t.tval.setWidth 60
      tpc := tpcOf s.seq.pc s.seq.reps
      pc := s.seq.tvec.toNat * 32
      reps := 0
      token := none
      handlerWait := none
      handlerLatcon := s.seq.latcon }
    pipe := { s.pipe with flight := dropSystemX s.pipe.flight }
    cyc := none }

/-- A double trap stops the core; the hub contains the launch, and both causes are kept for its event (R141, R338). -/
def doubleTrap (t : Trap) (s : State) : State :=
  { s with seq := { s.seq with run := .stopped 1 s.seq.tcause.toNat t.code.toNat }, cyc := none }

/-- Taking a trap: at program level it enters the handler, at system level it is a double trap (R141). -/
def takeTrap (t : Trap) (s : State) : State :=
  match s.seq.level with
  | .program => enterHandler t s
  | .system => doubleTrap t s

/-- A fault that an engine found after its bundle issued (R142): of an operation issued at system level it is a double trap; of
one issued at program level it traps at program level, and is held while a handler runs or a save freezes the program; a fault of the
save itself abandons a voluntary one (R148) and makes a recovery save a kill (R306). The queue of 16 held faults is
the head of `held`; what stands beyond it is with its stopped operation. -/
def deliverFault (f : FaultRec) (s : State) : State :=
  if f.sys then doubleTrap ⟨f.code, f.tval, true⟩ s
  else match s.seq.level with
    | .program => (match s.seq.run, s.rcv.saveAcc with
      | .saving _, some _ => enterHandler ⟨f.code, f.tval, true⟩
          { s with seq := { s.seq with run := .running }, rcv := { s.rcv with saveAcc := none } }
      | .retired, some _ => { s with seq := { s.seq with run := .stopped 3 0 0 } }
      | .saving _, none | .retired, none => updSeq (fun q => { q with held := q.held ++ [f] }) s
      | _, _ => enterHandler ⟨f.code, f.tval, true⟩ s)
    | .system => updSeq (fun q => { q with held := q.held ++ [f] }) s

/-- A deferred fault is found: where the events of a wall cycle are being worked out it joins the others of that cycle, else it is
delivered at once (R142). -/
def raiseDeferred (f : FaultRec) (s : State) : State :=
  match s.pipe.found with
  | some l => updPipe (fun p => { p with found := some (l ++ [f]) }) s
  | none => deliverFault f s

/-- Faults inserted in slot order (R142). -/
def insertFault (f : FaultRec) : List FaultRec → List FaultRec
  | [] => [f]
  | g :: r => if slotNo f.slot < slotNo g.slot then f :: g :: r else g :: insertFault f r

/-- Deferred faults found in the same cycle are delivered in slot order (R142). -/
def deliverFaults (l : List FaultRec) (s : State) : State :=
  (l.foldl (fun r f => insertFault f r) []).foldl (fun t f => deliverFault f t) s

/-- The repetitions that the unit of `tpc` has issued: none for a full bundle or a record (R30). -/
def tpcReps (s : State) : Nat :=
  if s.ubrov.isSome || isFull s (bits s.seq.tpc.toNat 0 16) then 0 else bits s.seq.tpc.toNat 16 5

/-- The sequencer as the program resumes it: fetch at `tpc` (R145). -/
def resumed (s : State) : Seq :=
  { s.seq with level := .program, pc := bits s.seq.tpc.toNat 0 16, reps := tpcReps s, token := none }

/-- TRET (R145): program level and bank, fetch at `tpc`; records whose value is present and whose landing cycle has passed
land before the next bundle, as arrivals. -/
def leaveHandler (s : State) : State := { s with seq := resumed s }

/-! ### The open issue cycle -/

/-- The issue cycle of the unit at the pc, no slot of which has acted. A token's mark is its own, a full bundle's is bit 1 of
its slot 0 (R26), a record's is its yield flag (R58). -/
def Cycle.start (s : State) : Cycle where
  pc := s.seq.pc
  next := match s.seq.token with
    | some _ => s.seq.pc + 2
    | none => if (records s).isSome then s.seq.pc + 2 else s.seq.pc + 32
  mark := match s.seq.token with
    | some u => !u.mark
    | none => match recordAt s with | some r => r.getLsbD 56 | none => !(granuleAt s s.seq.pc).getLsbD 1
  stalled := false
  force := false
  trap := none
  target := none
  afterTrap := none
  commit := none
  last := []
  popped := none
  v0 := none
  folds := []
  ksig := none
  ended := false
  moving := none
  tret := false
  wait := none
  checked := match recordAt s with | some r => r.getLsbD 57 | none => false
  shadow := false
  haste := 0
  cnt := s.out.cnt

/-- The state with its issue cycle open. -/
def openCycle (s : State) : State := { s with cyc := some (Cycle.start s) }

/-- A slot's part of the open bundle: its effect, or a stall of the bundle, or its trap, the first in slot order being kept
(R142). -/
def record (sl : Slot) (body : State → Issued) (s : State) : State :=
  match body s with
  | .ok t => t
  | .stall => updCyc (fun c => { c with stalled := true }) s
  | .wait t => updCyc (fun c => { c with stalled := true }) t
  | .force => updCyc (fun c => { c with force := true }) s
  | .trap t => updCyc (fun c => { c with trap := (match c.trap with | some u => some u | none => some (sl, t)) }) s

end Sys2Proof.Machine
end

