-- ==== Sys2Proof/Machine/Access.lean ====
section
/-! DEFINITION. The tenant address space, handles, translation and the checks of an access (R86 to R95, R150 to R155, R342 to
R353), and which values a read returns (R91, R92). -/

namespace Sys2Proof.Machine

open Sys2Proof

/-! ### Address space (R86) -/

/-- The region of a virtual address (R86). -/
def windowOf (va : Nat) : Window :=
  if va < 0x60000 then .spad
  else if 0x10000000 ≤ va ∧ va < 0x13000000 then
    (if (va - 0x10000000) % 0x80000 < 0x60000 then .die ((va - 0x10000000) / 0x80000) ((va - 0x10000000) % 0x80000) else .hole)
  else if 0x20000000 ≤ va ∧ va < 0x20010000 then .code
  else if 0x100000000 ≤ va ∧ va < 2 ^ 57 then .global
  else .hole

/-- The address after the region that holds an address. -/
def windowEnd (va : Nat) : Nat :=
  match windowOf va with
  | .spad => 0x60000
  | .die _ o => va - o + 0x60000
  | .code => 0x20010000
  | .global => 2 ^ 57
  | .hole => va

/-- The core's index within its die (R10). -/
def dieIndex (s : State) : Nat := s.id.quad.val * 4 + s.id.core.val

/-- The core's index within the package. -/
def pkgIndex (s : State) : Nat := s.id.die.val * 96 + dieIndex s

/-- The core of the own die that index n of the die window reaches: the core itself, or the one to which the hub mapped a context
that could not resume on it (R335). -/
def dieTarget (s : State) (n : Nat) : Nat :=
  match s.seq.ctx.bind (fun c => s.hub.vfs.find? (fun v => v.vf == c.vf)) with
  | some v => (match v.remap.find? (fun e => e.1 == s.id.die.val * 96 + n) with | some e => e.2 % 96 | none => n)
  | none => n

/-- Whether index n of the die window names a disabled core (R87). -/
def dieCoreOff (s : State) (n : Nat) : Bool := s.hub.disabled.contains (s.id.die.val * 96 + dieTarget s n)

/-- The launch whose context is on a core of the package: one that runs, has the core in a crew and no context saved from it. -/
def launchOn (s : State) (core : Nat) : Option Launch :=
  s.hub.launches.find? (fun l => l.state == .running && l.stages.any (fun st => st.crew.contains core)
    && s.hub.saved.all (fun e => e.launch != l.id || e.core != core))

/-- Core n of the package is in service: neither disabled, nor on a disabled die. -/
def coreUsable (s : State) (n : Nat) : Bool := !s.hub.disabled.contains n && !s.hub.disabledDies.contains (n / 96)

/-- Cores return to the free pool of the partition that holds their die (R326, R335, R337), but for one that holds a context. -/
def toPool (cores : List Nat) (s : State) : State :=
  updHub (fun h => { h with parts := h.parts.map (fun p => { p with
    pool := p.pool ++ cores.filter (fun c => coreUsable s c && (launchOn s c).isNone && decide (p.first ≤ c / 96) && decide (c / 96 < p.first + p.size) && !p.pool.contains c) }) }) s

/-- The tenant tag of the context on core n of the own die, if it runs one (R169); the tag of a function is its number (R140,
assumption 15). -/
def tagOfCore (s : State) (n : Nat) : Option Nat :=
  if n = dieIndex s then s.seq.ctx.map (fun _ => bits s.seq.tenant.toNat 0 16)
  else (launchOn s (s.id.die.val * 96 + n)).map (fun l => l.vf % 65536)

/-- Whether the die fabric lets this core's access reach core n (R169). -/
def tagMatches (s : State) (n : Nat) : Bool := tagOfCore s (dieTarget s n) == some (bits s.seq.tenant.toNat 0 16)

/-! ### Descriptor fields (R151) -/

def hBase (g : Granule) : Nat := bits g.toNat 0 57
def hExtent (g : Granule) : Nat := bits g.toNat 64 40
def hKind (g : Granule) : Nat := bits g.toNat 128 4
def hFmt (g : Granule) : Nat := bits g.toNat 132 4
def hPermR (g : Granule) : Bool := flag g.toNat 136
def hPermW (g : Granule) : Bool := flag g.toNat 137
def hPermA (g : Granule) : Bool := flag g.toNat 138
def hPermS (g : Granule) : Bool := flag g.toNat 139
def hScope (g : Granule) : Scope := (scopeOf (bits g.toNat 140 3)).getD .pkg
def hGuarded (g : Granule) : Bool := flag g.toNat 143
def hStride (g : Granule) : Nat := bits g.toNat 160 32
def hCounter (g : Granule) : Nat := bits g.toNat 192 64

/-- Whether an address lies where a progress counter may (R104, R152). -/
def counterPlace (a : Nat) : Bool :=
  match windowOf a with | .spad => true | .die _ _ => true | .global => true | _ => false

/-- A valid descriptor (R152). -/
def descriptorOk (g : Granule) : Bool :=
  g == 0 ||
  (decide (1 ≤ hKind g) && decide (hKind g ≤ 5)
    && bits g.toNat 57 7 == 0 && bits g.toNat 104 24 == 0 && bits g.toNat 144 16 == 0
    && decide (hBase g % 32 = 0) && decide (1 ≤ hExtent g)
    && decide (hBase g + hExtent g ≤ 2 ^ 57)
    && (hKind g != 2 || decide (hBase g + hStride g + hExtent g ≤ 2 ^ 57))
    && hFmt g != 15 && decide (bits g.toNat 140 3 ≤ 4)
    && (if hKind g = 2 then decide (hStride g % 32 = 0) && decide (hExtent g ≤ hStride g) else hStride g == 0)
    && (hCounter g == 0 || (decide (hCounter g % 8 = 0) && counterPlace (hCounter g)))
    && (hKind g != 3 || (hPermS g && !hPermW g)))

/-- The first address of a handle's region for a direction (R153). -/
def regionLo (g : Granule) (parity write : Bool) : Nat :=
  if hKind g = 2 then (if parity == write then hBase g else hBase g + hStride g) else hBase g

/-- The first address of the read half of a phase-paired handle (R153). -/
def readHalf (g : Granule) (parity : Bool) : Nat := regionLo g parity false

/-! ### Translation (R344 to R349) -/

/-- The record of the context's virtual function. -/
def ctxVf (s : State) : Option Vf := s.seq.ctx.bind (fun c => s.hub.vfs.find? (fun v => v.vf == c.vf))

/-- Whether the CXL device that bring-up found has been lost (R411). -/
def cxlLost (s : State) : Bool := s.links.cxlBytes != 0 && !s.links.cxl

/-- Whether the 64-byte line of a key is bad, and how: a lost CXL device delivers poison (R411). -/
def badAt (s : State) (key : Nat) : Option BadKind :=
  if cxlLost s && decide (tierKey 1 0 ≤ key ∧ key < tierKey 2 0) then some .uncorrectable
  else (s.sys.bad.find? (fun b => b.1 == key / 64 * 64)).map (·.2)

/-- The value of an 8-byte unit at its home (R95): writes that are performed at the die coherence point only are not there yet. -/
def homeUnit (s : State) (u : Nat) : Nat :=
  ((s.sys.old.filter (fun o => o.unit == u)).foldl (fun (m : Option Word) o =>
    if o.pkg then none else match m with | some v => some v | none => some o.val) none).elim (leNat (memGetN s.mem u 8)) (·.toNat)

/-- The two words of a table entry, read at its home (R345, R347). -/
def entryWords (s : State) (key : Nat) : Nat × Nat := (homeUnit s key, homeUnit s (key + 8))

/-- Whether a line holds what another tenant's key wrote, so that it fails its MAC under a slot (R347, R372). -/
def foreignKey (s : State) (slot key : Nat) : Bool := s.sys.recs.any (fun r => r.block == key / 4096 && !r.zero && r.slot != slot)

/-- Fields of an entry's word 0 (R345). -/
def ptPa (w0 : Nat) : Nat := bits w0 9 47 * 512
def ptTier (w0 : Nat) : Nat := bits w0 7 2
def ptFrozen (w0 : Nat) : Bool := flag w0 6
def ptDirty (w0 : Nat) : Bool := flag w0 5
def ptAccessed (w0 : Nat) : Bool := flag w0 4
def ptW (w0 : Nat) : Bool := flag w0 3
def ptR (w0 : Nat) : Bool := flag w0 2
def ptLeaf (w0 : Nat) : Bool := flag w0 1
def ptValid (w0 : Nat) : Bool := flag w0 0

/-- Fields of a leaf's word 1 (R345). -/
def ptLpid (w1 : Nat) : Nat := bits w1 32 32
def ptMeta (w1 : Nat) : Nat := bits w1 16 16 * 65536
def ptBlen (w1 : Nat) : Nat := bits w1 14 2
def ptFmt (w1 : Nat) : Nat := bits w1 10 4
def ptSealed (w1 : Nat) : Bool := flag w1 9

/-- The levels of a walk from the root: low bit of the index, its width, the page size of a leaf there, and the alignment of
the next table (R344). -/
def walkLevels : List (Nat × Nat × Nat × Nat) :=
  [(48, 9, 0, 8192), (39, 9, 0, 8192), (30, 9, 2 ^ 30, 8192), (21, 9, 2 ^ 21, 512), (16, 5, 2 ^ 16, 0)]

/-- Bytes of the CXL device that pages may map: what lies below the metadata region, whose ninth part of the device is rounded
up to a multiple of 1 GiB (R371). -/
def cxlUsable (cap : Nat) : Nat := cap - (cap + 9 * 2 ^ 30 - 1) / (9 * 2 ^ 30) * 2 ^ 30

/-- Whether a page lies where its tier stores tenant data: in a usable stack below the counters (R342, R346, R408); in an
attached CXL device below its metadata (R371, R401); in host memory once its metadata region is registered (R371). -/
def tierFits (s : State) (tier pa size : Nat) : Bool :=
  match tier with
  | 0 => decide (pa % 2 ^ 36 + size ≤ 64000000000) && decide (pa < 2 ^ 40) && !s.sys.deadStacks.contains (pa / 2 ^ 36)
  | 1 => s.links.cxlBytes != 0 && decide (pa + size ≤ cxlUsable s.links.cxlBytes)
  | _ => s.trust.hostmeta.isSome

/-- One walk (R344, R346), level by level from the table at a key base of a tier. An entry that names tier 01 where no device is
attached, or its metadata, fails also where it names a table (R371, R401). A table line that cannot be corrected, or is poisoned, is
UNCORRECTABLE (R357, R411), one that fails its MAC under the tenant's key INTEGRITY. -/
def walkFrom (v : Vf) (s : State) (va : Nat) : List (Nat × Nat × Nat × Nat) → Nat → Nat → Except (BitVec 8) Xlat
  | [], _, _ => .error cTranslation
  | (lo, n, size, next) :: rest, tier, base =>
    let ea := tierKey tier base + bits va lo n * 16
    let w := entryWords s ea
    match badAt s ea with
    | some .uncorrectable => .error cUncorrectable
    | some .integrity => .error cIntegrity
    | none =>
    if foreignKey s (v.slot.getD 0) ea then .error cIntegrity
    else if !ptValid w.1 || bits w.1 56 8 != 0 || ptTier w.1 == 3 then .error cTranslation
    else if ptLeaf w.1 then
      (if size = 0 || bits w.2 0 9 != 0 || ptPa w.1 % size != 0 || !tierFits s (ptTier w.1) (ptPa w.1) size then .error cTranslation
       else .ok ⟨v.vf, va / size * size, size, ea, word w.1, word w.2⟩)
    else if next = 0 || w.2 != 0 || ptPa w.1 % next != 0 || (ptTier w.1 == 1 && !tierFits s 1 (ptPa w.1) next) then .error cTranslation
    else walkFrom v s va rest (ptTier w.1) (ptPa w.1)

/-- A walk from the root of a virtual function (R344, R350). -/
def walkVf (v : Vf) (s : State) (va : Nat) : Except (BitVec 8) Xlat :=
  if flag v.root.toNat 0 then walkFrom v s va walkLevels (bits v.root.toNat 1 2) (bits v.root.toNat 13 43 * 8192)
  else .error cTranslation

/-- A walk from the root of the context's virtual function. -/
def walk (s : State) (va : Nat) : Except (BitVec 8) Xlat :=
  match ctxVf s with
  | some v => walkVf v s va
  | none => .error cTranslation

/-- Whether a translation covers an address. -/
def Xlat.covers (x : Xlat) (va : Nat) : Bool := decide (x.va ≤ va) && decide (va < x.va + x.size)

/-- Two translations that send an access the same way: all but the accessed and dirty marks agree. -/
def Xlat.same (x y : Xlat) : Bool :=
  x.va == y.va && x.size == y.size && (x.w0 ||| 0x30) == (y.w0 ||| 0x30) && x.w1 == y.w1

/-- An atomic OR of hub bits into a leaf's word 0 at its home (R347, R353). -/
def orLeaf (x : Xlat) (mask : Nat) (s : State) : State :=
  setMem (memPutN s.mem x.leafAddr (leBytes 8 ((entryWords s x.leafAddr).1 ||| mask))) s

/-- A translation enters the caches; the accessed mark of its leaf is set first (R347, R348). -/
def install (x : Xlat) (s : State) : State :=
  let t := if ptAccessed x.w0.toNat then s else orLeaf x 0x10 s
  let y := { x with w0 := x.w0 ||| 0x10 }
  if t.sys.tlb.any (fun z => z == y) then t else updSys (fun m => { m with tlb := m.tlb ++ [y] }) t

/-- The key identifier of the context's tenant (R140). -/
def ctxKey (s : State) : Nat := bits s.seq.tenant.toNat 16 12

/-- Whether the context's key slot is LIVE (R366, R367). -/
def keyLive (s : State) : Bool := s.trust.slots.any (fun k => k.n == ctxKey s && k.state == .live)

/-- The place that a fault of a translation names: the address, or the key identifier for KEY (R143). -/
def faultPlace (s : State) (c : BitVec 8) (va : Nat) : Nat := if c = cKey then ctxKey s else va

/-- The cached translations that may serve the context's access (R348): those of its function. -/
def cachedFor (s : State) (va : Nat) : List Xlat := s.sys.tlb.filter (fun x => s.seq.ctx.any (fun c => c.vf == x.vf) && x.covers va)

/-- The translation that an access uses: the leaf as it stands, or any cached one since the last invalidation (R349). Where
they differ the choice is free. An access under a slot that is not LIVE traps KEY (R367); with root.enable = 0 every one raises
TRANSLATION (R350). -/
def translate (va : Nat) (s : State) : Except (BitVec 8) (Xlat × State) :=
  let cached := cachedFor s va
  if !keyLive s then .error cKey
  else if !(ctxVf s).any (fun v => flag v.root.toNat 0) then .error cTranslation
  else match walk s va with
  | .ok x =>
    if cached.all (fun y => y.same x) then .ok (x, install x s)
    else
      let d := drawChoice s
      (match cached[d.1 % (cached.length + 1)]? with
       | some y => .ok (y, d.2)
       | none => .ok (x, install x d.2))
  | .error e =>
    if cached.isEmpty then .error e
    else
      let d := drawChoice s
      (match cached[d.1 % (cached.length + 1)]? with
       | some y => .ok (y, d.2)
       | none => .error e)

/-- What a page forbids (R346): none where the access may use it. -/
def pageForbids (k : AccKind) (x : Xlat) : Bool :=
  let w0 := x.w0.toNat
  let far := ptTier w0 == 1 || ptTier w0 == 2
  match k with
  | .read => !ptR w0
  | .write => !ptW w0 || ptSealed x.w1.toNat
  | .rmw => !ptR w0 || !ptW w0 || ptSealed x.w1.toNat || far
  | .collWrite => !ptW w0 || ptSealed x.w1.toNat || far

/-- Whether an access kind writes. -/
def AccKind.writes (k : AccKind) : Bool := match k with | .read => false | _ => true

/-- The dirty mark of a page that is written through a translation whose own mark is 0 (R353). -/
def markDirty (x : Xlat) (s : State) : State :=
  if ptDirty x.w0.toNat then s
  else updSys (fun m => { m with tlb := m.tlb.map (fun y => if y == x || y.same x then { y with w0 := y.w0 ||| 0x20 } else y) })
    (orLeaf x 0x20 s)

/-- Translating the pages of a range. An error of none is a stall: a write meets a page that migrates (R111, R351). -/
def translateRange (k : AccKind) : Nat → Nat → Nat → State → Except (Option (BitVec 8 × Nat)) (List Xlat × State)
  | 0, _, _, s => .ok ([], s)
  | fuel + 1, va, stop, s =>
    if stop ≤ va then .ok ([], s)
    else match translate va s with
      | .error e => .error (some (e, faultPlace s e va))
      | .ok (x, t) =>
        if pageForbids k x then .error (some (cPermission, va))
        else if k.writes && ptFrozen x.w0.toNat then .error none
        else match translateRange k fuel (x.va + x.size) stop (if k.writes then markDirty x t else t) with
          | .error e => .error e
          | .ok (xs, u) => .ok (x :: xs, u)

/-- The key of a global address through translations captured at issue (R159, R412). -/
def globalKey (xs : List Xlat) (va : Nat) : Nat :=
  match xs.find? (fun x => x.covers va) with
  | some x => tierKey (ptTier x.w0.toNat) (ptPa x.w0.toNat + (va - x.va))
  | none => va

/-! ### Bandwidth tokens (R360 to R363) -/

/-- Whether a key lies in tier 0. -/
def isHbm (key : Nat) : Bool := decide (tierKey 0 0 ≤ key) && decide (key < tierKey 1 0)

/-- The lines of tier 0 among keys. -/
def hbmLines (keys : List Nat) : Nat := (((keys.filter isHbm).map (· / 64)).eraseDups).length

/-- Whether any share is set, so that the ports throttle (R360). -/
def throttled (s : State) : Bool := s.sys.shares.any (fun e => e.2.1 != 0)

/-- Requests for n lines of tier 0 pass the port, `paid` of them having their token (R363): whether all have it now; else the lines that
have it, the others waiting. -/
def payLines (n paid : Nat) (s : State) : Bool × Nat × State :=
  if !throttled s then (true, 0, s)
  else if n ≤ paid then (true, 0, s)
  else if n - paid ≤ s.out.tokens then
    (true, 0, updOut (fun o => { o with tokens := o.tokens - (n - paid), waiting := false, spent := o.spent || decide (o.tokens ≤ n - paid) }) s)
  else (false, paid + s.out.tokens, updOut (fun o => { o with tokens := 0, waiting := true, spent := o.spent || decide (0 < o.tokens) }) s)

/-- One request of an engine passes the port. -/
def withToken (key : Nat) (k : State → State) (s : State) : State :=
  match payLines (one (isHbm key)) 0 s with | (true, _, t) => k t | (false, _, t) => t

/-- An operation that reads n lines of tier 0 as it issues: its bundle waits until they have their tokens (R363). -/
def issueLines (n : Nat) (k : State → Issued) (s : State) : Issued :=
  match payLines n s.out.issuePaid s with
  | (true, _, t) => k (updOut (fun o => { o with issuePaid := 0 }) t)
  | (false, p, t) => .wait (updOut (fun o => { o with issuePaid := p }) t)

/-- The key of an address: a window's own key, or the tier's (R86, R342). -/
def keyOf (xs : List Xlat) (va : Nat) : Nat :=
  match windowOf va with | .global => globalKey xs va | _ => va

/-! ### The checks of an access (R154) -/

/-- The first byte of a range outside the accepted windows (R154); a window of a disabled core is not accepted (R87). -/
def windowBad (s : State) (accepts : Window → Bool) : Nat → Nat → Nat → Option Nat
  | 0, _, _ => none
  | fuel + 1, va, stop =>
    if stop ≤ va then none
    else
      let w := windowOf va
      let ok := accepts w && (match w with | .die n _ => !dieCoreOff s n | .hole => false | _ => true)
      if ok then windowBad s accepts fuel (windowEnd va) stop else some va

/-- The first byte of a range outside lo … lo + n − 1. -/
def outside (lo n va stop : Nat) : Option Nat :=
  if va < lo then some va else if lo + n < stop then some (max va (lo + n)) else none

/-- The first byte of a range that lies inside lo … lo + n − 1. -/
def inside (lo n va stop : Nat) : Option Nat :=
  if max va lo < min stop (lo + n) then some (max va lo) else none

/-- The handle's own checks in the order of R154: kind, permission, halves, bounds. -/
def handleBad (s : State) (h : Fin 16) (g : Granule) (kinds : List Nat) (write : Bool) (va stop : Nat) : Option (BitVec 8 × Nat) :=
  if hKind g = 0 then some (cHandleBounds, va)
  else if !kinds.contains (hKind g) then some (cPermission, va)
  else if (if write then !hPermW g else !hPermR g) then some (cPermission, va)
  else if h = 15 then none
  else match (if hKind g = 2 && write then inside (readHalf g s.seq.parity) (hExtent g) va stop else none) with
    | some a => some (cPhaseWrite, a)
    | none => (outside (regionLo g s.seq.parity write) (hExtent g) va stop).map (fun a => (cHandleBounds, a))

/-- Whether a range reaches global memory. -/
def reachesGlobal (va : Nat) : Bool := windowOf va == .global

/-- R154 whole, for one range: the fault and its first offending byte, a stall (none), or the translations captured. -/
def checkRange (s : State) (h : Fin 16) (g : Granule) (align : Nat) (accepts : Window → Bool) (kinds : List Nat) (k : AccKind)
    (va n : Nat) : Except (Option (BitVec 8 × Nat)) (List Xlat × State) :=
  if va % align != 0 then .error (some (cMisaligned, va))
  else match windowBad s accepts 4 va (va + n) with
    | some a => .error (some (if windowOf a == .code && k.writes then cPermission else cTranslation, a))
    | none =>
      match handleBad s h g kinds k.writes va (va + n) with
      | some e => .error (some e)
      | none => if reachesGlobal va then translateRange k (n / 65536 + 2) va (va + n) s else .ok ([], s)

/-- Several ranges, each checked as its own access, in order (R164). -/
def checkRanges (h : Fin 16) (g : Granule) (align : Nat) (accepts : Window → Bool) (kinds : List Nat) (k : AccKind) (n : Nat) :
    List Nat → State → Except (Option (BitVec 8 × Nat)) (List Xlat × State)
  | [], s => .ok ([], s)
  | va :: r, s =>
    match checkRange s h g align accepts kinds k va n with
    | .error e => .error e
    | .ok (xs, t) =>
      match checkRanges h g align accepts kinds k n r t with
      | .error e => .error e
      | .ok (ys, u) => .ok (xs ++ ys, u)

/-- The trap of an access: `tval` holds the slot and the address, or for KEY the identifier alone (R143). -/
def accessTrap (sl : Slot) (e : BitVec 8 × Nat) : Trap := if e.1 = cKey then ⟨cKey, word e.2, false⟩ else trapAt e.1 sl e.2

/-- The code store is reached by reads of path L alone: an access on another path raises PERMISSION there (R86). -/
def offPath {α : Type} (r : Except (Option (BitVec 8 × Nat)) α) : Except (Option (BitVec 8 × Nat)) α :=
  match r with
  | .error (some (c, a)) => .error (some (if c = cTranslation ∧ windowOf a = .code then (cPermission, a) else (c, a)))
  | r => r

/-- A check followed by what the access does: a stall or the slot's trap where it fails. -/
def checked (sl : Slot) (r : Except (Option (BitVec 8 × Nat)) (List Xlat × State)) (k : List Xlat → State → Issued) : Issued :=
  match r with
  | .error none => .stall
  | .error (some e) => .trap (accessTrap sl e)
  | .ok (xs, t) => k xs t

/-! ### What a read returns -/

/-- A byte of the code store as the L path reads it (R24). -/
def codeByte (s : State) (va : Nat) : Byte :=
  BitVec.ofNat 8 (bits (granuleAt s (va - 0x20000000)).toNat (8 * (va % 32)) 8)

/-- The byte that a bank, the code store or a tier holds at a key; the own die window reaches the own scratchpad (R87). -/
def peek (s : State) (key : Nat) : Byte :=
  match windowOf key with
  | .code => codeByte s key
  | .die n o => if dieTarget s n = dieIndex s then memGet s.mem o else memGet s.mem key
  | _ => memGet s.mem key

/-- n bytes at keys. -/
def peekKeys (s : State) (keys : List Nat) : List Byte := keys.map (peek s)

/-- The bit of `blocked` for a path and handle. -/
def blockIx (p : Path) (h : Fin 16) : Nat := 16 * pathNo p + h.val

/-- The bits of `blocked` for a path and all handles. -/
def blockPath (p : Path) : BitVec 80 := BitVec.ofNat 80 (0xFFFF * 2 ^ (16 * pathNo p))

/-- The bits of `blocked` for a range. -/
def blockRange (paths : BitVec 5) (hmask : BitVec 16) : BitVec 80 :=
  allPaths.foldl (fun m p => if inPaths paths p then m ||| BitVec.ofNat 80 (hmask.toNat * 2 ^ (16 * pathNo p)) else m) 0

/-- Earlier values that no read may return any more, and that have left the home too, are forgotten. -/
def dropBlocked (l : List OldUnit) : List OldUnit := l.filter (fun o => !o.pkg || o.blocked != BitVec.allOnes 80)

/-- The first n earlier values of a unit get bits of `blocked`; the rest of the list is unchanged. -/
def blockFirst (u n : Nat) (m : BitVec 80) : List OldUnit → List OldUnit
  | [] => []
  | o :: r => if o.unit = u then (match n with
      | 0 => o :: r
      | k + 1 => { o with blocked := o.blocked ||| m } :: blockFirst u k m r)
    else o :: blockFirst u n m r

/-- One 8-byte unit of global memory as a read on a path through a handle may return it (R91): the newest value, or an earlier
one that is not ruled out. The read rules out everything older than what it returned for its path. -/
def readUnit (p : Path) (h : Fin 16) (u : Nat) (s : State) : Nat × State :=
  let cur := leNat (memGetN s.mem u 8)
  let mine := s.sys.old.filter (fun o => o.unit == u)
  let cand := (List.range mine.length).filter (fun i => match mine[i]? with
    | some o => !o.blocked.getLsbD (blockIx p h) | none => false)
  if mine.isEmpty then (cur, s)
  else
    let d := drawChoice s
    match cand[d.1 % (cand.length + 1)]? with
    | some i => ((mine[i]?.map (fun o => o.val.toNat)).getD cur,
        updSys (fun m => { m with old := dropBlocked (blockFirst u i (blockPath p) m.old) }) d.2)
    | none => (cur, updSys (fun m => { m with old := dropBlocked (blockFirst u mine.length (blockPath p) m.old) }) d.2)

/-- A store of a path whose bytes a read may take before it is performed: the entry, where it stands, its bytes, and whether it has
left the Paddock. -/
structure HeldStore where
  id : Nat
  key : Nat
  bytes : List Byte
  left' : Bool
  deriving DecidableEq, Repr

/-- The key and bytes of an entry that stores. -/
def OutBody.cells (b : OutBody) : Option (Nat × List Byte) :=
  match b with
  | .store _ key bs => some (key, bs)
  | .unlock va bs => some (va, bs)
  | .block _ key bs _ => some (key, bs)
  | .effect _ => none

/-- Stores of a path that are not performed, oldest first (R92). -/
def heldStores (s : State) (p : Path) : List HeldStore :=
  let hold := fun (left' : Bool) (e : OutEntry) =>
    if e.path == p then e.body.cells.map (fun c => (⟨e.id, c.1, c.2, left'⟩ : HeldStore)) else none
  ((s.out.leaving.filter (fun l => !l.atDie)).map (·.entry)).filterMap (hold true)
    ++ (s.out.paddock.map (·.entry) ++ s.out.port).filterMap (hold false)

/-- The byte of the newest store over a key that a read is given: of one that has not left the Paddock (R92), or of one that has and
whose value a read of the path has returned before, so that no older one may follow (R91). -/
def forwarded (seen : List (Nat × Nat)) (l : List HeldStore) (key : Nat) : Option (Nat × Byte) :=
  l.foldl (fun r e => if e.key ≤ key ∧ key < e.key + e.bytes.length ∧ (!e.left' || seen.contains (e.id, key / 8 * 8)) = true then
    (e.bytes[key - e.key]?).map (fun b => (e.id, b)) else r) none

/-- The held stores, by entry and unit, whose value a read of keys returns. -/
def seenBy (seen : List (Nat × Nat)) (l : List HeldStore) (keys : List Nat) : List (Nat × Nat) :=
  (keys.filterMap (fun k => if tierBase ≤ k then (forwarded seen l k).map (fun e => (e.1, k / 8 * 8)) else none)).eraseDups

/-- Distinct 8-byte units of keys, in order of first use. -/
def unitsOf (keys : List Nat) : List Nat := (keys.map (fun k => k / 8 * 8)).eraseDups

/-- The units of a global read, each with the value it returned (R89: one value for each aligned unit). -/
def readUnits (p : Path) (h : Fin 16) : List Nat → State → List (Nat × Nat) × State
  | [], s => ([], s)
  | u :: r, s =>
    let a := readUnit p h u s
    let b := readUnits p h r a.2
    ((u, a.1) :: b.1, b.2)

/-- A read of keys on a path through a handle: tiers by R91 with forwarding (R92), windows from the bank. -/
def readKeys (p : Path) (h : Fin 16) (keys : List Nat) (s : State) : List Byte × State :=
  let us := unitsOf (keys.filter (fun k => decide (tierBase ≤ k)))
  let r := readUnits p h us s
  let held := heldStores s p
  let seen := s.out.seen
  (keys.map (fun k =>
    if tierBase ≤ k then
      match forwarded seen held k with
      | some e => e.2
      | none => match r.1.find? (fun e => e.1 == k / 8 * 8) with
        | some e => BitVec.ofNat 8 (e.2 / 2 ^ (8 * (k % 8)))
        | none => memGet s.mem k
    else peek s k), updOut (fun o => { o with seen := o.seen ++ (seenBy seen held keys).filter (fun e => !o.seen.contains e) }) r.2)

/-- The first bad line among keys of tiers or of the own scratchpad (R308, R374). -/
def badKey (s : State) (keys : List Nat) : Option (Nat × BadKind) :=
  keys.findSome? (fun k => (badAt s k).map (fun b => (k, b)))

/-- Whether a write whose writer shares no narrower scope instance than `near` with the core, and that is performed there, is performed
at a scope for that core (R95, R96): below pkg the instance must hold both. -/
def performedAt (o : OldUnit) (sc : Scope) : Bool :=
  match sc with
  | .core => o.near == .core
  | .quad => o.near == .core || o.near == .quad
  | .die => o.near == .core || o.near == .quad || o.near == .die
  | .pkg | .pod => o.pkg

/-- An acquire at a scope over a range (R91, R98): values overtaken by a write performed at that scope are ruled out, and what
is older than them. -/
def acquire (sc : Scope) (paths : BitVec 5) (hmask : BitVec 16) (s : State) : State :=
  let m := blockRange paths hmask
  let f := fun (l : List OldUnit) => (l.foldr (fun o (acc : List OldUnit × List Nat) =>
      if performedAt o sc || acc.2.contains o.unit then ({ o with blocked := o.blocked ||| m } :: acc.1, o.unit :: acc.2)
      else (o :: acc.1, acc.2)) ([], [])).1
  updSys (fun y => { y with old := dropBlocked (f y.old) }) s

/-! ### Performing writes -/

/-- The bytes of the own scratchpad among those of a write from a key upward. -/
def spadCells (a : Nat) (bs : List Byte) : List Host.Cell :=
  (bs.zipIdx.map (fun e => (a + e.2, e.1))).filter (fun c => decide (c.1 < Config.scratchBytes))

/-- Scratchpad bytes that another party writes stand beside each checkpoint's own (R297). -/
def markForeign (a : Nat) (bs : List Byte) (s : State) : State :=
  let cs := spadCells a bs
  if cs.isEmpty then s
  else updRcv (fun r => { r with ckpts := r.ckpts.map (fun c => { c with foreign := c.foreign ++ cs }) }) s

/-- Scratchpad granules of byte keys join those written since the context started (R146). -/
def markSpad (keys : List Nat) (r : Rec) : Rec :=
  { r with spadWritten := (r.spadWritten ++ (keys.filter (fun k => decide (k < Config.scratchBytes))).map (fun k => k / 32)).eraseDups }

/-- The key at which a write to a window or tier lands: the own die window is the own scratchpad (R87). -/
def landKey (s : State) (key : Nat) : Nat :=
  match windowOf key with | .die n o => if dieTarget s n = dieIndex s then o else key | _ => key

/-- The line of a key (R300). -/
def lineOf (key : Nat) : Nat := key / 64

/-- A written line is whole again: the write replaces what was bad when it covers the line (R357). -/
def healLine (key n : Nat) (s : State) : State :=
  if key % 64 = 0 ∧ n = 64 then updSys (fun m => { m with bad := m.bad.filter (fun b => b.1 != key) }) s else s

/-- A change to the earlier values, of the current execution and of each one to which a rollback can return; `f` is told the commit of
the checkpoint, none for the current execution. -/
def mapOld (f : Option Nat → List OldUnit → List OldUnit) (s : State) : State :=
  updSys (fun m => { m with old := f none m.old })
    (updRcv (fun r => { r with ckpts := r.ckpts.map (fun c => { c with old := f (some c.commit) c.old }) }) s)

/-- A write to a tier enters the coherence order of its units (R90, R91): the overtaken value stays readable, but not on the
writer's own path when it is the core's own write; toward a checkpoint only a write of a commit at or before it counts (R108). -/
def writeTier (own : Option (Path × Nat)) (near : Scope) (home : Bool) (key : Nat) (bs : List Byte) (s : State) : State :=
  let us := unitsOf ((List.range bs.length).map (fun i => key + i))
  let olds := us.map (fun u => (⟨u, word (leNat (memGetN s.mem u 8)), 0, near, home⟩ : OldUnit))
  let bound := fun (c : Option Nat) (l : List OldUnit) =>
    match own with
    | some (p, n) => if (match c with | some k => decide (n < k) | none => true) then
        l.map (fun o => if us.contains o.unit then { o with blocked := o.blocked ||| blockPath p } else o) else l
    | none => l
  setMem (memPutN s.mem key bs) (mapOld (fun c l => dropBlocked (bound c (l ++ olds))) (healLine key bs.length s))

/-- The oldest of a unit's earlier values whose overtaking write had not reached the home has now been overtaken there too (R90,
R95). -/
def homeFirst (u : Nat) : List OldUnit → List OldUnit
  | [] => []
  | o :: r => if o.unit = u ∧ o.pkg = false then { o with pkg := true } :: r else o :: homeFirst u r

/-- A write of a core of the own die to a line's units has reached the home (R95): the oldest that had not. -/
def reachHome (key n : Nat) (s : State) : State :=
  let us := unitsOf ((List.range n).map (fun i => key + i))
  mapOld (fun _ l => dropBlocked (us.foldl (fun l u => homeFirst u l) l)) s

/-- A write of the core performed at a window's bank, or in a tier at the die coherence point: on a path, of a commit. -/
def performWrite (own : Option (Path × Nat)) (key : Nat) (bs : List Byte) (s : State) : State :=
  if tierBase ≤ key then writeTier own .core false key bs s
  else
    let k := landKey s key
    setMem (memPutN s.mem k bs) (updRcv (markSpad ((List.range bs.length).map (k + ·))) s)

/-- A write performed at the home of its location (R90, R103): the new value follows the newest. It is performed at every scope
at once: a core's own read-modify-write, on a path and of a commit, at all of that core's; the hub's, at pkg. -/
def writeHome (own : Option (Path × Nat)) (key : Nat) (bs : List Byte) (s : State) : State :=
  if tierBase ≤ key then writeTier own (if own.isSome then .core else .pkg) true key bs s else performWrite none key bs s

/-- The newest bytes at a key's home (R103, R104). -/
def readHome (key n : Nat) (s : State) : List Byte := (List.range n).map (fun i => peek s (key + i))

end Sys2Proof.Machine
end

