-- ==== Sys2Proof/Machine/Recover.lean ====
section
/-! DEFINITION. Landing of results (R46 to R50), the way out of the core (R18, R300), phases and checkpoints (R124 to R126, R294
to R298), rollback, reruns and retirement (R301 to R310). -/

namespace Sys2Proof.Machine

open Sys2Proof

/-! ### The run signature (R285) -/

/-- One step of a fold. -/
def foldBit (v : Nat) (s : Nat) (i : Nat) : Nat :=
  let f := (s / 2 ^ 63 + v / 2 ^ i) % 2
  let t := s * 2 % 2 ^ 64
  if f = 1 then t ^^^ 0x42F0E1EBA9EA3693 else t

/-- Fold(s, v) (R285). -/
def foldSig (s v : Word) : Word := word ((List.range 64).foldl (foldBit v.toNat) s.toNat)

/-- The 8-byte units of an entry's data in ascending order, a partial one zero-extended (R285). -/
def foldUnits : Nat → List Byte → List Word
  | 0, _ => []
  | n + 1, bs => if bs.isEmpty then [] else word (leNat (bs.take 8)) :: foldUnits n (bs.drop 8)

/-! ### The undo log (R295) -/

/-- The undo entries that a write to pieces of state by an operation of a commit needs: those that the newest checkpoint lacks, when
the operation issued after it. -/
def undoNeeds (commit : Nat) (ps : List Piece) (s : State) : List Piece :=
  match s.rcv.ckpts with
  | [] => []
  | c :: _ => if commit < c.commit then [] else (ps.filter (fun p => !c.touched.contains p)).eraseDups

/-- Pieces of state are about to be overwritten: the newest checkpoint gets the entries that are needed. -/
def touch (commit : Nat) (ps : List Piece) (s : State) : State :=
  match ps, s.rcv.ckpts with
  | [], _ | _, [] => s
  | _, c :: r => updRcv (fun k => { k with ckpts := { c with touched := c.touched ++ undoNeeds commit ps s } :: r }) s

/-- Values folded into k7, in order; k7 is a piece of state too. -/
def foldK7 (vs : List Word) (s : State) : State :=
  if vs.isEmpty then s
  else vs.foldl (fun t v => writeK 7 (foldSig (readK t 7) v) t) (touch s.rcv.commits [.k 7] s)

/-- The sticky flag registers that a result or an operation of a commit sets bits in (R138, R295). -/
def setFlags (commit : Nat) (v : BitVec 7) (m : BitVec 3) (s : State) : State :=
  orFlags v m (touch commit ((if v = 0 then [] else [.csr 0x801]) ++ (if m = 0 then [] else [.csr 0x802])) s)

/-- The pieces of one entry of a queue, at a place of its ring. -/
def queuePieces (q place n : Nat) : List Piece := (List.range ((n + 31) / 32)).map (fun i => Piece.q q (64 * (place % 4) + i))

/-- An entry appended to a queue (R178, R273). -/
def pushQ (commit : Nat) (q : Fin 4) (e : QEntry) (s : State) : State :=
  writeQ q (readQ s q ++ [e]) (touch commit (queuePieces q.val ((s.regs.qix.get q).val + (readQ s q).length) e.len) s)

/-- The pieces of a queue's oldest entry. -/
def headPieces (q : Fin 4) (s : State) : List Piece :=
  queuePieces q.val (s.regs.qix.get q).val (((readQ s q).head?.map (·.len)).getD 0)

/-- The oldest entry taken from a queue (R184). Taking it changes its pieces, which a rollback brings back: DEDUCED (72). -/
def popQ (commit : Nat) (q : Fin 4) (s : State) : State :=
  let t := touch commit (headPieces q s) s
  updRegs (fun r => { r with qix := r.qix.set q.val (Fin.ofNat 4 ((r.qix.get q).val + 1)) }) (writeQ q (readQ s q).tail t)

/-- The scratchpad granules of byte keys. -/
def granulePieces (keys : List Nat) : List Piece :=
  ((keys.filter (fun k => decide (k < Config.scratchBytes))).map (fun k => k / 32)).eraseDups.map Piece.granule

/-- The pieces of the destination of a result. -/
def destPieces (d : Dest) : List Piece :=
  match d with
  | .x n => [.x n.val]
  | .v n => (List.range 64).map (Piece.v n.val)
  | .vv n => (List.range 64).map (Piece.v n.val) ++ (List.range 64).map (Piece.v (companion n).val)
  | .p n => (List.range 2).map (Piece.p n.val)
  | .h n => [.h n.val]
  | .k n => [.k n.val]
  | .vshape => [.csr 0x800]
  | .csr n => [if 0x808 ≤ n.toNat ∧ n.toNat ≤ 0x815 then .loop ((n.toNat - 0x808) % 8) else .csr n.toNat]
  | .pat n => [.pat n.val 0, .pat n.val 1]
  | .map => [.misc 0]
  | .level n => [.level n.val]
  | .fillSlot => [.misc 1]
  | .gcfg _ _ => [.misc 2]
  | .none | .tile _ | .mem | .unlock _ | .check _ _ => []

/-- Bytes written into the own scratchpad by an operation of a commit: a checkpoint taken before it gets an undo entry,
one taken after it keeps the write as another party's (R295, R297). -/
def writeSpad (commit : Nat) (a : Nat) (bs : List Byte) (s : State) : State :=
  let keys := (List.range bs.length).map (a + ·)
  let t := touch commit (granulePieces keys) s
  setMem (memPutN t.mem a bs) (updRcv (fun r => { markSpad keys r with ckpts := r.ckpts.map (fun c =>
    if commit < c.commit then { c with foreign := c.foreign ++ spadCells a bs } else c) }) t)

/-- Bytes written into the own scratchpad by an effect that has left the Paddock: it belongs to a commit at or before every
checkpoint that a rollback can return to, so each of them holds it too (R108). -/
def writeKept (a : Nat) (bs : List Byte) (s : State) : State :=
  setMem (memPutN s.mem a bs) (updRcv (fun r => { markSpad ((List.range bs.length).map (a + ·)) r with ckpts := r.ckpts.map (fun c => { c with spad := memPutN c.spad a bs }) }) s)

/-! ### CSR writes (R123, R136 to R140) -/

/-- A loop entry's index or count written (R123); an entry at or above the depth stays absent. -/
def setLoop (k : Nat) (f : LoopEntry → LoopEntry) (s : State) : State := updSeq (fun q => { q with loops := modifyAt q.loops k f }) s

/-- A CSR written with a value already checked (R119). -/
def writeCsr (n : Nat) (w : Word) (s : State) : State :=
  let v := w.toNat
  match n with
  | 0x800 => updSeq (fun q => { q with vshape := BitVec.ofNat 20 v }) s
  | 0x801 => updSeq (fun q => { q with vflags := BitVec.ofNat 7 v }) s
  | 0x802 => updSeq (fun q => { q with mflags := BitVec.ofNat 3 v }) s
  | 0x808 => setLoop 0 (fun e => { e with index := w }) s
  | 0x809 => setLoop 1 (fun e => { e with index := w }) s
  | 0x80A => setLoop 2 (fun e => { e with index := w }) s
  | 0x80B => setLoop 3 (fun e => { e with index := w }) s
  | 0x80C => setLoop 4 (fun e => { e with index := w }) s
  | 0x80D => setLoop 5 (fun e => { e with index := w }) s
  | 0x810 => setLoop 0 (fun e => { e with count := w }) s
  | 0x811 => setLoop 1 (fun e => { e with count := w }) s
  | 0x812 => setLoop 2 (fun e => { e with count := w }) s
  | 0x813 => setLoop 3 (fun e => { e with count := w }) s
  | 0x814 => setLoop 4 (fun e => { e with count := w }) s
  | 0x815 => setLoop 5 (fun e => { e with count := w }) s
  | 0xCC4 => updSeq (fun q => { q with latcon := w }) s
  | 0x5C0 => updSeq (fun q => { q with yieldbound := BitVec.ofNat 32 v }) s
  | 0x5C1 => updSeq (fun q => { q with tcause := BitVec.ofNat 9 v }) s
  | 0x5C2 => updSeq (fun q => { q with tval := BitVec.ofNat 60 v }) s
  | 0x5C3 => updSeq (fun q => { q with tpc := BitVec.ofNat 21 v }) s
  | 0x5C5 => updSeq (fun q => { q with tvec := BitVec.ofNat 11 (v / 32) }) s
  | 0x5C7 => updSeq (fun q => { q with gmode := flag v 0 }) s
  | _ => s

/-! ### Landing -/

/-- A result's value reaches its destination and its flag bits are ORed in (R46, R205). -/
def landDest (f : Flight) (s : State) : State :=
  let t := touch f.commit (destPieces f.dest) s
  let u := match f.dest, f.val with
    | .x n, .x w => writeX f.sys n w t
    | .v n, .v b => writeV n b t
    | .vv n, .vv b c => writeV (companion n) c (writeV n b t)
    | .p n, .p b => writeP n b t
    | .h n, .h g => writeH n g t
    | .k n, .x w => writeK n w t
    | .vshape, .x w => writeCsr 0x800 w t
    | .csr n, .x w => writeCsr n.toNat w t
    | .pat n, .pat b => updRegs (fun r => { r with pat := r.pat.set n.val b }) t
    | .map, _ => updMat (fun m => { m with map := !m.map }) t
    | .level n, .lvl l => updCpy (fun c => { c with nest := c.nest.set n.val l }) t
    | .fillSlot, .x w => updCpy (fun c => { c with fill := w }) t
    | .gcfg a b, .x w => updCpy (fun c => { c with cfg := BitVec.ofNat 14 w.toNat, gh := a, sh := b }) t
    | _, _ => t
  setFlags f.commit f.vfl f.mfl u

/-- A result leaves the in-flight list. -/
def dropFlight (id : Nat) (s : State) : State :=
  updPipe (fun p => { p with flight := p.flight.filter (fun f => f.id != id) }) s

/-- A result in flight changed. -/
def updFlight (id : Nat) (g : Flight → Flight) (s : State) : State :=
  updPipe (fun p => { p with flight := p.flight.map (fun f => if f.id == id then g f else f) }) s

/-- Whether the core saves a context whose program is frozen (R148, R306). -/
def saving (s : State) : Bool := match s.seq.run with | .saving _ | .retired => true | _ => false

/-- Whether a pre-emption holds up the streams of the D engine (R281). -/
def pausing (s : State) : Bool := saving s || (match s.seq.preempt with | some p => p.forced | none => false)

/-- Whether a result is frozen in a record: a program-level one while a handler runs, or while the context is saved (R144,
R148). -/
def frozen (s : State) (f : Flight) : Bool := !f.sys && (atSystem s || saving s)

/-- The value that replaces one that never comes: 0 in every byte (R414). -/
def zeroVal (d : Dest) : FVal :=
  match d with
  | .x _ | .k _ => .x 0
  | .v _ => .v 0
  | .vv _ => .vv 0 0
  | .p _ => .p 0
  | .h _ => .h 0
  | _ => .unit

/-- A value arrives for a result: it fills the destination when the landing cycle has passed, else it waits for that cycle; in a
record it waits for TRET (R49, R50, R144). Every live checkpoint that holds the pending result gets it too (R298), and so does a
saved context (R306). -/
def deliver (id : Nat) (v : FVal) (s : State) : State :=
  let fill := fun (l : List Flight) => l.map (fun f => if f.id == id then { f with val := v, variable' := false, acc := none } else f)
  let s := updRcv (fun r => { r with ckpts := r.ckpts.map (fun c => { c with flight := fill c.flight })
                                     asides := r.asides.map (fun a => { a with flights := fill a.flights }) }) s
  match s.pipe.flight.find? (fun f => f.id == id) with
  | none => s
  | some f =>
    if f.late && !frozen s f then landDest { f with val := v } (dropFlight id s)
    else updFlight id (fun f => { f with val := v, variable' := false, acc := none }) s

/-- A load's bytes as a register value (R117, R164). -/
def shapeVal (sh : LoadShape) (bs : List Byte) : FVal :=
  match sh with
  | .scalar n signed => .x (if signed then wordOf (signExt (leNat bs) (8 * n)) else word (leNat bs))
  | .vector => .v (BitVec.ofNat 16384 (leNat bs))
  | .descriptor => .h (BitVec.ofNat 256 (leNat bs))

/-! ### Error log and counters (R310, R311) -/

/-- A record of Yard's error log. -/
def logErr (kind place commits entries : Nat) (phase : BitVec 48) (s : State) : State :=
  let core := word (pkgIndex s % 96 + s.id.die.val * 128 + s.id.package.toNat * 1024 + s.id.pod.toNat * 2 ^ 20)
  updRcv (fun r => { r with errlog := r.errlog ++ [⟨BitVec.ofNat 8 kind, BitVec.ofNat 8 place, (s.seq.ctx.map (·.vf)).getD 0,
    commits, entries, core, s.seq.cycle, phase⟩] }) s

/-- A saturating 64-bit counter. -/
def satAdd64 (a : BitVec 64) (n : Nat) : BitVec 64 := BitVec.ofNat 64 (min (a.toNat + n) (2 ^ 64 - 1))

/-- A counter of a virtual function's error block, and of the physical function's sum (R311, R312). -/
def errAddTo (vf : Nat) (i : Fin 16) (n : Nat) (s : State) : State :=
  updHub (fun h => { h with
    vfs := h.vfs.map (fun v => if v.vf == vf then { v with err := v.err.set i.val (satAdd64 (v.err.get i) n) } else v)
    pfErr := h.pfErr.set i.val (satAdd64 (h.pfErr.get (Fin.ofNat 32 i.val)) n) }) s

/-- An error in a shared structure is counted in the physical function's block alone, from offset 0x80 upward (R312): 16 the flits
of the die links that fail their tags, 17 the retrains of HBM4E channels. DESIGN CHOICE (97): which errors are counted, and where. -/
def sharedErr (i : Fin 32) (s : State) : State :=
  updHub (fun h => { h with pfErr := h.pfErr.set i.val (satAdd64 (h.pfErr.get i) 1) }) s

/-- A virtual function's error block is reset, and leaves the physical function's sum (R311, R312). -/
def resetErr (vf : Nat) (s : State) : State :=
  match s.hub.vfs.find? (fun v => v.vf == vf) with
  | none => s
  | some v => updHub (fun h => { h with
      vfs := h.vfs.map (fun x => if x.vf == vf then { x with err := Vector.replicate 16 0 } else x)
      pfErr := (List.finRange 16).foldl (fun p i =>
        p.set i.val (BitVec.ofNat 64 ((p.get (Fin.ofNat 32 i.val)).toNat - (v.err.get i).toNat))) h.pfErr }) s

/-- Part of a counter is taken back: a rollback undoes the commits that raised it (R249, R311). -/
def errTakeBack (i : Fin 16) (n : Nat) (s : State) : State :=
  let less := fun (a : BitVec 64) => BitVec.ofNat 64 (a.toNat - n)
  match s.seq.ctx with
  | none => s
  | some c => updHub (fun h => { h with
      vfs := h.vfs.map (fun v => if v.vf == c.vf then { v with err := v.err.set i.val (less (v.err.get i)) } else v)
      pfErr := h.pfErr.set i.val (less (h.pfErr.get (Fin.ofNat 32 i.val))) }) s

/-- A counter of the error block of the context's virtual function. -/
def errAdd (i : Fin 16) (n : Nat) (s : State) : State :=
  match s.seq.ctx with
  | none => s
  | some c => errAddTo c.vf i n s

/-- An uncorrectable error of an HBM line is counted (R357). -/
def hbmCount (a : Nat) (s : State) : State :=
  if windowOf a == .global && (match walk s a with | .ok x => decide (globalKey [x] a < tierKey 1 0) | .error _ => false) then errAdd 10 1 s else s

/-- A memory fault that traps is counted (R311), and one that is uncorrectable has its record (R310). -/
def noteFault (c : BitVec 8) (a : Nat) (s : State) : State :=
  if c = cIntegrity then errAdd 11 1 s
  else if c = cUncorrectable then logErr 6 0 0 0 s.seq.phase (errAdd 8 1 (hbmCount a s))
  else s

/-! ### Writes outstanding -/

/-- Whether an outbound entry is a write of an access on (p, h) numbered below a bound. -/
def OutEntry.writes (e : OutEntry) (p : Path) (h : Fin 16) (before : Nat) : Bool :=
  (match e.body with | .effect _ => false | _ => true)
    && e.path == p && e.h == h && decide (e.acc < before)

/-- Whether a scope is pkg or pod, where a write is performed at its home (R95). -/
def scopeFar (sc : Scope) : Bool := match sc with | .pkg | .pod => true | _ => false

/-- Whether an access on (p, h) numbered below a bound has a write not yet performed at a scope: in flight to the own banks, on
its way out, released, or still to be made by a copy, a stream or a retirement (R98, R171, R175). -/
def writesLeft (s : State) (p : Path) (h : Fin 16) (sc : Scope) (before : Nat) : Bool :=
  s.pipe.flight.any (fun f => (match f.val with | .bytes _ => true | _ => false) && f.acc == some (p, h) && decide (f.id < before))
  || s.out.port.any (fun e => e.writes p h before)
  || s.out.paddock.any (fun e => e.entry.writes p h before)
  || s.out.leaving.any (fun e => e.entry.writes p h before && (scopeFar sc || !e.atDie))
  || s.cpy.cmds.any (fun c => decide (c.id < before) && c.hd == h && !c.silent
      && (match c.kind with | .coll _ _ _ _ _ => p == .c | .tinv => false | _ => p == .d && c.stage != .held))
  || (match s.cpy.scatter with | some t => p == .g && t.dh == h && decide (t.id < before) | none => false)
  || (match s.mat.ret with | some r => p == .m && r.h == h && decide (r.id < before) | none => false)

/-- Whether a command or access has writes on the way out, by scope. -/
def accLeft (s : State) (acc : Nat) (sc : Scope) : Bool :=
  s.out.port.any (fun e => e.acc == acc) || s.out.paddock.any (fun e => e.entry.acc == acc)
  || s.out.leaving.any (fun e => e.entry.acc == acc && (scopeFar sc || !e.atDie))

/-- Whether a producer of writes under an access number is still at work, so that more entries may follow. -/
def accBusy (s : State) (acc : Nat) : Bool :=
  s.cpy.cmds.any (fun c => c.id == acc && c.stage != .moved)
  || (match s.cpy.scatter with | some t => t.id == acc | none => false)
  || (match s.mat.ret with | some r => r.id == acc | none => false)

/-- A held-back effect's own condition for leaving the pending list (R105, R124, R175). -/
def effectReady (s : State) (e : OutEntry) : Bool :=
  match e.body with
  | .effect (.copyInc cmd _ _ _ sc) => !s.cpy.cmds.any (fun c => c.id == cmd) && !accLeft s cmd sc
  | .effect (.scatterInc st _ _ _ sc) => !(match s.cpy.scatter with | some t => t.id == st | none => false) && !accLeft s st sc
  | .effect (.relh items paths _) =>
    items.all (fun i => allPaths.all (fun p => !inPaths paths p || !writesLeft s p i.h i.scope e.acc))
  | _ => true

/-! ### Phases and checkpoints -/

/-- The class code, address and operand that a commit folds for an effect (R285). -/
def effectFold (b : Effect) : Nat × Nat × Nat :=
  match b with
  | .atomic a _ _ _ x _ _ => (1, a.toNat, x.toNat)
  | .relh _ _ m => (2, 0, m.toNat)
  | .emit _ _ _ a => (3, a.toNat, 0)
  | .copyInc _ a _ n _ => (4, a.toNat, n)
  | .scatterInc _ a _ n _ => (4, a.toNat, n)
  | .bar sc i => (5, 0, scopeCode sc * 512 + i.val)
  | .held _ a n => (6, a.toNat, n)
  | .trust op a _ _ _ _ _ => (7, a.toNat,
      match op with | .kgen => 3 | .krot => 4 | .seal => 5 | .unseal => 6 | .scrub => 7 | .mclrchk => 15)
  | .release _ _ _ a => (8, a.toNat, 0)

/-- The two folds of an effect (R285, step 3). -/
def effectWords (e : OutEntry) : List Word :=
  match e.body with
  | .effect b => let f := effectFold b; [word (f.1 * 2 ^ 56 + f.2.1 % 2 ^ 56), word f.2.2]
  | _ => []

/-- Whether an operation that issued after one commit and before another still awaits a check: a duplicate, a shadow or a KCHK
comparison, or an MMA's residue (R294, R303). -/
def awaits (s : State) (lo hi : Nat) : Bool :=
  let inPhase := fun n => decide (lo ≤ n) && decide (n < hi)
  s.pipe.flight.any (fun f => inPhase f.commit && !f.sys && (f.dup.isSome || f.shadow.isSome
    || (match f.dest with | .check _ guarded => guarded | _ => false)))
  || (match s.mat.mma with | some m => inPhase m.commit | none => false)

/-- Whether a checkpoint is live, given the next one (R294): it is the latest at or before now − 480 or a later one, or a check or a
rerun needs it. -/
def ckptLive (s : State) (next : Option Ckpt) (c : Ckpt) : Bool :=
  match next with
  | none => true
  | some d => !decide (d.wall + Config.strikeBound ≤ s.pipe.wall) || awaits s c.commit d.commit
      || (match s.rcv.rerun with | some r => r.base == c.commit | none => false)

/-- The live ones of checkpoints (newest first). The undo entries of one that is not stay with the next older live one: an entry is
freed when every checkpoint older than it has stopped being live (R295). -/
def liveCkpts (s : State) : Option Ckpt → List Ckpt → List Ckpt
  | _, [] => []
  | next, c :: r =>
    if ckptLive s next c then c :: liveCkpts s (some c) r
    else match liveCkpts s (some c) r with
      | [] => []
      | o :: q => { o with touched := o.touched ++ c.touched } :: q

/-- The checkpoints that count (R294). -/
def live (s : State) : List Ckpt := liveCkpts s none s.rcv.ckpts

/-- Entries of the undo log in use (R295). -/
def undoUsed (s : State) : Nat := ((live s).map (fun c => c.touched.length)).sum

/-- Whether a write to pieces of state must wait for entries of the undo log (R295). -/
def undoBlocked (commit : Nat) (ps : List Piece) (s : State) : Bool :=
  !(undoNeeds commit ps s).isEmpty && decide (4096 ≤ undoUsed s)

/-- Room for a commit (R125, R294): a checkpoint is free, and the pending list takes the effects that must wait. -/
def commitRoom (s : State) : Bool :=
  let wait := (s.out.heldBack.filter (fun e => !effectReady s e)).length
  decide ((live s).length < 8) && decide (s.out.pending.length + wait ≤ 64)

/-- A checkpoint of the state as it stands (R294). One that a handler's commit takes resumes the interrupted program, since a
rollback abandons the handler (R302, assumption 11). -/
def takeCkpt (s : State) : State :=
  let n := s.rcv.commits + 1
  let q := if atSystem s then { resumed s with level := .system } else s.seq
  let c : Ckpt := ⟨n, s.pipe.wall, s.pipe.issue, q, s.regs, s.mat, s.cpy, s.pipe.flight, spadOf s.mem, [], s.sys.old,
    s.out.seen, s.out.grants, s.out.heldBack, [], Vector.replicate 4 false⟩
  updRcv (fun r => { r with ckpts := c :: live s, commits := n, cancelled := none }) s

/-- An increment whose copy or stream ended by a fault: it never adds anything (R269). -/
def failedInc (s : State) (e : OutEntry) : Bool :=
  match e.body with
  | .effect (.copyInc c _ _ _ _) => s.out.failed.contains c
  | .effect (.scatterInc c _ _ _ _) => s.out.failed.contains c
  | _ => false

/-- The halves of the refill lists change at a commit: what a phase captured becomes the list (R309). -/
def commitRefill (c : Cpy) : Cpy :=
  { c with capture := [], refill := c.capture.map (fun e => (e.1, if e.2.2 then [] else e.2.1)) }

/-- A committed count with a pending one joined (R249). -/
def joinCount (com pend : BitVec 32) : BitVec 32 := BitVec.ofNat 32 (min (com.toNat + pend.toNat) (2 ^ 32 - 1))

/-- Pending exception counts join the committed ones (R249); the error block follows these (R311). -/
def commitCounts (s : State) : State :=
  let sat := joinCount s.mat.comSat s.mat.pendSat
  let ovf := joinCount s.mat.comOvf s.mat.pendOvf
  let t := errAdd 12 (sat.toNat - s.mat.comSat.toNat) (errAdd 13 (ovf.toNat - s.mat.comOvf.toNat) s)
  updMat (fun m => { m with comSat := sat, comOvf := ovf, pendSat := 0, pendOvf := 0 }) t

/-- A commit (R125): the phase number rises, PSWAP toggles the parity, the held-back list goes to the port or the pending list,
and a checkpoint is taken. At program level its effects are folded (R285). -/
def commit (kind : CommitKind) (s : State) : State :=
  let s := if atSystem s then s else foldK7 (s.out.heldBack.flatMap effectWords) s
  let s := updSeq (fun q => { q with
    phase := q.phase + 1
    parity := (match kind with | .swap => !q.parity | .commit => q.parity) }) s
  let live := s.out.heldBack.filter (fun e => !failedInc s e)
  let ready := live.filter (effectReady s)
  let wait := live.filter (fun e => !effectReady s e)
  let s := updOut (fun o => { o with heldBack := [], failed := [], port := o.port ++ ready, pending := o.pending ++ wait }) s
  takeCkpt (updCpy commitRefill (commitCounts s))

/-! ### Rollback (R297, R301) -/

/-- Each 8-byte unit that another party wrote since the checkpoint takes that party's bytes, or, in a granule that the core
wrote too, those or the restored ones: a free choice (R297). -/
def mergeForeign (own : List Nat) (cells : List Host.Cell) : List Nat → Memory → State → Memory × State
  | [], sp, s => (sp, s)
  | u :: r, sp, s =>
    let theirs := (cells.filter (fun c => c.1 / 8 * 8 == u)).foldl (fun m c => memPut m c.1 c.2) sp
    if own.contains (u / 32) then
      let d := drawChoice s
      mergeForeign own cells r (if d.1 % 2 = 0 then sp else theirs) d.2
    else mergeForeign own cells r theirs s

/-- The scratchpad granules that have an undo entry made since a checkpoint. -/
def touchedSince (c : Ckpt) (s : State) : List Nat :=
  (s.rcv.ckpts.filter (fun k => decide (c.commit ≤ k.commit))).flatMap (fun k =>
    k.touched.filterMap (fun p => match p with | .granule n => some n | _ => none))

/-- Whether an outbound entry belongs at or before a checkpoint: entries of later phases carry its commit number or more. -/
def OutEntry.keeps (c : Ckpt) (e : OutEntry) : Bool := decide (e.commit < c.commit)

/-- The commands that a rollback keeps: those issued before the checkpoint (R280). -/
def keepCmds (c : Ckpt) (s : State) : List DCmd := s.cpy.cmds.filter (fun d => decide (d.commit < c.commit))

/-- Dirty marks set again: a page's mark is never cleared without its bytes in the stream (R279). -/
def remark (leaves : List Nat) (s : State) : State :=
  leaves.foldl (fun t a => setMem (memPutN t.mem a (leBytes 8 ((entryWords t a).1 ||| 0x20))) t) s

/-- The pages whose record a return to a checkpoint discards, in part or whole: those of a cancelled snapshot whose bytes are not all
written, are still in the core, or went to a dry run (R279, R280, R304). -/
def lostPages (c : Ckpt) (s : State) : List Nat :=
  let dry := match s.rcv.rerun with | some r => r.kind == .dry | none => false
  (s.cpy.cmds.filter (fun d => d.kind == .snap && decide (c.commit ≤ d.commit))).flatMap (fun d =>
    (d.cleared.filter (fun p => dry || decide (d.written < p.2.2) || (s.out.port ++ s.out.paddock.map (·.entry)).any (fun e => e.acc == d.id
      && (match e.body with
        | .store va _ _ => decide (d.dst.toNat + p.2.1 ≤ va) && decide (va < d.dst.toNat + p.2.2)
        | _ => false)))).map (·.1))

/-- The matrix engine at a checkpoint, operations issued before it at their present progress (R251). -/
def restoreMat (c : Ckpt) (s : State) : Mat :=
  { c.mat with
    mma := (match c.mat.mma, s.mat.mma with | some a, some b => if a.id = b.id then some b else some a | a, _ => a)
    load := (match c.mat.load, s.mat.load with | some a, some b => if a.id = b.id then some b else some a | a, _ => a)
    ret := (match c.mat.ret, s.mat.ret with | some a, some b => if a.id = b.id then some b else some a | a, _ => a) }

/-- The counter on which a command's reads count while it still reads (R267, R268, R278, R279): a copy's `link` is 1 once its
last read is fixed. -/
def DCmd.readCnt (c : DCmd) : Option (Path × Fin 16) :=
  match c.kind with
  | .copy .fill => none
  | .copy _ => if c.stage == .held || c.link == 1 then none else some (.d, c.hs)
  | .coll _ _ _ _ _ => some (.c, c.hs)
  | .snap => some (.d, c.hs)
  | .tinv => none

/-- The counter on which its writes count. -/
def DCmd.writeCnt (c : DCmd) : Option (Path × Fin 16) :=
  match c.kind with
  | .copy _ => if c.stage == .held then none else some (.d, c.hd)
  | .coll _ _ _ _ _ => some (.c, c.hd)
  | .snap => some (.d, 15)
  | .tinv => none

/-- The handle of the line access that a stream has in flight: an index line, or an element of a gather (R274). -/
def Stream.reading (t : Stream) : Option (Fin 16) :=
  if t.line.isEmpty then (if t.pos < t.count ∧ t.open' then some t.ih else none)
  else if t.queue.val < 2 ∧ t.open' then some t.dh else none

/-- The counters after a rollback: cancelled accesses no longer count, released writes and those issued before stay (R172).
Every access is counted once on each (path, handle) that it uses. -/
def recount (s : State) : Vector Counts 80 :=
  let zero : Vector Counts 80 := Vector.replicate 80 ⟨0, 0, 0, 0⟩
  let up := fun (v : Vector Counts 80) (p : Path) (h : Fin 16) (f : Counts → Counts) =>
    v.set (cntIx p h).val (f (v.get (cntIx p h)))
  let rd := fun (c : Counts) => { c with rd := c.rd + 1 }
  let wr := fun (c : Counts) => { c with wd := c.wd + 1, wk := c.wk + 1, wo := c.wo + 1 }
  let far := fun (c : Counts) => { c with wk := c.wk + 1, wo := c.wo + 1 }
  let v := s.pipe.flight.foldl (fun v f => match f.acc with
    | some (p, h) => up v p h (match f.val with | .bytes _ => wr | _ => rd)
    | none => v) zero
  let gWrites := ((s.out.port ++ s.out.paddock.map (·.entry) ++ s.out.leaving.map (·.entry)).filter (fun e => e.path == .g && !e.quiet
    && (match e.body with | .effect _ => false | _ => true)))
  let v := gWrites.foldl (fun v e => up v .g e.h (if s.out.leaving.any (fun l => l.entry.id == e.id && l.atDie) then far else wr)) v
  let stores := ((s.out.port ++ s.out.paddock.map (·.entry)).filter (fun e => !e.quiet && match e.body with | .effect _ => false | _ => true))
  let released := s.out.leaving.filter (fun e => !e.entry.quiet && match e.entry.body with | .effect _ => false | _ => true)
  let ids := ((stores.filter (fun e => e.path != .g)).map (·.acc) ++ (released.filter (fun e => e.entry.path != .g)).map
    (·.entry.acc)).eraseDups.filter (fun a => !s.cpy.cmds.any (fun c => c.id == a)
    && !(match s.mat.ret with | some r => r.id == a | none => false))
  let v := ids.foldl (fun v a => match stores.find? (fun e => e.acc == a) with
    | some e => up v e.path e.h wr
    | none => match released.find? (fun e => e.entry.acc == a && !e.atDie) with
      | some e => up v e.entry.path e.entry.h wr
      | none => match released.find? (fun e => e.entry.acc == a) with
        | some e => up v e.entry.path e.entry.h far
        | none => v) v
  let v := s.cpy.cmds.foldl (fun v c => if c.silent then v else
    let v := match c.readCnt with | some (p, h) => up v p h rd | none => v
    match c.writeCnt with
    | some (p, h) => if accBusy s c.id || accLeft s c.id .die then up v p h wr else if accLeft s c.id .pkg then up v p h far else v
    | none => v) v
  let v := match s.cpy.gather.bind Stream.reading with | some h => up v .g h rd | none => v
  let v := match s.cpy.scatter.bind Stream.reading with | some h => up v .g h rd | none => v
  let v := match s.mat.mma with | some m => if m.read.length < m.rows * m.planes then up v .m m.h rd else v | none => v
  let v := match s.mat.load with
    | some m => if m.read.length < m.hi + 1 - m.lo + 2 * m.metas.length then up v .m m.h rd else v
    | none => v
  match s.mat.ret with | some m => up v .m m.h wr | none => v

/-- The modelled core waits at a stage queue as its results in flight say: for an item when a NEXTITEM is pending, for no slot
(an EMIT asks again when it is tried again). -/
def hubWaits (s : State) : State :=
  let me := pkgIndex s
  let item := s.pipe.flight.any (fun f => f.val == .awaited .item)
  updHub (fun h => { h with launches := h.launches.map (fun l => if s.seq.ctx.any (fun c => c.launch == l.id) then { l with queues := l.queues.map (fun q => { q with
    emitters := q.emitters.filter (fun c => c.2 != me)
    takers := if item then q.takers else q.takers.filter (fun c => c != me) }) } else l) }) s

/-- Granules of the save area whose write a return to a checkpoint discards: the area still differs there (R302, R336). -/
def lostGranules (c : Ckpt) (s : State) : List Nat :=
  match s.rcv.area with
  | some a => ((s.out.port ++ s.out.paddock.map (·.entry)).filter (fun e => !e.keeps c)).filterMap (fun e => match e.body with
      | .store va _ _ => if a.toNat ≤ va ∧ va < a.toNat + 0x200000 then some ((va - a.toNat) / 32) else none
      | _ => none)
  | none => []

/-- The state at a checkpoint (R297, R301 steps 2 to 5): later entries, accesses and operations are cancelled, released ones
stay, and fetch resumes at the checkpoint's next unit. `cycle`, `instret` and the error counters are not restored; registers
of R136 outside the context stay. The earlier values that reads may return are those that the checkpoint keeps for this case, bounded
by nothing that the discarded execution did (R108). -/
def restore (c : Ckpt) (s : State) : State :=
  let s := errTakeBack 12 (s.mat.comSat.toNat - c.mat.comSat.toNat) (errTakeBack 13 (s.mat.comOvf.toNat - c.mat.comOvf.toNat) s)
  let sp := mergeForeign (touchedSince c s) c.foreign (unitsOf (c.foreign.map (·.1))) c.spad s
  let s := sp.2
  let lost := remark (lostPages c s) s
  let mem := withSpad sp.1 lost.mem
  let q := { c.seq with
    sx := Vector.replicate 32 0, level := .program, token := none, handlerWait := none
    cycle := s.seq.cycle, instret := s.seq.instret, yieldbound := s.seq.yieldbound, tvec := s.seq.tvec
    tenant := s.seq.tenant, preempt := s.seq.preempt, heldOverrun := s.seq.heldOverrun, ctx := s.seq.ctx }
  let t : State := { s with
    seq := q, regs := c.regs, mat := restoreMat c s, mem := mem, cyc := none
    cpy := { c.cpy with cmds := keepCmds c s }
    sys := { s.sys with old := c.old
                        locks := s.sys.locks.filter (fun l => !(l.ownerCore == dieIndex s && decide (c.commit ≤ l.commit)))
                        lockWaits := s.sys.lockWaits.filter (fun w => w.fromCore != dieIndex s
                          || c.flight.any (fun f => w.flight == some f.id)) }
    pipe := { s.pipe with
      issue := c.issue, flight := c.flight.filter (fun f => !f.sys), busyV0 := 0, busyV1 := 0, busyF := 0
      busyDiv := 0, found := s.pipe.found.map (fun _ => []) }
    out := { s.out with
      heldBack := c.heldBack, pending := s.out.pending.filter (OutEntry.keeps c), port := s.out.port.filter (OutEntry.keeps c)
      paddock := s.out.paddock.filter (fun e => e.entry.keeps c), grants := c.grants, emitWait := none, waiting := false, paid := 0, issuePaid := 0
      seen := c.seen
      refusals := s.out.refusals.map (fun r => { r with cnt := none }) }
    rcv := { s.rcv with
      ckpts := (s.rcv.ckpts.filter (fun k => decide (k.commit ≤ c.commit))).map (fun k =>
        if k.commit = c.commit then { k with touched := [], shadows := Vector.replicate 4 false } else k)
      commits := c.commit, undoArmed := s.rcv.undoArmed && !s.rcv.forceDue, forceDue := false, forceWait := false, saveAcc := none, settling := true
      image := s.rcv.image.filter (fun e => !(lostGranules c s).contains e.1) } }
  (hubWaits { t with out := { t.out with cnt := recount t } })

/-- A change to the effects held back or waiting, in the live checkpoints too. -/
def mapHeld (f : OutEntry → OutEntry) (s : State) : State :=
  updRcv (fun r => { r with ckpts := r.ckpts.map (fun c => { c with heldBack := c.heldBack.map f }) })
    (updOut (fun o => { o with pending := o.pending.map f, heldBack := o.heldBack.map f }) s)

/-- Paddock entries that a return to a checkpoint discards. -/
def discarded (c : Ckpt) (s : State) : Nat := (s.out.paddock.filter (fun e => !e.entry.keeps c)).length

/-- The checkpoint that a strike report returns to (R19, R301): the latest commit at or before d − 480; with none, the start or
resumption that took the oldest checkpoint. -/
def strikeTarget (s : State) : Option Ckpt :=
  match s.rcv.ckpts.find? (fun c => decide (c.wall + Config.strikeBound ≤ s.pipe.wall)) with
  | some c => some c
  | none => s.rcv.ckpts.getLast?

/-- The checkpoint that a mismatch returns to (R303): the latest commit of a bundle issued before the checked operation's, given the
commits made before that operation issued. -/
def mismatchTarget (s : State) (commit : Nat) : Option Ckpt := s.rcv.ckpts.find? (fun c => decide (c.commit ≤ commit))

/-- A dry run from a checkpoint starts (R304). -/
def startDry (c : Ckpt) (s : State) : State :=
  updRcv (fun r => { r with rerun := some ⟨.dry, c.commit, c.issue, 0, 0, false, 0, none, false, false, none⟩ }) s

/-- A mismatch that a landing or an engine has found: the slot, the checked operation's issue cycle and commit, a KCHK's word. -/
structure Found where
  slot : Slot
  origin : Nat
  commit : Nat
  word : SlotWord
  deriving DecidableEq, Repr

/-- The detected mismatches of one cycle (R303, R304), each counted and logged: outside a rerun the core returns to the earliest of
their targets and starts the dry run; in a run the first ends the run, whose outcome returns to the run's start. -/
def mismatches (ms : List Found) (s : State) : State :=
  match ms with
  | [] => s
  | m :: r =>
    let least := r.foldl (fun n x => min n x.commit) m.commit
    let target := match s.rcv.rerun with
      | some run => s.rcv.ckpts.find? (fun c => c.commit == run.base)
      | none => mismatchTarget s least
    let note := fun (t : State) (x : Found) =>
      let ix : Fin 16 := match x.slot with | .v1 => 1 | .m => 2 | _ => 3
      logErr 2 (slotNo x.slot) (s.rcv.commits - (target.map (·.commit)).getD s.rcv.commits) ((target.map (fun c => discarded c s)).getD 0)
        ((target.map (·.seq.phase)).getD s.seq.phase) (errAdd ix 1 t)
    let t := ms.foldl note s
    match s.rcv.rerun with
    | some run =>
      let first := match run.mis with | some x => x | none => ⟨m.slot, m.origin - run.startIssue, readK s 7, m.word⟩
      updRcv (fun k => { k with rerun := some { run with mis := some first, ended := true } }) t
    | none => match target with
      | none => t
      | some c => startDry c (restore c t)

/-- A result is shadowed and duplicated (R204, R293): whether each copy agrees as the result lands. -/
def dupBad (f : Flight) : Bool :=
  match f.dup, f.val with | some (b, fl), .v c => b != c || fl != f.vfl | _, _ => false

/-- Whether the shadow ALU's copy differs from the value that lands. -/
def shadowBad (f : Flight) : Bool := match f.shadow, f.val with | some w, .x v => w != v | _, _ => false

/-- A detected mismatch, or a fault, that the landing of a result brings to light (R204, R288, R289, R293, R156): whether a KCHK was
issued under guarded mode decides between the two (R289). -/
def landNotes (f : Flight) : List Found × List FaultRec :=
  let mis := (if dupBad f then [⟨.v1, f.origin, f.commit, 0⟩] else []) ++ (if shadowBad f then [⟨.k, f.origin, f.commit, 0⟩] else [])
  match f.dest, f.val with
  | .check w guarded, .cmp false =>
    if guarded && !f.sys then (mis ++ [⟨.k, f.origin, f.commit, w⟩], [])
    else (mis, [⟨cCheckMismatch, tvalWord .k w.toNat, .k, f.sys⟩])
  | _, .h g =>
    (mis, if descriptorOk g then [] else [⟨cBadData, tvalAddr .l ((f.read.map (·.va)).getD 0), .l, f.sys⟩])
  | _, _ => (mis, [])

/-- A result lands; a refused descriptor leaves its handle as it was (R156). -/
def landOne (f : Flight) (s : State) : State :=
  match f.dest, f.val with
  | .h _, .h g => if descriptorOk g then landDest f (dropFlight f.id s) else dropFlight f.id s
  | _, _ => landDest f (dropFlight f.id s)

/-- A result that lands takes the place of what an earlier bundle's still late one would bring to the same register: of one landing
cycle the later bundle's result is kept, and of two the later landing's (R46). DEDUCED (73). -/
def supersede (landed : List Flight) (f : Flight) : Flight :=
  if f.late && landed.any (fun g => decide (f.id < g.id) && g.sys == f.sys && g.dest.covers f.dest) then { f with dest := .none } else f

/-- What the landings of a cycle brought to light: a mismatch rolls the core back, and cancels the faults found with it; else
the faults are raised in slot order (R142, R303). -/
def settle (mis : List Found) (faults : List FaultRec) (s : State) : State :=
  if mis.isEmpty then
    (match s.pipe.found with
     | some _ => faults.foldl (fun t f => raiseDeferred f t) s
     | none => deliverFaults faults s)
  else mismatches mis s

/-- The checks of results that are frozen in records complete while they are frozen (R313): a mismatch abandons the handler or the
save. DESIGN CHOICE (74): they complete in the first wall cycle of the freeze. -/
def frozenChecks (s : State) : State :=
  let held := fun (f : Flight) => frozen s f && f.val.present && (f.dup.isSome || f.shadow.isSome
    || (match f.dest with | .check _ guarded => guarded | _ => false))
  if !s.pipe.flight.any held then s
  else
    let isCheck := fun (f : Flight) => match f.dest with | .check _ _ => true | _ => false
    mismatches ((s.pipe.flight.filter held).flatMap (fun f => (landNotes f).1))
      (updPipe (fun p => { p with flight := (p.flight.filter (fun f => !(held f && isCheck f))).map (fun f =>
        if held f then { f with dup := none, shadow := none } else f) }) s)

/-! ### Memory errors (R307, R308) -/

/-- The cause of a deferred memory fault. -/
def badCause (k : BadKind) : BitVec 8 := match k with | .uncorrectable => cUncorrectable | .integrity => cIntegrity

/-- An uncorrectable error is consumed (R308): under guarded mode an error in the core's state, or in a line read through a
guarded handle, cancels the phase; else it is a deferred UNCORRECTABLE. A second error at the same address before the next
commit of the re-execution traps. -/
def consume (place : ErrWhere) (sl : Slot) (a : Nat) (guardedHandle sys : Bool) (commit : Nat) (s : State) : State :=
  let cancels := s.seq.gmode && !sys && (match place with | .state => true | .globalLine => guardedHandle | .codeStore => false)
    && s.rcv.cancelled != some a
  match (if cancels then mismatchTarget s commit else none) with
  | some c =>
    let t := logErr 5 0 (s.rcv.commits - c.commit) (discarded c s) c.seq.phase (errAdd 7 1 (restore c s))
    let lists := t.cpy.refill.filter (fun e => decide (regionLo (readH t e.1) t.seq.parity false ≤ a)
      && decide (a < regionLo (readH t e.1) t.seq.parity false + hExtent (readH t e.1)))
    let again := (lists.flatMap (fun e => e.2)).zipIdx.map (fun d => { d.1 with
      id := t.nextId + d.2, stage := .queued, rrun := 0, roff := 0, wrun := 0, woff := 0, buf := [], written := 0, link := 0,
      silent := true })
    let t := updCpy (fun y => { y with cmds := y.cmds ++ again }) (updRcv (fun r => { r with cancelled := some a }) t)
    { t with nextId := t.nextId + again.length }
  | none =>
    logErr 6 0 0 0 s.seq.phase (errAdd 8 1 (raiseDeferred ⟨cUncorrectable,
      tvalAddr sl (match place with | .state => if a < Config.scratchBytes then a else 0 | _ => a), sl, sys⟩ s))

/-! ### Serving the local banks (R160 to R162) -/

/-- The bank of a scratchpad byte (R160). -/
def bankOf (key : Nat) : Nat := key / 32 % 96

/-- A granule that a bank has served in this cycle for the L path of the own core: the granule and whether it was written. -/
structure Served where
  granule : Nat
  write : Bool
  deriving DecidableEq, Repr

/-- Whether a bank of the scratchpad is taken for a granule: by an engine or the environment, or by an earlier L-path access of
the own core. A read and a write of one granule do not take the bank from each other, as R162's run shows. DEDUCED (19). -/
def bankLost (taken : List Nat) (seen : List Served) (write : Bool) (g : Nat) : Bool :=
  taken.contains (g % 96) || seen.any (fun v => v.granule % 96 == g % 96 && !(v.granule == g && v.write != write))

/-- Whether a granule lies in the own scratchpad. -/
def ownGranule (g : Nat) : Bool := decide (32 * g < Config.scratchBytes)

/-- The services that an access gets from its banks in this cycle, in its order: one per bank (R161). -/
def grantBanks (taken : List Nat) (seen : List Served) (write : Bool) : List (Nat × Nat) → List (Nat × Nat) → List (Nat × Nat)
  | [], got => got
  | u :: r, got =>
    if ownGranule u.2 && (bankLost taken seen write u.2 || got.any (fun g => g.2 % 96 == u.2 % 96)) then grantBanks taken seen write r got
    else grantBanks taken seen write r (got ++ [u])

/-- The granule of each byte of a store with its run, where the keys rise: rows that overlap need a granule once for each (R160). -/
def runsOf : Nat → Nat → List Nat → List (Nat × Nat)
  | _, _, [] => []
  | run, least, k :: r => let n := if k < least then run + 1 else run; (n, k / 32) :: runsOf n (k + 1) r

/-- The services that an access still needs: reads of one granule are one (R160). -/
def pendingUnits (v : FVal) : List (Nat × Nat) :=
  match v with
  | .load cells _ => ((cells.filter (fun c => c.2.isNone)).map (fun c => (0, c.1 / 32))).eraseDups
  | .bytes cells => (runsOf 0 0 (cells.map (·.1))).eraseDups
  | _ => []

/-- Whether a load reads beyond the own banks: it has a note of its read, which a descriptor granule has for its fault only. -/
def outsideRead (f : Flight) : Bool := f.read.isSome && !(match f.dest with | .h _ => true | _ => false)

/-- Whether a result is a local access in its service cycles. -/
def inService (f : Flight) : Bool :=
  (f.late || decide (f.rem < f.early)) && (match f.val with | .bytes _ => true | .load _ _ => !outsideRead f | _ => false)

/-- One cycle of service for the reads: bytes come from memory as it stood before this cycle's writes (R162). Returns, in issue
order, what each access was granted, and the granules served. -/
def grantAll (taken : List Nat) : List Flight → List Served → List (Nat × List (Nat × Nat)) × List Served
  | [], seen => ([], seen)
  | f :: r, seen =>
    let write := match f.val with | .bytes _ => true | _ => false
    let g := grantBanks taken seen write (pendingUnits f.val) []
    let rest := grantAll taken r (seen ++ (g.filter (fun u => ownGranule u.2)).map (fun u => ⟨u.2, write⟩))
    ((f.id, g) :: rest.1, rest.2)

/-- What an access was granted in this cycle: reads are filled from memory, and the cycles that it has waited for a bank are counted. -/
def serveRead (m : State) (grants : List (Nat × List (Nat × Nat))) (f : Flight) : Flight :=
  match grants.find? (fun g => g.1 == f.id) with
  | none => f
  | some g => { f with
      waited := if g.2.isEmpty && !(pendingUnits f.val).isEmpty then f.waited + 1 else 0
      val := match f.val with
        | .load cells sh => .load (cells.map (fun c => if c.2.isNone && g.2.contains (0, c.1 / 32) then (c.1, some (peek m c.1)) else c)) sh
        | v => v }

/-- The lock bit of a scratchpad address (R133). -/
def lockBit (a : Nat) : Nat := (a / 8 ^^^ a / 2048) % 64

/-- STUL at a bank: the bit is cleared when this context on this core holds it (R133). -/
def clearLock (core a : Nat) (s : State) : State :=
  updSys (fun m => { m with locks := m.locks.filter (fun l => !(l.core == core && l.bank == bankOf a && l.bit == lockBit a
    && l.ownerCore == dieIndex s && l.ownerCtx == (s.seq.ctx.map (·.launch)).getD 0)) }) s

/-- Writes of granted granules performed, in issue order (R162). -/
def serveWrite (g : Nat × List (Nat × Nat)) (s : State) : State :=
  match s.pipe.flight.find? (fun f => f.id == g.1) with
  | some f => (match f.val with
    | .bytes cells =>
      let units := cells.zip (runsOf 0 0 (cells.map (·.1)))
      let now := (units.filter (fun c => g.2.contains c.2)).map (·.1)
      let t := touch f.commit (granulePieces (now.map (·.1))) s
      let t := updRcv (markSpad (now.map (·.1))) (setMem (now.foldl (fun m c => memPut m c.1 c.2) t.mem) t)
      updFlight f.id (fun f => { f with val := .bytes ((units.filter (fun c => !g.2.contains c.2)).map (·.1)) }) t
    | _ => s)
  | none => s

/-- An access whose last granule has been served: a store leaves its counts, a load fills its destination (R161, R171). -/
def serveDone (id : Nat) (s : State) : State :=
  match s.pipe.flight.find? (fun f => f.id == id) with
  | none => s
  | some f =>
    match f.val with
    | .bytes [] =>
      let s := match f.dest with | .unlock a => clearLock (dieIndex s) a s | _ => s
      dropFlight id (match f.acc with | some (p, h) => cntWriteDone p h s | none => s)
    | .load cells sh =>
      if cells.all (fun c => c.2.isSome) then
        let s := match f.acc with | some (p, h) => cntReadDone p h s | none => s
        let s := updFlight id (fun f => { f with acc := none }) s
        match badKey s (cells.map (·.1)) with
        | some (k, _) =>
          consume .state f.slot k false f.sys f.commit (updFlight id (fun f => { f with val := zeroVal f.dest }) s)
        | none =>
          let v := shapeVal sh (cells.map (fun c => c.2.getD 0))
          if frozen s f || !f.late then updFlight id (fun f => { f with val := v }) s
          else
            let n := landNotes { f with val := v }
            settle n.1 n.2 (landOne { f with val := v } s)
      else s
    | _ => s

/-- Whether an access in service may act: a store that needs an undo entry waits while the log is full (R295). -/
def mayServe (s : State) (f : Flight) : Bool :=
  inService f && !(match f.val with | .bytes cells => undoBlocked f.commit (granulePieces (cells.map (·.1))) s | _ => false)

/-- Service, in this wall cycle, of the selected accesses of the L path at the own banks, in issue order (R161, R162); the banks used
stay noted for the others. -/
def serveSome (sel : Flight → Bool) (s : State) : State :=
  let fs := s.pipe.flight.filter (fun f => mayServe s f && sel f)
  let g := grantAll s.pipe.banks fs []
  let t := updPipe (fun p => { p with flight := p.flight.map (serveRead s g.1), banks := p.banks ++ g.2.map (·.granule % 96) }) s
  let t := g.1.foldl (fun t e => serveWrite e t) t
  fs.foldl (fun t f => serveDone f.id t) t

/-! ### Sending (R18, R300) -/

/-- Bytes that an entry takes of the port and of the Paddock (R300); a crypto block moves in the controllers (R354). -/
def entrySize (e : OutEntry) : Nat :=
  match e.body with
  | .store _ _ bs => bs.length
  | .unlock _ bs => bs.length
  | .block _ _ _ _ => 64
  | .effect _ => 16

/-- An entry made by an access that issued after a number of commits (R300). -/
def sendEntry (p : Path) (h : Fin 16) (sl : Slot) (sys : Bool) (acc commit : Nat) (b : OutBody) (s : State) : State :=
  { s with nextId := s.nextId + 1
           out := { s.out with port := s.out.port ++ [⟨s.nextId, b, p, h, commit, sl, sys, acc, false⟩] } }

/-- The pieces of a store that issues, in their order: virtual address, key and bytes of each. -/
def sendPieces (p : Path) (h : Fin 16) (sl : Slot) (acc : Nat) (ps : List (Nat × Nat × List Byte)) (s : State) : State :=
  ps.foldl (fun t e => sendEntry p h sl (atSystem s) acc s.rcv.commits (.store e.1 e.2.1 e.2.2) t) s

/-- A held-back effect joins the list (R124). -/
def holdBack (e : Effect) (sl : Slot) (h : Fin 16) (s : State) : State :=
  let n := fresh s
  updOut (fun o => { o with heldBack := o.heldBack ++ [⟨n.1, .effect e, .l, h, s.rcv.commits, sl, atSystem s, n.1, false⟩] }) n.2

end Sys2Proof.Machine
end

