-- ==== Sys2Proof/Machine/Issue.lean ====
section
/-! DEFINITION. The issue cycle: landing, the end check of loops, commits and traps at the end of a bundle (R44, R48, R118 to
R125, R142), and how a slot operation stands in one. -/

namespace Sys2Proof.Machine

open Sys2Proof

/-- The results of one issue cycle: those whose landing cycle it is land, explicit CSR writes first (R45); one without its value
is late (R49); every other one comes one issue cycle nearer. Records of the frozen program stand still (R144). A result that lands takes
the place of an earlier one that is late (R46). -/
def landing (s : State) : State × List Found × List FaultRec :=
  let due := s.pipe.flight.filter (fun f => !frozen s f && !f.late && f.rem == 0 && f.val.present
    && decide (f.due ≤ s.pipe.wall))
  let isCsr := fun (f : Flight) => match f.dest with | .csr _ | .vshape => true | _ => false
  let order := due.filter isCsr ++ due.filter (fun f => !isCsr f)
  let notes := order.map landNotes
  let t := updPipe (fun p => { p with flight := p.flight.map (fun f =>
    if frozen s f || f.late then { f with fresh := false }
    else if f.rem == 0 then { f with fresh := false, late := true }
    else { f with fresh := false, rem := f.rem - 1 }) }) s
  let t := if due.isEmpty then t else updPipe (fun p => { p with flight := p.flight.map (fun f =>
    if due.any (fun g => g.id == f.id) then f else supersede due f) }) t
  (order.foldl (fun t f => landOne f t) t, notes.flatMap (·.1), notes.flatMap (·.2))

/-- The end check (R121): the top entries whose end unit this is count a pass, and go round again or are popped. `next` is the
next fetch address where no entry goes round. -/
def endCheck (pc next : Nat) : List LoopEntry → List LoopEntry × Nat
  | [] => ([], next)
  | e :: r =>
    if e.stop = pc then
      (if (e.index + 1).toNat < e.count.toNat then ({ e with index := e.index + 1 } :: r, e.start) else endCheck pc next r)
    else (e :: r, next)

/-- The loop entries that a new stack changes are about to be overwritten (R295). -/
def touchLoops (new : List LoopEntry) (s : State) : State :=
  touch s.rcv.commits (((List.range (max s.seq.loops.length new.length)).filter (fun i => s.seq.loops[i]? != new[i]?)).map Piece.loop) s

/-- Where fetch goes after the unit (R27, R29, R121): to a transfer's target, to the token's next repetition, or past the unit
by way of the end check. The loop stack is kept outermost first (R123), so the check works on its reverse. DESIGN CHOICE (75): an
LBRK, or a LOOPI or LOOPR with count 0, at an outer loop's end unit goes where R120 and R122 say, with no end check, and ends a token's
repetitions, as a transfer does. -/
def advance (c : Cycle) (s : State) : State :=
  let q := s.seq
  match c.target with
  | some t => updSeq (fun q => { q with pc := t, reps := 0, token := none }) s
  | none =>
    match q.token with
    | some u =>
      if q.reps < u.rep.val then updSeq (fun q => { q with reps := q.reps + 1 }) s
      else
        let e := if atSystem s then (q.loops.reverse, c.next) else endCheck c.pc c.next q.loops.reverse
        updSeq (fun q => { q with pc := e.2, reps := 0, token := none, loops := e.1.reverse }) (touchLoops e.1.reverse s)
    | none =>
      let e := if atSystem s then (q.loops.reverse, c.next) else endCheck c.pc c.next q.loops.reverse
      updSeq (fun q => { q with pc := e.2, reps := 0, loops := e.1.reverse }) (touchLoops e.1.reverse s)

/-- The counts of an issue cycle (R48, R136). -/
def countIssue (s : State) : State :=
  if atSystem s then updPipe (fun p => { p with hissue := p.hissue + 1, done := true, tried := false, upset := false }) s
  else updSeq (fun q => { q with instret := q.instret + 1 })
    (updPipe (fun p => { p with issue := p.issue + 1, done := true, tried := false, upset := false }) s)

/-- Whether a dry run has dropped its 32 KiB, or filled its part of the undo log (R305). -/
def dryFull (s : State) : Bool :=
  match s.rcv.rerun with
  | some r => r.kind == .dry && (decide (0x8000 ≤ r.dropped) || decide (3072 ≤ undoUsed s))
  | none => false

/-- The forced commit for a full undo log (R295). -/
def undoCommit (s : State) : State :=
  updRcv (fun r => { r with forceDue := false, forceWait := false }) (commit .commit (errAdd 14 1 s))

/-- The commit at the end of a bundle: its own, which also serves for one that is due for a full undo log, or that one, which waits when
no checkpoint is free (R125, R294, R295). -/
def closePhase (c : Cycle) (s : State) : State :=
  match c.commit with
  | some k =>
    let t := commit k (updOut (fun o => { o with heldBack := o.heldBack ++ c.last }) s)
    if s.rcv.forceDue then updRcv (fun r => { r with forceDue := false, forceWait := false }) t else t
  | none =>
    if !s.rcv.forceDue then s
    else if commitRoom s then undoCommit s
    else updRcv (fun r => { r with forceWait := true }) s

/-- The bookkeeping of a rerun at the end of a program-level issue cycle (R304, R305): whether the run ends here. -/
def rerunCheck (commits : Bool) (s : State) : State :=
  match s.rcv.rerun with
  | none => s
  | some r =>
    let n := s.pipe.issue - r.startIssue
    let stop := match r.kind with
      | .dry => commits || dryFull s || decide (16384 ≤ n)
      | .confirm => commits || decide (r.dryN ≤ n)
    if stop && !atSystem s then
      updRcv (fun k => { k with rerun := some { r with ended := true, endedAtCommit := commits } }) s
    else s

/-- What END makes of the core (R135): at program level it drains; at system level it reports a completed save, or ends the
context when no pre-emption is requested. -/
def endRun (q : Seq) : RunState :=
  match q.level, q.preempt with
  | .program, _ => .draining
  | .system, some _ => .saving true
  | .system, none => .stopped 9 q.tcause.toNat 0

/-- The end of a bundle's issue: landing, folds into k7 (R285), the next fetch address, the commit with its checkpoint of the
state after all of it (R294), and the trap that follows a bundle that issued (R118): it is taken before a fault that a landing brings
to light, which is deferred (R142), and not at all where a mismatch rolls the bundle back (R301). -/
def issueCycle (c : Cycle) (s : State) : State :=
  let prog := !atSystem s
  let l := landing { s with cyc := none }
  let mis := if c.shadow then l.2.1 ++ [⟨.k, s.pipe.issue, s.rcv.commits, 0⟩] else l.2.1
  let s := l.1
  let s := if prog then foldK7 (c.folds ++ c.ksig.toList) s else s
  let s := countIssue (advance c s)
  let s := updSeq (fun q => { q with
    barWait := if prog then (match c.wait with | some b => some b | none => q.barWait) else q.barWait
    handlerWait := if prog then q.handlerWait else c.wait
    run := (match c.moving with | some st => .moving st | none => if c.ended then endRun q else q.run) }) s
  let s := closePhase c s
  let s := if prog then rerunCheck c.commit.isSome s else s
  let s := if c.tret then leaveHandler s else s
  let s := match c.afterTrap with
    | some t => if mis.isEmpty then takeTrap t s else s
    | none => s
  settle mis l.2.2 s

/-- A wall cycle in which the bundle did not issue: nothing changes but what the core asks of the hub (R48, R51, R131), and the tokens
that a waiting operation's lines have taken (R363). -/
def stallCycle (s0 s : State) : State :=
  hasten ((s.cyc.map (·.haste)).getD 0)
    { s0 with
      cyc := none
      pipe := { s0.pipe with done := true, tried := true }
      out := if s.out.waiting then { s0.out with
          emitWait := s.out.emitWait, tokens := s.out.tokens, waiting := true, spent := s.out.spent, issuePaid := s.out.issuePaid }
        else { s0.out with emitWait := s.out.emitWait }
      hub := { s0.hub with launches := s.hub.launches } }

/-- A bundle that traps at issue has no effect from any slot; `tpc` names it (R44, R142). -/
def trapCycle (t : Trap) (s0 : State) : State :=
  takeTrap t { s0 with cyc := none, pipe := { s0.pipe with done := true, tried := false } }

/-- A memory fault that a read at issue meets (R308, R311): an uncorrectable error is consumed, a failed check is counted; every other
trap is as it is. -/
def faultCycle (sl : Slot) (t : Trap) (s0 : State) : State :=
  let a := bits t.tval.toNat 0 57
  if t.code = cUncorrectable then
    consume (match windowOf a with | .spad => .state | _ => .globalLine) sl a false (atSystem s0) s0.rcv.commits
      (hbmCount a { s0 with cyc := none, pipe := { s0.pipe with done := true, tried := false } })
  else trapCycle t (noteFault t.code a s0)

/-- A forced commit that finds no room ends a dry run (R305). -/
def forceStall (s : State) : State :=
  match s.rcv.rerun with
  | some r => if r.kind == .dry then updRcv (fun k => { k with rerun := some { r with ended := true } }) s else s
  | none => s

/-- The open bundle closes: it stalls, it traps, it is preceded by a forced commit (R124), or it issues. `s0` is the state
before it. -/
def finish (s0 s : State) : State :=
  match s.cyc with
  | none => s
  | some c =>
    if c.stalled || (c.commit.isSome && !commitRoom s) then stallCycle s0 s
    else match c.trap with
      | some t => faultCycle t.1 t.2 s0
      | none =>
        if !c.force then issueCycle c s
        else if commitRoom s0 then commit .commit { s0 with cyc := none }
        else forceStall (stallCycle s0 s)

/-- A slot operation: in an open bundle it does its slot's part; alone it is the bundle whose other slots hold NOPs. -/
def issue (sl : Slot) (body : State → Issued) (s : State) : Host.Outcome State Fault Refusal :=
  match s.cyc with
  | some _ => .next (record sl body s)
  | none => .next (finish s (record sl body (openCycle s)))

/-- A system-level operation raises ILLEGAL_OP at program level (R31). -/
def systemOnly (sl : Slot) (i : Instr) (body : State → Issued) (s : State) : Issued :=
  if atSystem s then body s else .trap (trapOp sl (wordOfInstr s i))

/-- A program-level operation that raises ILLEGAL_OP at system level (R114). -/
def programOnly (sl : Slot) (i : Instr) (body : State → Issued) (s : State) : Issued :=
  if atSystem s then .trap (trapOp sl (wordOfInstr s i)) else body s

end Sys2Proof.Machine
end

