-- ==== Sys2Proof/Machine/Operands.lean ====
section
/-! DEFINITION. Operand forms: scalar sources with and without wait bits, destinations, results of a class, and the queue
operand (R46 to R51, R116, R184). -/

namespace Sys2Proof.Machine

open Sys2Proof

/-- Whether the shadow ALU works with slot S: at program level, under guarded mode (R293) or for a record that asks for it (R58). -/
def shadowed (s : State) : Bool := !atSystem s && (s.seq.gmode || (s.cyc.map (·.checked)).getD false)

/-- A scalar result of a class, with its shadow copy (R293). -/
def postX (sl : Slot) (rd : Fin 32) (w : Word) (cls : Nat) (s : State) : State :=
  let f := Flight.start s sl (xDest rd) (.x w) (lat s cls)
  push { f with shadow := if shadowed s && sl == .s then some w else none } s

/-- An S-slot computation: it stalls on an empty source or destination, or for want of a record, and posts its result in a
class (R50, R51, R144). -/
def scalar (rd : Fin 32) (srcs : List (Fin 32)) (cls : Nat) (f : State → Word) (s : State) : Issued :=
  if srcs.any (xEmpty s) || xEmpty s rd || xRecordsFull s rd (lat s cls) then .stall
  else .ok (postX .s rd (f s) cls s)

/-- A source of a slot other than S that is empty: a late result stalls always (R49), a variable producer's stalls when the
source's wait bit is 1 or the form has none, and traps EMPTY_READ otherwise (R50); a record always waits (R59). None where the source is
full. -/
def emptySource (s : State) (sl : Slot) (w : Nat) (wait : Bool) (d : Dest) : Option Issued :=
  if isEmpty s d then
    some (if wait || (records s).isSome || !awaitsProducer s d then .stall else .trap (trapWord cEmptyRead sl w))
  else none

/-- The first of several conditions that keeps an operation from issuing, stalls before traps (R51). -/
def firstHalt (l : List (Option Issued)) (k : Issued) : Issued :=
  match l.findSome? (fun o => match o with | some .stall => some Issued.stall | _ => none) with
  | some i => i
  | none => match l.findSome? (fun o => o) with | some i => i | none => k

/-- An x source of a slot other than S; x0 is never empty. -/
def xSource (s : State) (sl : Slot) (w : Nat) (wait : Bool) (r : Fin 32) : Option Issued :=
  if r = 0 then none else emptySource s sl w wait (.x r)

/-- A destination that is empty stalls the bundle (R51). -/
def destHalt (s : State) (d : Dest) : Option Issued :=
  match d with
  | .x r => if r ≠ 0 ∧ isEmpty s (.x r) = true then some .stall else none
  | d => if isEmpty s d then some .stall else none

/-- No room for the record of a result (R144). -/
def recordHalt (s : State) (latency : Nat) : Option Issued := if recordsFull s latency then some .stall else none

/-- The same for a result that goes to an x register. -/
def xRecordHalt (s : State) (rd : Fin 32) (latency : Nat) : Option Issued := if xRecordsFull s rd latency then some .stall else none

/-- Whether a handle, or one of those that a mask names, is empty: its HSET's granule has lost its bank (R49, R156, R161). -/
def hEmpty (s : State) (h : Fin 16) : Bool := isEmpty s (.h h)

@[inherit_doc hEmpty]
def maskEmpty (s : State) (hmask : BitVec 16) : Bool := allHandles.any (fun h => inHandles hmask h && hEmpty s h)

/-- A condition that stalls. -/
def stallIf (b : Bool) : Option Issued := if b then some .stall else none

/-- A condition that traps. -/
def trapIf (b : Bool) (t : Trap) : Option Issued := if b then some (.trap t) else none

end Sys2Proof.Machine
end

