-- ==== Sys2Proof/Machine/Check.lean ====
section
/-! DEFINITION. The K slot: check registers, comparisons and the run signature (R284 to R291). -/

namespace Sys2Proof.Machine

open Sys2Proof

/-- KALU's result (R287). -/
def kaluVal (op : KOp) (a b : Word) : Word :=
  match op with
  | .add => a + b
  | .sub => a - b
  | .and => a &&& b
  | .or => a ||| b
  | .xor => a ^^^ b
  | .sll => a <<< (b.toNat % 64)
  | .srl => a >>> (b.toNat % 64)
  | .sra => a.sshiftRight (b.toNat % 64)
  | .slt => if a.slt b then 1 else 0

/-- A source of KALU (R287). -/
def kRead (s : State) (r : KSrc) : Word := match r with | .k n => readK s n | .x n => readX s n

/-- A K source that is empty stalls the bundle: its form has no wait bit (R286). -/
def kEmpty (s : State) (r : KSrc) : Option Issued :=
  match r with | .k n => stallIf (isEmpty s (.k n)) | .x n => stallIf (xEmpty s n)

/-- KALU (R286, R287): class 13. -/
def kaluBody (op : KOp) (kd : Fin 8) (a b : KSrc) (s : State) : Issued :=
  firstHalt [kEmpty s a, kEmpty s b, destHalt s (.k kd), recordHalt s (lat s 13)]
    (.ok (push (Flight.start s .k (.k kd) (.x (kaluVal op (kRead s a) (kRead s b))) (lat s 13)) s))

/-- KALU (R287). -/
def execKalu (op : KOp) (kd : Fin 8) (a b : KSrc) (s : State) : Host.Outcome State Fault Refusal := issue .k (kaluBody op kd a b) s

/-- A comparison made at issue whose result is known at the landing cycle of class 13 (R288). -/
def kchkPost (i : Instr) (equal : Bool) (s : State) : Issued :=
  .ok (push (Flight.start s .k (.check (BitVec.ofNat 32 (wordOfInstr s i)) s.seq.gmode) (.cmp equal) (lat s 13)) s)

/-- KCHK.X (R288): its wait bit is for xb (R286). -/
def execKchkX (ka : Fin 8) (xb : Fin 32) (w : Bool) (s : State) : Host.Outcome State Fault Refusal :=
  issue .k (fun t =>
    let i : Instr := .kchkX ka xb w
    firstHalt [stallIf (isEmpty t (.k ka)), xSource t .k (wordOfInstr t i) w xb] (kchkPost i (readK t ka == readX t xb) t)) s

/-- KCHK.V (R288): all 2,048 bytes. -/
def execKchkV (va vb : Fin 32) (s : State) : Host.Outcome State Fault Refusal :=
  issue .k (fun t => firstHalt [stallIf (isEmpty t (.v va)), stallIf (isEmpty t (.v vb))]
    (kchkPost (.kchkV va vb) (readV t va == readV t vb) t)) s

/-- KCHK.P (R288): all 512 bits. -/
def execKchkP (pa pb : Fin 48) (s : State) : Host.Outcome State Fault Refusal :=
  issue .k (fun t => firstHalt [stallIf (isEmpty t (.p pa)), stallIf (isEmpty t (.p pb))]
    (kchkPost (.kchkP pa pb) (readP t pa == readP t pb) t)) s

/-- KSIG (R290): the fold follows the stores' folds at the end of the issue cycle; at system level there is none (R285). -/
def execKsig (xs : Fin 32) (s : State) : Host.Outcome State Fault Refusal :=
  issue .k (fun t => firstHalt [stallIf (xEmpty t xs)] (.ok (updCyc (fun c => { c with ksig := some (readX t xs) }) t))) s

/-- KRD (R291): class 13. -/
def execKrd (xd : Fin 32) (ka : Fin 8) (s : State) : Host.Outcome State Fault Refusal :=
  issue .k (fun t => firstHalt [stallIf (isEmpty t (.k ka)), destHalt t (.x xd), xRecordHalt t xd (lat t 13)]
    (.ok (postX .k xd (readK t ka) 13 t))) s

/-- A NOP of a slot (R31): no effect. Alone it is the bundle of NOPs. -/
def execNop (slot : Slot) (s : State) : Host.Outcome State Fault Refusal := issue slot (fun t => .ok t) s

/-- A slot word that no encoding covers (R31, R44): ILLEGAL_OP at issue, with its slot and word. -/
def execUnassignedOpcode (slot : Slot) (word : SlotWord) (s : State) : Host.Outcome State Fault Refusal :=
  issue slot (fun _ => .trap (trapOp slot word.toNat)) s

end Sys2Proof.Machine
end

