-- ==== Sys2Proof/Machine/Fences.lean ====
section
/-! DEFINITION. Fences, acquires, releases and ERRFENCE (R94, R97 to R100, R173 to R176). -/

namespace Sys2Proof.Machine

open Sys2Proof

/-- A fence's wait condition on one counter (R173): its reads, and for a kind that releases its writes at the scope. -/
def fenceClear (k : FenceKind) (sc : Scope) (c : Counts) : Bool :=
  c.rd == 0 && (match k with
    | .acq => true
    | _ => match sc with | .core | .quad | .die => c.wd == 0 | .pkg => c.wk == 0 | .pod => c.wo == 0)

/-- Whether a fence acquires (R98). -/
def fenceAcquires (k : FenceKind) : Bool := match k with | .rel => false | _ => true

/-- A waiting fence lets the local accesses of its range be served as wall cycles pass (R173, assumption 20). -/
def fenceHaste (paths : BitVec 5) (hmask : BitVec 16) (s : State) : State :=
  if inPaths paths .l then updCyc (fun c => { c with haste := c.haste ||| hmask }) s else s

/-- FENCE (R97, R98, R173): the bundle waits until the condition holds over the counters of the range as they stand before the
bundle; then an acquiring kind bounds later reads of the range. An empty mask orders nothing (R94). -/
def fenceBody (k : FenceKind) (sc : Scope) (paths : BitVec 5) (hmask : BitVec 16) (s : State) : Issued :=
  if paths == 0 || hmask == 0 then .ok s
  else if rangeAll paths hmask (fun p h => fenceClear k sc (cntBefore s p h)) then
    .ok (if fenceAcquires k then acquire sc paths hmask s else s)
  else .wait (fenceHaste paths hmask s)

/-- The wider of two scopes. -/
def widerScope (a b : Scope) : Scope := if scopeCode a < scopeCode b then b else a

/-- ACQ.H (R174): each named handle at the wider of the field and its default scope; no wait. -/
def acqBody (o : LF) (s : State) : Issued :=
  if maskEmpty s o.hmask then .stall else .ok (allHandles.foldl (fun t h =>
    if inHandles o.hmask h then acquire (widerScope o.scope (hScope (readH s h))) o.paths (BitVec.ofNat 16 (2 ^ h.val)) t else t) s)

/-- The handles that REL.H releases: named, not h15, with a nonzero counter (R175). -/
def relHandles (o : LF) (s : State) : List (Fin 16) :=
  allHandles.filter (fun h => inHandles o.hmask h && decide (h ≠ 15) && hCounter (readH s h) != 0)

/-- The check of a counter address when an increment is taken (R412): translation as the read-modify-write that it is, a
disabled core's window refused, the local window unchecked. Gives the key of the counter. -/
def checkCounter (a : Nat) (s : State) : Except (Option (BitVec 8 × Nat)) (Nat × State) :=
  match windowOf a with
  | .global =>
    (match translateRange .rmw 2 a (a + 8) s with
     | .error e => .error e
     | .ok (xs, t) => .ok (globalKey xs a, t))
  | .die n _ => if dieCoreOff s n then .error (some (cTranslation, a)) else .ok (a, s)
  | _ => .ok (a, s)

/-- The checked counters of released handles, in ascending handle order (R175). -/
def relItems (o : LF) : List (Fin 16) → State → Except (Option (BitVec 8 × Nat)) (List RelItem × State)
  | [], s => .ok ([], s)
  | h :: r, s =>
    match checkCounter (hCounter (readH s h)) s with
    | .error e => .error e
    | .ok (key, t) =>
      match relItems o r t with
      | .error e => .error e
      | .ok (l, u) => .ok (⟨h, word (hCounter (readH s h)), key, widerScope o.scope (hScope (readH s h))⟩ :: l, u)

/-- Whether the held-back list has no room for one more effect: the forced commit comes first (R124). -/
def holdFull (s : State) : Bool := decide (64 ≤ s.out.heldBack.length)

/-- REL.H (R175): with no bound handle it does nothing; else it takes one held-back entry. -/
def relBody (o : LF) (s : State) : Issued :=
  if maskEmpty s o.hmask then .stall
  else if (relHandles o s).isEmpty then .ok s
  else match relItems o (relHandles o s) s with
    | .error none => .stall
    | .error (some e) => .trap (accessTrap .l e)
    | .ok (items, t) => if holdFull s then .force else .ok (holdBack (.relh items o.paths o.hmask) .l 15 t)

/-- ERRFENCE (R176): waits until the reads of its range have passed their checks and its writes are performed. Faults of the
range are raised before it issues; it gives no visibility. -/
def errfenceBody (paths : BitVec 5) (hmask : BitVec 16) (s : State) : Issued :=
  if rangeAll paths hmask (fun p h => (cntBefore s p h).rd == 0 && (cntBefore s p h).wd == 0) then .ok s else .wait (fenceHaste paths hmask s)

/-- FENCE of slot S (R100): `fence sc, die, L, all`; its fields are ignored (R118). -/
def execFenceS (_fields : BitVec 12) (s : State) : Host.Outcome State Fault Refusal :=
  issue .s (fenceBody .sc .die 1 0xFFFF) s

/-- FENCE of slot L (R173). -/
def execFence (k : FenceKind) (o : LF) (s : State) : Host.Outcome State Fault Refusal :=
  issue .l (fenceBody k o.scope o.paths o.hmask) s

/-- ACQ.H (R174). -/
def execAcqH (o : LF) (s : State) : Host.Outcome State Fault Refusal := issue .l (acqBody o) s

/-- REL.H (R175). -/
def execRelH (o : LF) (s : State) : Host.Outcome State Fault Refusal := issue .l (relBody o) s

/-- ERRFENCE (R176). -/
def execErrfence (paths : BitVec 5) (hmask : BitVec 16) (s : State) : Host.Outcome State Fault Refusal :=
  issue .l (errfenceBody paths hmask) s

end Sys2Proof.Machine
end

