-- ==== Sys2Proof/Machine/Scalar.lean ====
section
/-! DEFINITION. The scalar integer base of slot S (R116): RV64I and M register and immediate operations. -/

namespace Sys2Proof.Machine

open Sys2Proof

/-! ### Arithmetic of R116 -/

/-- The low 32 bits of a word, sign-extended (the W forms). -/
def sext32 (w : Word) : Word := (w.setWidth 32).signExtend 64

/-- DIV (R116): division by zero gives all ones, the overflowing quotient is −2^63. -/
def divS (a b : Word) : Word := if b = 0 then BitVec.allOnes 64 else a.sdiv b

/-- DIVU. -/
def divU (a b : Word) : Word := if b = 0 then BitVec.allOnes 64 else a / b

/-- REM: the remainder has the sign of the dividend; by zero it is the dividend. -/
def remS (a b : Word) : Word := if b = 0 then a else a.srem b

/-- REMU. -/
def remU (a b : Word) : Word := if b = 0 then a else a % b

/-- The W forms of the divide group on the low words. -/
def divSW (a b : BitVec 32) : BitVec 32 := if b = 0 then BitVec.allOnes 32 else a.sdiv b
def divUW (a b : BitVec 32) : BitVec 32 := if b = 0 then BitVec.allOnes 32 else a / b
def remSW (a b : BitVec 32) : BitVec 32 := if b = 0 then a else a.srem b
def remUW (a b : BitVec 32) : BitVec 32 := if b = 0 then a else a % b

/-- The high half of a product of two integers (R116). -/
def mulHigh (a b : Int) : Word := BitVec.ofInt 64 (a * b / 2 ^ 64)

/-- A 12-bit immediate as a word. -/
def immW (i : BitVec 12) : Word := i.signExtend 64

/-- 1 for true. -/
def boolW (b : Bool) : Word := if b then 1 else 0

/-- The divide group (R116, R50): a variable producer of class 2 whose result arrives 8 to 66 cycles after issue, when the divider takes its
next operation (R51, R144). -/
def divide (o : RType) (f : Word → Word → Word) (s : State) : Issued :=
  if xEmpty s o.rs1 || xEmpty s o.rs2 || xEmpty s o.rd || xRecordsFull s o.rd 2 || decide (s.pipe.wall < s.pipe.busyDiv) then .stall
  else
    let w := f (readX s o.rs1) (readX s o.rs2)
    let d := drawLatency 8 66 s
    let fl := Flight.start d.2 .s (xDest o.rd) (.x w) (lat s 2)
    .ok (push { fl with variable' := true, due := s.pipe.wall + d.1
                        shadow := if shadowed s then some w else none }
          (updPipe (fun p => { p with busyDiv := s.pipe.wall + d.1 }) d.2))

/-! ### Meanings -/

/-- LUI (R116): the 20-bit immediate in bits [31:12], sign-extended. -/
def execLui (rd : Fin 32) (imm : BitVec 20) (s : State) : Host.Outcome State Fault Refusal :=
  issue .s (scalar rd [] 0 (fun _ => ((imm.zeroExtend 32 <<< 12).signExtend 64))) s

/-- A fetch address as a register holds it: bytes, or in a Ubrov set a record's index (R29, R59). -/
def linkOf (s : State) (pc : Nat) : Word := word (if (records s).isSome then pc / 2 else pc)

/-- AUIPC (R29, R116): the immediate of LUI added to the PC of the fetch unit. -/
def execAuipc (rd : Fin 32) (imm : BitVec 20) (s : State) : Host.Outcome State Fault Refusal :=
  issue .s (scalar rd [] 0 (fun t => linkOf t ((t.cyc.map (·.pc)).getD t.seq.pc) + (imm.zeroExtend 32 <<< 12).signExtend 64)) s

/-- ADDI (R116): adds. -/
def execAddi (o : IType) (s : State) : Host.Outcome State Fault Refusal :=
  issue .s (scalar o.rd [o.rs1] 0 (fun t => readX t o.rs1 + immW o.imm)) s

/-- SLTI (R116): sets rd when rs1 is below the immediate, signed. -/
def execSlti (o : IType) (s : State) : Host.Outcome State Fault Refusal :=
  issue .s (scalar o.rd [o.rs1] 0 (fun t => boolW ((readX t o.rs1).slt (immW o.imm)))) s

/-- SLTIU (R116): sets rd when rs1 is below the sign-extended immediate, unsigned. -/
def execSltiu (o : IType) (s : State) : Host.Outcome State Fault Refusal :=
  issue .s (scalar o.rd [o.rs1] 0 (fun t => boolW ((readX t o.rs1).ult (immW o.imm)))) s

/-- XORI (R116): exclusive or. -/
def execXori (o : IType) (s : State) : Host.Outcome State Fault Refusal :=
  issue .s (scalar o.rd [o.rs1] 0 (fun t => readX t o.rs1 ^^^ immW o.imm)) s

/-- ORI (R116): or. -/
def execOri (o : IType) (s : State) : Host.Outcome State Fault Refusal :=
  issue .s (scalar o.rd [o.rs1] 0 (fun t => readX t o.rs1 ||| immW o.imm)) s

/-- ANDI (R116): and. -/
def execAndi (o : IType) (s : State) : Host.Outcome State Fault Refusal :=
  issue .s (scalar o.rd [o.rs1] 0 (fun t => readX t o.rs1 &&& immW o.imm)) s

/-- ADDIW (R116): adds in 32 bits. -/
def execAddiw (o : IType) (s : State) : Host.Outcome State Fault Refusal :=
  issue .s (scalar o.rd [o.rs1] 0 (fun t => sext32 (readX t o.rs1 + immW o.imm))) s

/-- SLLI (R116). -/
def execSlli (o : ShType) (s : State) : Host.Outcome State Fault Refusal :=
  issue .s (scalar o.rd [o.rs1] 0 (fun t => readX t o.rs1 <<< o.sh.val)) s

/-- SRLI (R116). -/
def execSrli (o : ShType) (s : State) : Host.Outcome State Fault Refusal :=
  issue .s (scalar o.rd [o.rs1] 0 (fun t => readX t o.rs1 >>> o.sh.val)) s

/-- SRAI (R116). -/
def execSrai (o : ShType) (s : State) : Host.Outcome State Fault Refusal :=
  issue .s (scalar o.rd [o.rs1] 0 (fun t => (readX t o.rs1).sshiftRight o.sh.val)) s

/-- SLLIW (R116). -/
def execSlliw (o : ShType) (s : State) : Host.Outcome State Fault Refusal :=
  issue .s (scalar o.rd [o.rs1] 0 (fun t => sext32 (readX t o.rs1 <<< (o.sh.val % 32)))) s

/-- SRLIW (R116). -/
def execSrliw (o : ShType) (s : State) : Host.Outcome State Fault Refusal :=
  issue .s (scalar o.rd [o.rs1] 0 (fun t => (((readX t o.rs1).setWidth 32 >>> (o.sh.val % 32)).signExtend 64))) s

/-- SRAIW (R116). -/
def execSraiw (o : ShType) (s : State) : Host.Outcome State Fault Refusal :=
  issue .s (scalar o.rd [o.rs1] 0 (fun t => ((((readX t o.rs1).setWidth 32).sshiftRight (o.sh.val % 32)).signExtend 64))) s

/-- ADD (R116), class 0. -/
def execAdd (o : RType) (s : State) : Host.Outcome State Fault Refusal :=
  issue .s (scalar o.rd [o.rs1, o.rs2] 0 (fun t => (readX t o.rs1) + (readX t o.rs2))) s

/-- SUB (R116), class 0. -/
def execSub (o : RType) (s : State) : Host.Outcome State Fault Refusal :=
  issue .s (scalar o.rd [o.rs1, o.rs2] 0 (fun t => (readX t o.rs1) - (readX t o.rs2))) s

/-- SLL (R116), class 0. -/
def execSll (o : RType) (s : State) : Host.Outcome State Fault Refusal :=
  issue .s (scalar o.rd [o.rs1, o.rs2] 0 (fun t => (readX t o.rs1) <<< (bits (readX t o.rs2).toNat 0 6))) s

/-- SLT (R116), class 0. -/
def execSlt (o : RType) (s : State) : Host.Outcome State Fault Refusal :=
  issue .s (scalar o.rd [o.rs1, o.rs2] 0 (fun t => boolW ((readX t o.rs1).slt (readX t o.rs2)))) s

/-- SLTU (R116), class 0. -/
def execSltu (o : RType) (s : State) : Host.Outcome State Fault Refusal :=
  issue .s (scalar o.rd [o.rs1, o.rs2] 0 (fun t => boolW ((readX t o.rs1).ult (readX t o.rs2)))) s

/-- XOR (R116), class 0. -/
def execXor (o : RType) (s : State) : Host.Outcome State Fault Refusal :=
  issue .s (scalar o.rd [o.rs1, o.rs2] 0 (fun t => (readX t o.rs1) ^^^ (readX t o.rs2))) s

/-- SRL (R116), class 0. -/
def execSrl (o : RType) (s : State) : Host.Outcome State Fault Refusal :=
  issue .s (scalar o.rd [o.rs1, o.rs2] 0 (fun t => (readX t o.rs1) >>> (bits (readX t o.rs2).toNat 0 6))) s

/-- SRA (R116), class 0. -/
def execSra (o : RType) (s : State) : Host.Outcome State Fault Refusal :=
  issue .s (scalar o.rd [o.rs1, o.rs2] 0 (fun t => (readX t o.rs1).sshiftRight (bits (readX t o.rs2).toNat 0 6))) s

/-- OR (R116), class 0. -/
def execOr (o : RType) (s : State) : Host.Outcome State Fault Refusal :=
  issue .s (scalar o.rd [o.rs1, o.rs2] 0 (fun t => (readX t o.rs1) ||| (readX t o.rs2))) s

/-- AND (R116), class 0. -/
def execAnd (o : RType) (s : State) : Host.Outcome State Fault Refusal :=
  issue .s (scalar o.rd [o.rs1, o.rs2] 0 (fun t => (readX t o.rs1) &&& (readX t o.rs2))) s

/-- ADDW (R116), class 0. -/
def execAddw (o : RType) (s : State) : Host.Outcome State Fault Refusal :=
  issue .s (scalar o.rd [o.rs1, o.rs2] 0 (fun t => sext32 ((readX t o.rs1) + (readX t o.rs2)))) s

/-- SUBW (R116), class 0. -/
def execSubw (o : RType) (s : State) : Host.Outcome State Fault Refusal :=
  issue .s (scalar o.rd [o.rs1, o.rs2] 0 (fun t => sext32 ((readX t o.rs1) - (readX t o.rs2)))) s

/-- SLLW (R116), class 0. -/
def execSllw (o : RType) (s : State) : Host.Outcome State Fault Refusal :=
  issue .s (scalar o.rd [o.rs1, o.rs2] 0 (fun t => sext32 ((readX t o.rs1) <<< (bits (readX t o.rs2).toNat 0 5)))) s

/-- SRLW (R116), class 0. -/
def execSrlw (o : RType) (s : State) : Host.Outcome State Fault Refusal :=
  issue .s (scalar o.rd [o.rs1, o.rs2] 0 (fun t => (((readX t o.rs1).setWidth 32 >>> (bits (readX t o.rs2).toNat 0 5)).signExtend 64))) s

/-- SRAW (R116), class 0. -/
def execSraw (o : RType) (s : State) : Host.Outcome State Fault Refusal :=
  issue .s (scalar o.rd [o.rs1, o.rs2] 0 (fun t => ((((readX t o.rs1).setWidth 32).sshiftRight (bits (readX t o.rs2).toNat 0 5)).signExtend 64))) s

/-- MUL (R116), class 1. -/
def execMul (o : RType) (s : State) : Host.Outcome State Fault Refusal :=
  issue .s (scalar o.rd [o.rs1, o.rs2] 1 (fun t => (readX t o.rs1) * (readX t o.rs2))) s

/-- MULH (R116), class 1. -/
def execMulh (o : RType) (s : State) : Host.Outcome State Fault Refusal :=
  issue .s (scalar o.rd [o.rs1, o.rs2] 1 (fun t => mulHigh (readX t o.rs1).toInt (readX t o.rs2).toInt)) s

/-- MULHSU (R116), class 1. -/
def execMulhsu (o : RType) (s : State) : Host.Outcome State Fault Refusal :=
  issue .s (scalar o.rd [o.rs1, o.rs2] 1 (fun t => mulHigh (readX t o.rs1).toInt (readX t o.rs2).toNat)) s

/-- MULHU (R116), class 1. -/
def execMulhu (o : RType) (s : State) : Host.Outcome State Fault Refusal :=
  issue .s (scalar o.rd [o.rs1, o.rs2] 1 (fun t => mulHigh (readX t o.rs1).toNat (readX t o.rs2).toNat)) s

/-- MULW (R116), class 1. -/
def execMulw (o : RType) (s : State) : Host.Outcome State Fault Refusal :=
  issue .s (scalar o.rd [o.rs1, o.rs2] 1 (fun t => sext32 ((readX t o.rs1) * (readX t o.rs2)))) s

/-- DIV (R116), class 2. -/
def execDiv (o : RType) (s : State) : Host.Outcome State Fault Refusal :=
  issue .s (divide o divS) s

/-- DIVU (R116), class 2. -/
def execDivu (o : RType) (s : State) : Host.Outcome State Fault Refusal :=
  issue .s (divide o divU) s

/-- REM (R116), class 2. -/
def execRem (o : RType) (s : State) : Host.Outcome State Fault Refusal :=
  issue .s (divide o remS) s

/-- REMU (R116), class 2. -/
def execRemu (o : RType) (s : State) : Host.Outcome State Fault Refusal :=
  issue .s (divide o remU) s

/-- DIVW (R116), class 2. -/
def execDivw (o : RType) (s : State) : Host.Outcome State Fault Refusal :=
  issue .s (divide o (fun a b => (divSW (a.setWidth 32) (b.setWidth 32)).signExtend 64)) s

/-- DIVUW (R116), class 2. -/
def execDivuw (o : RType) (s : State) : Host.Outcome State Fault Refusal :=
  issue .s (divide o (fun a b => (divUW (a.setWidth 32) (b.setWidth 32)).signExtend 64)) s

/-- REMW (R116), class 2. -/
def execRemw (o : RType) (s : State) : Host.Outcome State Fault Refusal :=
  issue .s (divide o (fun a b => (remSW (a.setWidth 32) (b.setWidth 32)).signExtend 64)) s

/-- REMUW (R116), class 2. -/
def execRemuw (o : RType) (s : State) : Host.Outcome State Fault Refusal :=
  issue .s (divide o (fun a b => (remUW (a.setWidth 32) (b.setWidth 32)).signExtend 64)) s

end Sys2Proof.Machine
end

