-- ==== Sys2Proof/Machine/Control.lean ====
section
/-! DEFINITION. Control transfers, environment calls, CSRs, loops, commits, END and QFEAT of slot S (R29, R118 to R125, R134 to
R140). -/

namespace Sys2Proof.Machine

open Sys2Proof

/-- The address of the fetch unit that the open bundle comes from (R29). -/
def curPc (s : State) : Nat := (s.cyc.map (·.pc)).getD s.seq.pc

/-- The next fetch address of the open bundle (R29). -/
def curNext (s : State) : Nat := (s.cyc.map (·.next)).getD (s.seq.pc + 32)

/-- A transfer taken by the open bundle. -/
def setTarget (t : Nat) (s : State) : State := updCyc (fun c => { c with target := some t }) s

/-- A transfer to an address given as an integer (R29): outside 0 to 0xFFFF, or past a Ubrov set's last record, it raises TRANSLATION
and has no effect. -/
def transfer (t : Int) (k : State → Issued) (s : State) : Issued :=
  if 0 ≤ t ∧ t < codeEnd s then k (setTarget t.toNat s) else .trap (trapAt cTranslation .s (wrapNat 57 t))

/-- A conditional branch: taken it transfers to PC plus the offset; the next repetition or unit follows otherwise (R29). -/
def branch (o : BType) (f : Word → Word → Bool) (s : State) : Issued :=
  if xEmpty s o.rs1 || xEmpty s o.rs2 then .stall
  else if f (readX s o.rs1) (readX s o.rs2) then transfer (curPc s + 2 * imm12 o.imm) .ok s
  else .ok s

/-- BEQ (R118). -/
def execBeq (o : BType) (s : State) : Host.Outcome State Fault Refusal := issue .s (branch o (fun a b => a == b)) s

/-- BNE (R118). -/
def execBne (o : BType) (s : State) : Host.Outcome State Fault Refusal := issue .s (branch o (fun a b => a != b)) s

/-- BLT (R118): signed. -/
def execBlt (o : BType) (s : State) : Host.Outcome State Fault Refusal := issue .s (branch o (fun a b => a.slt b)) s

/-- BGE (R118): signed. -/
def execBge (o : BType) (s : State) : Host.Outcome State Fault Refusal := issue .s (branch o (fun a b => !a.slt b)) s

/-- BLTU (R118): unsigned. -/
def execBltu (o : BType) (s : State) : Host.Outcome State Fault Refusal := issue .s (branch o (fun a b => a.ult b)) s

/-- BGEU (R118): unsigned. -/
def execBgeu (o : BType) (s : State) : Host.Outcome State Fault Refusal := issue .s (branch o (fun a b => !a.ult b)) s

/-- A jump that links the next fetch address, or the next record's index (R29, R59). -/
def jump (rd : Fin 32) (t : Int) (s : State) : Issued :=
  if xEmpty s rd || xRecordsFull s rd (lat s 0) then .stall
  else transfer t (fun u => .ok (postX .s rd (linkOf s (curNext s)) 0 u)) s

/-- JAL (R118). -/
def execJal (rd : Fin 32) (imm : BitVec 20) (s : State) : Host.Outcome State Fault Refusal :=
  issue .s (fun t => jump rd (curPc t + 2 * signExt imm.toNat 20) t) s

/-- JALR (R118, R29): bit 0 of the target is cleared. In a Ubrov set the base register counts records and the offset half-records, as a
link does (R59). -/
def execJalr (o : IType) (s : State) : Host.Outcome State Fault Refusal :=
  issue .s (fun t =>
    if xEmpty t o.rs1 then .stall
    else
      let base := (readX t o.rs1).toNat
      let a := wrapNat 64 ((if (records t).isSome then 2 * base else base : Nat) + imm12 o.imm)
      jump o.rd ((a - a % 2 : Nat) : Int) t) s

/-- A trap that follows the bundle's issue (R118). -/
def trapAfter (t : Trap) (s : State) : Issued := .ok (updCyc (fun c => { c with afterTrap := some t }) s)

/-- ECALL (R118). -/
def execEcall (s : State) : Host.Outcome State Fault Refusal := issue .s (trapAfter ⟨cEcall, 0, false⟩) s

/-- EBREAK (R118). -/
def execEbreak (s : State) : Host.Outcome State Fault Refusal := issue .s (trapAfter ⟨cEbreak, 0, false⟩) s

/-! ### CSRs (R119, R136 to R140) -/

/-- Which CSRs exist, and the access that program level and system level have: none, read, or read and write (R136). -/
def csrAccess (n : Nat) : Option (Nat × Nat) :=
  if n = 0x800 ∨ n = 0x801 ∨ n = 0x802 then some (2, 2)
  else if n = 0x803 ∨ n = 0x804 then some (1, 1)
  else if (0x808 ≤ n ∧ n ≤ 0x80D) ∨ (0x810 ≤ n ∧ n ≤ 0x815) then some (1, 2)
  else if n = 0xC00 ∨ n = 0xC02 ∨ (0xCC0 ≤ n ∧ n ≤ 0xCC3) then some (1, 1)
  else if n = 0xCC4 then some (1, 2)
  else if n = 0x5C4 ∨ n = 0x5C6 then some (0, 1)
  else if (0x5C0 ≤ n ∧ n ≤ 0x5C3) ∨ n = 0x5C5 ∨ n = 0x5C7 then some (0, 2)
  else none

/-- Whether a CSR access fails decode (R119): no such CSR, a system-level one at program level, or a write to a read-only one. -/
def csrIllegal (n : Nat) (writes sys : Bool) : Bool :=
  match csrAccess n with
  | none => true
  | some (p, q) => let a := if sys then q else p; a == 0 || (writes && a == 1)

/-- The reserved bits of a writable CSR (R137 to R140, R47). -/
def csrReserved (n : Nat) : Word :=
  if n = 0x800 then ~~~0xFFFFF
  else if n = 0x801 then ~~~0x7F
  else if n = 0x802 then ~~~0x7
  else if n = 0xCC4 then 0xF000000000000F00
  else if n = 0x5C0 then ~~~0xFFFFFFFF
  else if n = 0x5C1 then ~~~0x1FF
  else if n = 0x5C2 then 0xF000000000000000
  else if n = 0x5C3 then ~~~0x1FFFFF
  else if n = 0x5C5 then ~~~0xFFE0
  else if n = 0x5C7 then ~~~1
  else 0

/-- The core's position (R10). -/
def coreidWord (s : State) : Word :=
  word (s.id.core.val + s.id.quad.val * 2 ^ 2 + s.id.die.val * 2 ^ 7 + s.id.package.toNat * 2 ^ 10 + s.id.pod.toNat * 2 ^ 20)

/-- `feat0` of the AX1: bits [16:0] are 1 (R63). -/
def feat0 : Word := 0x1FFFF

/-- The value of a CSR (R136 to R140, R47, R62, R63). A loop CSR at or above the depth reads 0 (R123). -/
def csrRead (s : State) (n : Nat) : Word :=
  let q := s.seq
  if n = 0x800 then q.vshape.zeroExtend 64
  else if n = 0x801 then q.vflags.zeroExtend 64
  else if n = 0x802 then q.mflags.zeroExtend 64
  else if n = 0x803 then q.phase.zeroExtend 64 + (if q.parity then 0x1000000000000 else 0)
  else if n = 0x804 then word q.loops.length
  else if 0x808 ≤ n ∧ n ≤ 0x80D then (q.loops[n - 0x808]?.map (·.index)).getD 0
  else if 0x810 ≤ n ∧ n ≤ 0x815 then (q.loops[n - 0x810]?.map (·.count)).getD 0
  else if n = 0xC00 then q.cycle
  else if n = 0xC02 then q.instret
  else if n = 0xCC0 then feat0
  else if n = 0xCC2 then coreidWord s
  else if n = 0xCC3 then 0x100 + Config.stepping.zeroExtend 64
  else if n = 0xCC4 then q.latcon
  else if n = 0x5C0 then q.yieldbound.zeroExtend 64
  else if n = 0x5C1 then q.tcause.zeroExtend 64
  else if n = 0x5C2 then q.tval.zeroExtend 64
  else if n = 0x5C3 then q.tpc.zeroExtend 64
  else if n = 0x5C4 then word (recordCount s)
  else if n = 0x5C5 then q.tvec.zeroExtend 64 <<< 5
  else if n = 0x5C6 then q.tenant.zeroExtend 64
  else if n = 0x5C7 then boolW q.gmode
  else 0

/-- A CSR's new value, which lands in the issue cycle (R119). -/
def postCsr (n : BitVec 12) (w : Word) (s : State) : State := push (Flight.start s .s (.csr n) (.x w) 1) s

/-- The checks of a value written to a CSR (R119): a reserved bit is ILLEGAL_OP, a shape that cannot be held ILLEGAL_SHAPE. -/
def csrValueBad (n : Nat) (w : Word) (iw : Nat) : Option Trap :=
  if w &&& csrReserved n ≠ 0 then some (trapOp .s iw)
  else if n = 0x800 ∧ shapeOk (w.setWidth 20) = false then some (trapWord cIllegalShape .s w.toNat)
  else none

/-- A Zicsr instruction (R119): the old value goes to rd, and where it writes, the new value lands in the issue cycle. -/
def csrOp (i : Instr) (rd : Fin 32) (srcs : List (Fin 32)) (n : BitVec 12) (writes : Bool) (f : State → Word → Word) (s : State) :
    Issued :=
  let iw := wordOfInstr s i
  if csrIllegal n.toNat writes (atSystem s) then .trap (trapOp .s iw)
  else if srcs.any (xEmpty s) || xEmpty s rd || xRecordsFull s rd (lat s 0) then .stall
  else
    let old := csrRead s n.toNat
    if writes then
      let w := f s old
      match csrValueBad n.toNat w iw with
      | some t => .trap t
      | none => .ok (postCsr n w (postX .s rd old 0 s))
    else .ok (postX .s rd old 0 s)

/-- CSRRW (R119). -/
def execCsrrw (rd rs1 : Fin 32) (n : BitVec 12) (s : State) : Host.Outcome State Fault Refusal :=
  issue .s (csrOp (.csrrw rd rs1 n) rd [rs1] n true (fun t _ => readX t rs1)) s

/-- CSRRS (R119): with x0 it does not write. -/
def execCsrrs (rd rs1 : Fin 32) (n : BitVec 12) (s : State) : Host.Outcome State Fault Refusal :=
  issue .s (csrOp (.csrrs rd rs1 n) rd [rs1] n (decide (rs1 ≠ 0)) (fun t w => w ||| readX t rs1)) s

/-- CSRRC (R119): with x0 it does not write. -/
def execCsrrc (rd rs1 : Fin 32) (n : BitVec 12) (s : State) : Host.Outcome State Fault Refusal :=
  issue .s (csrOp (.csrrc rd rs1 n) rd [rs1] n (decide (rs1 ≠ 0)) (fun t w => w &&& ~~~readX t rs1)) s

/-- CSRRWI (R119). -/
def execCsrrwi (rd u : Fin 32) (n : BitVec 12) (s : State) : Host.Outcome State Fault Refusal :=
  issue .s (csrOp (.csrrwi rd u n) rd [] n true (fun _ _ => word u.val)) s

/-- CSRRSI (R119): with 0 it does not write. -/
def execCsrrsi (rd u : Fin 32) (n : BitVec 12) (s : State) : Host.Outcome State Fault Refusal :=
  issue .s (csrOp (.csrrsi rd u n) rd [] n (decide (u ≠ 0)) (fun _ w => w ||| word u.val)) s

/-- CSRRCI (R119): with 0 it does not write. -/
def execCsrrci (rd u : Fin 32) (n : BitVec 12) (s : State) : Host.Outcome State Fault Refusal :=
  issue .s (csrOp (.csrrci rd u n) rd [] n (decide (u ≠ 0)) (fun _ w => w &&& ~~~word u.val)) s

/-! ### Loops (R120, R122) -/

/-- A loop instruction (R120): the end unit checked, then the body skipped for count 0 or an entry pushed. It is ILLEGAL_OP at
system level (R114). -/
def loopOp (iw : Nat) (off : Nat) (count : Word) (s : State) : Issued :=
  let e := curPc s + off
  if atSystem s || decide (6 ≤ s.seq.loops.length) || !namesUnit s e || decide (e < curNext s) then .trap (trapOp .s iw)
  else if count = 0 then .ok (setTarget (nextFetch s e) s)
  else .ok (updSeq (fun q => { q with loops := q.loops ++ [⟨0, count, curNext s, e⟩] })
    (touch s.rcv.commits [.loop s.seq.loops.length] s))

/-- LOOPI (R120): the end offset in bytes is twice the field. -/
def execLoopi (n : BitVec 12) (off : BitVec 10) (s : State) : Host.Outcome State Fault Refusal :=
  issue .s (fun t => loopOp (wordOfInstr t (.loopi n off)) (2 * off.toNat) (n.zeroExtend 64) t) s

/-- LOOPR (R120): the count is x[rs1]. -/
def execLoopr (rs1 : Fin 32) (off : BitVec 12) (s : State) : Host.Outcome State Fault Refusal :=
  issue .s (fun t => if xEmpty t rs1 then .stall
    else loopOp (wordOfInstr t (.loopr rs1 off)) (2 * off.toNat) (readX t rs1) t) s

/-- LBRK (R122): pops the top entry and continues after its end unit. -/
def execLbrk (s : State) : Host.Outcome State Fault Refusal :=
  issue .s (fun t =>
    match t.seq.loops.getLast? with
    | some e =>
      if atSystem t then .trap (trapOp .s (wordOfInstr t .lbrk))
      else .ok (setTarget (nextFetch t e.stop) (updSeq (fun q => { q with loops := q.loops.dropLast }) (touchLoops t.seq.loops.dropLast t)))
    | none => .trap (trapOp .s (wordOfInstr t .lbrk))) s

/-! ### Phases, END, QFEAT (R125, R134, R135) -/

/-- The open bundle ends its phase. -/
def setCommit (k : CommitKind) (s : State) : State := updCyc (fun c => { c with commit := some k }) s

/-- The last held-back effect of the bundle's commit. -/
def addLast (e : Effect) (s : State) : State :=
  let n := fresh s
  updCyc (fun c => { c with last := c.last ++ [⟨n.1, .effect e, .l, 15, s.rcv.commits, .s, atSystem s, n.1, false⟩] }) n.2

/-- The release of the stage item slot that the core holds, as the last effect of the commit (R130, R135, R325). -/
def releaseItem (s : State) : State :=
  match s.seq.item with
  | some i => updSeq (fun q => { q with item := none }) (addLast (.release i.launch i.queue i.slot i.addr) s)
  | none => s

/-- PCOMMIT (R125). -/
def execPcommit (s : State) : Host.Outcome State Fault Refusal := issue .s (fun t => .ok (setCommit .commit t)) s

/-- PSWAP (R125). -/
def execPswap (s : State) : Host.Outcome State Fault Refusal := issue .s (fun t => .ok (setCommit .swap t)) s

/-- END (R135): at program level it commits and fetch stops; at system level it ends the handler's work without a commit. -/
def execEndOp (s : State) : Host.Outcome State Fault Refusal :=
  issue .s (fun t =>
    let u := updCyc (fun c => { c with ended := true }) t
    if atSystem t then .ok u else .ok (releaseItem (setCommit .commit u))) s

/-- QFEAT (R134): the feature bit of R63. -/
def execQfeat (rd : Fin 32) (n : Fin 128) (s : State) : Host.Outcome State Fault Refusal :=
  issue .s (scalar rd [] 0 (fun _ => boolW (decide (n.val < 64) && feat0.getLsbD n.val))) s

/-- A forced commit (R124): it acts as PCOMMIT before the bundle that needs the room, so its checkpoint holds the state before
that bundle. Without room for a checkpoint it does not happen yet. -/
def execForcedCommit (s : State) : Host.Outcome State Fault Refusal :=
  .next (if commitRoom s then commit .commit s else s)

/-- A forced commit for a full undo log (R295): it follows the bundle that issued, or the last one when a bundle is stalled. -/
def execForcedCommitUndoLog (s : State) : Host.Outcome State Fault Refusal :=
  .next (if s.rcv.forceDue && commitRoom s then undoCommit s else s)

/-- TRET (R145). -/
def execTret (s : State) : Host.Outcome State Fault Refusal :=
  issue .s (systemOnly .s .tret (fun t => .ok (updCyc (fun c => { c with tret := true }) t))) s

end Sys2Proof.Machine
end

