-- ==== Sys2Proof/Machine/LoadStore.lean ====
section
/-! DEFINITION. Loads and stores of slots S and L, vector and scalar, local and leaving the core (R117, R154, R155, R163 to
R168), the handle instructions (R156 to R158) and VPUSH (R178). -/

namespace Sys2Proof.Machine

open Sys2Proof

/-! ### Register bytes -/

/-- Element i of B bytes of a vector register (R181). -/
def elem (v : Nat) (b i : Nat) : Nat := bits v (8 * b * i) (8 * b)

/-- n bytes of a vector register from byte i upward. -/
def regBytes (v : Nat) (i n : Nat) : List Byte := (List.range n).map (fun j => BitVec.ofNat 8 (bits v (8 * (i + j)) 8))

/-- A vector register from its elements of B bytes, zero beyond them. -/
def regOf (b : Nat) (es : List Nat) : VReg :=
  BitVec.ofNat 16384 (es.foldr (fun e r => e % 2 ^ (8 * b) + r * 2 ^ (8 * b)) 0)

/-! ### Windows and handle kinds (R155) -/

def winLocal : Window → Bool := fun w => w == .spad
def winDie : Window → Bool := fun w => match w with | .die _ _ => true | _ => false
def winLocalDie : Window → Bool := fun w => winLocal w || winDie w
def winStore : Window → Bool := fun w => winLocal w || winDie w || w == .global
def winAny : Window → Bool := fun w => winStore w || w == .code
def kindsVec : List Nat := [1, 2]
def kindsScalar : List Nat := [1, 2, 5]
def kindsH15 : List Nat := [1]

/-- Whether an address is served by the core itself: its local window or code store. -/
def isLocal (va : Nat) : Bool := match windowOf va with | .spad => true | .code => true | _ => false

/-- The die-window index that an access reads. -/
def windowIx (va : Nat) : Option Nat := match windowOf va with | .die n _ => some n | _ => none

/-! ### Posting loads and stores -/

/-- A local load: it is served at the banks from its landing cycle on (R161). -/
def postLoad (sl : Slot) (dest : Dest) (keys : List Nat) (sh : LoadShape) (cls : Nat) (h : Fin 16) (s : State) : State :=
  let f := Flight.start s sl dest (.load (keys.map (fun k => (k, none))) sh) (lat s cls)
  push { f with acc := some (.l, h) } (cntRead .l h s)

/-- A load through the die window or from global memory: a variable producer whose value comes with its arrival (R50, R167,
R168). -/
def postFar (sl : Slot) (dest : Dest) (va : Nat) (keys : List Nat) (sh : LoadShape) (h : Fin 16) (s : State) : State :=
  let d := drawWait s
  let f := Flight.start d.2 sl dest (.load (keys.map (fun k => (k, none))) sh) 1
  push { f with variable' := true, due := s.pipe.wall + d.1, acc := some (.l, h), read := some ⟨.l, h, va, windowIx va, hGuarded (readH s h)⟩ }
    (cntRead .l h d.2)

/-- A store to the own banks, performed in the landing cycle of its class and after (R93, R161). -/
def postStore (sl : Slot) (dest : Dest) (cells : List Host.Cell) (cls : Nat) (h : Fin 16) (s : State) : State :=
  let f := Flight.start s sl dest (.bytes cells) (lat s cls)
  push { f with acc := some (.l, h) } (cntWrite .l h s)

/-- What the signature folds for entries that leave the core (R285, step 1). -/
def foldEntry (va : Nat) (bs : List Byte) : List Word := word va :: foldUnits 9 bs

/-- A store that leaves the core: its pieces join the outbound port in order and are folded (R18, R285, R300). -/
def sendStore (sl : Slot) (h : Fin 16) (ps : List (Nat × Nat × List Byte)) (s : State) : State :=
  let n := fresh (cntWrite .l h s)
  updCyc (fun c => { c with folds := c.folds ++ ps.flatMap (fun p => foldEntry p.1 p.2.2) }) (sendPieces .l h sl n.1 ps n.2)

/-- Bytes cut at granule boundaries: the address and bytes of each piece. -/
def splitGranules : Nat → Nat → List Byte → List (Nat × List Byte)
  | 0, _, _ => []
  | n + 1, a, bs =>
    if bs.isEmpty then []
    else
      let k := 32 - a % 32
      (a, bs.take k) :: splitGranules n (a + k) (bs.drop k)

/-- The cells of bytes at an address. -/
def cellsAt (a : Nat) (bs : List Byte) : List Host.Cell := bs.zipIdx.map (fun b => (a + b.2, b.1))

/-- The keys of n bytes from an address. -/
def keysAt (a n : Nat) : List Nat := (List.range n).map (a + ·)

/-! ### Slot S (R117) -/

/-- An S-slot load of n bytes. -/
def loadS (o : IType) (n : Nat) (signed : Bool) (s : State) : Issued :=
  if xEmpty s o.rs1 || xEmpty s o.rd || cntReadFull s .l 15 then .stall
  else
    let a := addr (readX s o.rs1) (imm12 o.imm)
    checked .s (checkRange s 15 h15Descriptor n winAny kindsH15 .read a n) (fun xs t =>
      if isLocal a then
        if xRecordsFull s o.rd (lat s 3) then .stall
        else .ok (postLoad .s (xDest o.rd) (keysAt a n) (.scalar n signed) 3 15 t)
      else if xRecordsFull s o.rd 2 then .stall
      else .ok (postFar .s (xDest o.rd) a ((keysAt a n).map (keyOf xs)) (.scalar n signed) 15 t))

/-- An S-slot store of n bytes. -/
def storeS (o : SType) (n : Nat) (s : State) : Issued :=
  if xEmpty s o.rs1 || xEmpty s o.rs2 || cntWriteFull s .l 15 then .stall
  else
    let a := addr (readX s o.rs1) (imm12 o.imm)
    let bs := leBytes n (readX s o.rs2).toNat
    checked .s (checkRange s 15 h15Descriptor n winStore kindsH15 .write a n) (fun xs t =>
      if isLocal a then .ok (postStore .s .mem (cellsAt a bs) 3 15 t)
      else .ok (sendStore .s 15 [(a, keyOf xs a, bs)] t))

/-- LB (R117): sign-extended byte. -/
def execLb (o : IType) (s : State) : Host.Outcome State Fault Refusal := issue .s (loadS o 1 true) s

/-- LH (R117): sign-extended halfword. -/
def execLh (o : IType) (s : State) : Host.Outcome State Fault Refusal := issue .s (loadS o 2 true) s

/-- LW (R117): sign-extended word. -/
def execLw (o : IType) (s : State) : Host.Outcome State Fault Refusal := issue .s (loadS o 4 true) s

/-- LD (R117): doubleword. -/
def execLd (o : IType) (s : State) : Host.Outcome State Fault Refusal := issue .s (loadS o 8 true) s

/-- LBU (R117): zero-extended byte. -/
def execLbu (o : IType) (s : State) : Host.Outcome State Fault Refusal := issue .s (loadS o 1 false) s

/-- LHU (R117): zero-extended halfword. -/
def execLhu (o : IType) (s : State) : Host.Outcome State Fault Refusal := issue .s (loadS o 2 false) s

/-- LWU (R117): zero-extended word. -/
def execLwu (o : IType) (s : State) : Host.Outcome State Fault Refusal := issue .s (loadS o 4 false) s

/-- SB (R117). -/
def execSb (o : SType) (s : State) : Host.Outcome State Fault Refusal := issue .s (storeS o 1) s

/-- SH (R117). -/
def execSh (o : SType) (s : State) : Host.Outcome State Fault Refusal := issue .s (storeS o 2) s

/-- SW (R117). -/
def execSw (o : SType) (s : State) : Host.Outcome State Fault Refusal := issue .s (storeS o 4) s

/-- SD (R117). -/
def execSd (o : SType) (s : State) : Host.Outcome State Fault Refusal := issue .s (storeS o 8) s

/-! ### Slot L: vectors (R163 to R167) -/

/-- The address of an LM vector form (R163): the offset counts 32 bytes. -/
def eaLM (s : State) (o : LM) : Nat := addr (readX s o.xb) (imm12 o.off * 32)

/-- The address of an LM scalar form (R168): the offset counts 8 bytes. -/
def eaScalar (s : State) (o : LM) : Nat := addr (readX s o.xb) (imm12 o.off * 8)

/-- The address of row i of a strided form (R164): the stride is signed. -/
def rowAddr (base stride : Word) (i : Nat) : Nat := place ((base.toNat : Int) + i * stride.toInt)

/-- Bytes of a row and of the whole shape (R163). -/
def rowSize (s : State) : Nat := shapeCols s.seq.vshape * shapeB s.seq.vshape
def shapeSize (s : State) : Nat := shapeRows s.seq.vshape * rowSize s

/-- What keeps a vector access from issuing. -/
def vecHalt (s : State) (h : Fin 16) (xs : List (Fin 32)) (d : Dest) (full : Bool) (records : Nat) : List (Option Issued) :=
  xs.map (fun r => stallIf (xEmpty s r)) ++ [stallIf (hEmpty s h), stallIf (isEmpty s d), stallIf full, recordHalt s records]

/-- VLD (R164). -/
def vldBody (o : LM) (s : State) : Issued :=
  firstHalt (vecHalt s o.h [o.xb] (.v o.vd) (cntReadFull s .l o.h) (lat s 4))
    (let a := eaLM s o
     checked .l (checkRange s o.h (readH s o.h) 32 winLocal kindsVec .read a (shapeSize s))
       (fun _ t => .ok (postLoad .l (.v o.vd) (keysAt a (shapeSize s)) .vector 4 o.h t)))

/-- VLDB (R164): one row read once, given to every row. -/
def vldbBody (o : LM) (s : State) : Issued :=
  firstHalt (vecHalt s o.h [o.xb] (.v o.vd) (cntReadFull s .l o.h) (lat s 4))
    (let a := eaLM s o
     checked .l (checkRange s o.h (readH s o.h) 32 winLocal kindsVec .read a (rowSize s))
       (fun _ t => .ok (postLoad .l (.v o.vd)
         ((List.range (shapeRows s.seq.vshape)).flatMap (fun _ => keysAt a (rowSize s))) .vector 4 o.h t)))

/-- VLDS (R164): each row is checked as its own access. -/
def vldsBody (o : LS) (s : State) : Issued :=
  firstHalt (vecHalt s o.h [o.xb, o.xs] (.v o.vd) (cntReadFull s .l o.h) (lat s 4))
    (let stride := readX s o.xs
     let rows := (List.range (shapeRows s.seq.vshape)).map (rowAddr (readX s o.xb) stride)
     if stride.toNat % 32 ≠ 0 then .trap (trapAt cMisaligned .l (readX s o.xb).toNat)
     else checked .l (checkRanges o.h (readH s o.h) 32 winLocal kindsVec .read (rowSize s) rows s)
       (fun _ t => .ok (postLoad .l (.v o.vd) (rows.flatMap (fun a => keysAt a (rowSize s))) .vector 4 o.h t)))

/-- VLDX (R164, R167): a load through the die window, a variable producer. -/
def vldxBody (o : LM) (s : State) : Issued :=
  firstHalt (vecHalt s o.h [o.xb] (.v o.vd) (cntReadFull s .l o.h) 2)
    (let a := eaLM s o
     checked .l (checkRange s o.h (readH s o.h) 32 winDie kindsVec .read a (shapeSize s))
       (fun _ t => .ok (postFar .l (.v o.vd) a (keysAt a (shapeSize s)) .vector o.h t)))

/-- The rows of a store go to the own banks, or leave the core granule by granule, each by its own address (R165). A later row over
the same bytes comes later in service order, so it remains. Where some rows are local and others are not, each part is counted. -/
def storeRows (h : Fin 16) (rows : List (Nat × List Byte)) (s : State) : State :=
  let near := rows.filter (fun r => isLocal r.1)
  let far := rows.filter (fun r => !isLocal r.1)
  let t := if near.isEmpty then s else postStore .l .mem (near.flatMap (fun r => cellsAt r.1 r.2)) 4 h s
  if far.isEmpty then t else sendStore .l h (far.flatMap (fun r => (splitGranules 65 r.1 r.2).map (fun p => (p.1, p.1, p.2)))) t

/-- VST (R165). -/
def vstBody (o : LM) (s : State) : Issued :=
  firstHalt (vecHalt s o.h [o.xb] (.v o.vd) (cntWriteFull s .l o.h) 1)
    (let a := eaLM s o
     checked .l (checkRange s o.h (readH s o.h) 32 winLocalDie kindsVec .write a (shapeSize s))
       (fun _ t => .ok (storeRows o.h [(a, regBytes (readV s o.vd).toNat 0 (shapeSize s))] t)))

/-- VSTS (R165). -/
def vstsBody (o : LS) (s : State) : Issued :=
  firstHalt (vecHalt s o.h [o.xb, o.xs] (.v o.vd) (cntWriteFull s .l o.h) 1)
    (let stride := readX s o.xs
     let rows := (List.range (shapeRows s.seq.vshape)).map (rowAddr (readX s o.xb) stride)
     let data := fun i => regBytes (readV s o.vd).toNat (i * rowSize s) (rowSize s)
     if stride.toNat % 32 ≠ 0 then .trap (trapAt cMisaligned .l (readX s o.xb).toNat)
     else checked .l (checkRanges o.h (readH s o.h) 32 winLocalDie kindsVec .write (rowSize s) rows s)
       (fun _ t => .ok (storeRows o.h (rows.zipIdx.map (fun r => (r.1, data r.2))) t)))

/-- The planes of a plane store by the handle's format (R77, R166); none for a format without a plane form. Untyped bytes are
N8 (R66). -/
def planesOf (f : Nat) : Option Nat :=
  match fmtOf f with
  | some .page | some .n8 => some 9
  | some .i4 | some .bi4 => some 4
  | some .i8 | some .bi8 => some 8
  | some .i16 => some 16
  | some .f4x => some 5
  | some .t3p => some 2
  | _ => none

/-- Whether a plane store reads its elements unsigned (R166). -/
def planesUnsigned (f : Nat) : Bool := match fmtOf f with | some .page | some .n8 => true | _ => false

/-- Bit j of an element of B bytes, its sign continued above it when it is signed (R166). -/
def planeBit (unsigned : Bool) (b e j : Nat) : Bool := if j < 8 * b then e.testBit j else !unsigned && e.testBit (8 * b - 1)

/-- The granule of plane j of row i (R166). -/
def planeGranule (v : Nat) (unsigned : Bool) (b i j : Nat) : List Byte :=
  leBytes 32 ((List.range 256).foldr (fun k r => (if planeBit unsigned b (elem v b (256 * i + k)) j then 1 else 0) + 2 * r) 0)

/-- VSTP (R166). -/
def vstpBody (o : LM) (s : State) : Issued :=
  firstHalt (vecHalt s o.h [o.xb] (.v o.vd) (cntWriteFull s .l o.h) 1)
    (let b := shapeB s.seq.vshape
     let rows := shapeRows s.seq.vshape
     let w := wordOfInstr s (.vstp o)
     if b = 4 ∨ shapeCols s.seq.vshape ≠ 256 then .trap (trapWord cIllegalShape .l w)
     else match planesOf (hFmt (readH s o.h)) with
       | none => .trap (trapOp .l w)
       | some p =>
         let a := eaLM s o
         let v := (readV s o.vd).toNat
         let u := planesUnsigned (hFmt (readH s o.h))
         let bs := (List.range rows).flatMap (fun i => (List.range p).flatMap (fun j => planeGranule v u b i j))
         checked .l (checkRange s o.h (readH s o.h) 32 winLocal kindsVec .write a (rows * p * 32))
           (fun _ t => .ok (postStore .l .mem (cellsAt a bs) 4 o.h t)))

/-- VLD (R164). -/
def execVld (o : LM) (s : State) : Host.Outcome State Fault Refusal := issue .l (vldBody o) s

/-- VST (R165). -/
def execVst (o : LM) (s : State) : Host.Outcome State Fault Refusal := issue .l (vstBody o) s

/-- VLDB (R164). -/
def execVldb (o : LM) (s : State) : Host.Outcome State Fault Refusal := issue .l (vldbBody o) s

/-- VSTP (R166). -/
def execVstp (o : LM) (s : State) : Host.Outcome State Fault Refusal := issue .l (vstpBody o) s

/-- VLDX (R167). -/
def execVldx (o : LM) (s : State) : Host.Outcome State Fault Refusal := issue .l (vldxBody o) s

/-- VLDS (R164). -/
def execVlds (o : LS) (s : State) : Host.Outcome State Fault Refusal := issue .l (vldsBody o) s

/-- VSTS (R165). -/
def execVsts (o : LS) (s : State) : Host.Outcome State Fault Refusal := issue .l (vstsBody o) s

/-! ### Slot L: scalars (R168) -/

/-- SLD (R168): from the local window, die window, code store or global memory. -/
def sldBody (o : LM) (s : State) : Issued :=
  if xEmpty s o.xb || xEmpty s o.vd || hEmpty s o.h || cntReadFull s .l o.h then .stall
  else
    let a := eaScalar s o
    checked .l (checkRange s o.h (readH s o.h) 8 winAny kindsScalar .read a 8) (fun xs t =>
      if isLocal a then
        if xRecordsFull s o.vd (lat s 3) then .stall
        else .ok (postLoad .l (xDest o.vd) (keysAt a 8) (.scalar 8 false) 3 o.h t)
      else if xRecordsFull s o.vd 2 then .stall
      else .ok (postFar .l (xDest o.vd) a ((keysAt a 8).map (keyOf xs)) (.scalar 8 false) o.h t))

/-- SST (R168). -/
def sstBody (o : LM) (s : State) : Issued :=
  if xEmpty s o.xb || xEmpty s o.vd || hEmpty s o.h || cntWriteFull s .l o.h then .stall
  else
    let a := eaScalar s o
    let bs := leBytes 8 (readX s o.vd).toNat
    checked .l (checkRange s o.h (readH s o.h) 8 winStore kindsScalar .write a 8) (fun xs t =>
      if isLocal a then .ok (postStore .l .mem (cellsAt a bs) 3 o.h t)
      else .ok (sendStore .l o.h [(a, keyOf xs a, bs)] t))

/-- SLD (R168). -/
def execSld (o : LM) (s : State) : Host.Outcome State Fault Refusal := issue .l (sldBody o) s

/-- SST (R168). -/
def execSst (o : LM) (s : State) : Host.Outcome State Fault Refusal := issue .l (sstBody o) s

/-! ### Handles (R156 to R158) -/

/-- HSET (R156): the granule is read on path L through h15 and checked as it lands. -/
def hsetBody (h : Fin 16) (xa : Fin 32) (s : State) : Issued :=
  if h = 15 then .trap (trapOp .l (wordOfInstr s (.hset h xa)))
  else if xEmpty s xa || isEmpty s (.h h) || cntReadFull s .l 15 || recordsFull s (lat s 3) then .stall
  else
    let a := (readX s xa).toNat
    if a % 32 ≠ 0 then .trap (trapAt cMisaligned .l a)
    else match windowBad s winLocal 2 a (a + 32) with
      | some b => .trap (trapAt cTranslation .l b)
      | none =>
        let f := Flight.start s .l (.h h) (.load ((keysAt a 32).map (fun k => (k, none))) .descriptor) (lat s 3)
        .ok (push { f with acc := some (.l, 15), read := some ⟨.l, 15, a, none, false⟩ } (cntRead .l 15 s))

/-- HSET (R156). -/
def execHset (h : Fin 16) (xa : Fin 32) (s : State) : Host.Outcome State Fault Refusal := issue .l (hsetBody h xa) s

/-- HGET (R157): one doubleword of the descriptor as it stands at issue, in class 0. -/
def execHget (h : Fin 16) (xd : Fin 32) (sel : Fin 4) (s : State) : Host.Outcome State Fault Refusal :=
  issue .l (fun t =>
    if xEmpty t xd || isEmpty t (.h h) || xRecordsFull t xd (lat t 0) then .stall
    else .ok (postX .l xd (word (bits (readH t h).toNat (64 * sel.val) 64)) 0 t)) s

/-- HCLR (R158): the all-zero descriptor, in class 0. -/
def execHclr (h : Fin 16) (s : State) : Host.Outcome State Fault Refusal :=
  issue .l (fun t =>
    if h = 15 then .trap (trapOp .l (wordOfInstr t (.hclr h)))
    else if isEmpty t (.h h) || recordsFull t (lat t 0) then .stall
    else .ok (push (Flight.start t .l (.h h) (.h 0) (lat t 0)) t)) s

/-! ### VPUSH (R178) -/

/-- The bytes of a shape's elements, those that a predicate leaves out as zeros. -/
def maskedElems (v : Nat) (b n : Nat) (pg : Option PReg) : VReg :=
  regOf b ((List.range n).map (fun i => match pg with
    | some p => if p.getLsbD i then elem v b i else 0
    | none => elem v b i))

/-- Whether a scatter stream is bound to a queue: from its issue until its last entry is taken (R273). -/
def scatterBound (s : State) (q : Fin 4) : Bool :=
  match s.cpy.scatter with
  | some t => t.queue == q && decide (t.taken * t.elems < t.count)
  | none => false

/-- VPUSH (R178). -/
def vpushBody (vs : Fin 32) (qd : Fin 4) (pg : Option (Fin 48)) (s : State) : Issued :=
  let w := wordOfInstr s (.vpush vs qd pg)
  if qd.val < 2 then .trap (trapOp .l w)
  else firstHalt [stallIf (isEmpty s (.v vs)), stallIf (match pg with | some p => isEmpty s (.p p) | none => false)]
    (if pg.isSome && decide (512 < shapeN s.seq.vshape) then .trap (trapWord cIllegalShape .l w)
     else if 4 ≤ (readQ s qd).length then
      (if scatterBound s qd then .stall else .trap (trapWord cQueue .l w))
     else
      let sh := s.seq.vshape
      let e : QEntry := ⟨shapeSize s, maskedElems (readV s vs).toNat (shapeB sh) (shapeN sh) (pg.map (readP s))⟩
      .ok (pushQ s.rcv.commits qd e s))

/-- VPUSH (R178). -/
def execVpush (vs : Fin 32) (qd : Fin 4) (pg : Option (Fin 48)) (s : State) : Host.Outcome State Fault Refusal :=
  issue .l (vpushBody vs qd pg) s

end Sys2Proof.Machine
end

