-- ==== Sys2Proof/Machine/Flags.lean ====
section
/-! DEFINITION. Floating values, rounding and the flags of `vflags` (R68, R69, R79, R82, R138), and the arithmetic of the vector
and function engines on them (R190, R210, R211). A finite value is a sign and m * 2^e; results that are not such a value come
as one with a sticky last bit. -/

namespace Sys2Proof.Machine

open Sys2Proof

/-! ### Flags (R138) -/

def fInvalid : BitVec 7 := 0x01
def fDivzero : BitVec 7 := 0x02
def fOverflow : BitVec 7 := 0x04
def fUnderflow : BitVec 7 := 0x08
def fInexact : BitVec 7 := 0x10
def fT3inv : BitVec 7 := 0x20
def fSat : BitVec 7 := 0x40

/-- A flag that is set on a condition. -/
def flagIf (b : Bool) (f : BitVec 7) : BitVec 7 := if b then f else 0

/-! ### Values -/

/-- A floating value: a NaN, signalling or quiet, an infinity, or (−1)^neg × m × 2^e. -/
inductive Fp where
  | nan (sig : Bool)
  | inf (neg : Bool)
  | fin (neg : Bool) (m : Nat) (e : Int)
  deriving DecidableEq, Repr

/-- A floating format: exponent and fraction widths (R68). -/
structure FFormat where
  ebits : Nat
  fbits : Nat
  deriving DecidableEq, Repr

def f16 : FFormat := ⟨5, 10⟩
def bf16 : FFormat := ⟨8, 7⟩
def f32 : FFormat := ⟨8, 23⟩

/-- The exponent bias. -/
def FFormat.bias (f : FFormat) : Nat := 2 ^ (f.ebits - 1) - 1

/-- The code of +infinity, which every finite code lies below. -/
def FFormat.infCode (f : FFormat) : Nat := (2 ^ f.ebits - 1) * 2 ^ f.fbits

/-- The canonical NaN (R68). -/
def FFormat.nanCode (f : FFormat) : Nat := f.infCode + 2 ^ (f.fbits - 1)

/-- The sign bit's value. -/
def FFormat.signBit (f : FFormat) (neg : Bool) : Nat := if neg then 2 ^ (f.ebits + f.fbits) else 0

/-- A code read as a value (R68): subnormals are kept. -/
def decodeF (f : FFormat) (w : Nat) : Fp :=
  let frac := bits w 0 f.fbits
  let ex := bits w f.fbits f.ebits
  let neg := flag w (f.ebits + f.fbits)
  if ex = 2 ^ f.ebits - 1 then (if frac = 0 then .inf neg else .nan (!flag w (f.fbits - 1)))
  else if ex = 0 then .fin neg frac (1 - (f.bias : Int) - f.fbits)
  else .fin neg (2 ^ f.fbits + frac) ((ex : Int) - f.bias - f.fbits)

/-- A value is a signalling NaN. -/
def Fp.signals (a : Fp) : Bool := match a with | .nan s => s | _ => false

/-- A value is a NaN. -/
def Fp.isNan (a : Fp) : Bool := match a with | .nan _ => true | _ => false

/-- A value is a number. -/
def Fp.isFin (a : Fp) : Bool := match a with | .fin _ _ _ => true | _ => false

/-- The value with its sign changed. -/
def Fp.negate (a : Fp) : Fp :=
  match a with | .nan s => .nan s | .inf n => .inf (!n) | .fin n m e => .fin (!n) m e

/-! ### Rounding (R79) -/

/-- A magnitude rounded: the part below the last place is rem of full. -/
def roundMag (r : Rnd) (neg : Bool) (m rem full : Nat) : Nat :=
  if rem = 0 then m
  else match r with
    | .rne => if 2 * rem < full then m else if full < 2 * rem then m + 1 else m + m % 2
    | .rtz => m
    | .rup => if neg then m else m + 1
    | .rdn => if neg then m + 1 else m
    | .rod => m + 1 - m % 2

/-- m * 2^e in units of 2^q: the whole part, the rest, and what the rest is counted against. -/
def splitAt (m : Nat) (e q : Int) : Nat × Nat × Nat :=
  if q ≤ e then (m * 2 ^ (e - q).toNat, 0, 1)
  else (m / 2 ^ (q - e).toNat, m % 2 ^ (q - e).toNat, 2 ^ (q - e).toNat)

/-- m * 2^e rounded to a whole multiple of 2^q, and whether that changed it. -/
def roundUnits (r : Rnd) (neg : Bool) (m : Nat) (e q : Int) : Nat × Bool :=
  let s := splitAt m e q
  (roundMag r neg s.1 s.2.1 s.2.2, s.2.1 != 0)

/-- The IEEE overflow result of a rounding mode and of sat (R82). -/
def overflowCode (f : FFormat) (r : Rnd) (sat neg : Bool) : Nat :=
  f.signBit neg + (if sat then f.infCode - 1 else match r with
    | .rne => f.infCode
    | .rtz | .rod => f.infCode - 1
    | .rup => if neg then f.infCode - 1 else f.infCode
    | .rdn => if neg then f.infCode else f.infCode - 1)

/-- A nonzero value rounded to a format: its code and flags. Tininess is detected after rounding (R69, R79, R82). -/
def roundF (f : FFormat) (r : Rnd) (sat neg : Bool) (m : Nat) (e : Int) : Nat × BitVec 7 :=
  let emin : Int := 1 - (f.bias : Int)
  let top : Int := e + Nat.log2 m
  let q := max top emin - f.fbits
  let a := roundUnits r neg m e q
  let code := a.1 + (q + f.fbits + f.bias - 1).toNat * 2 ^ f.fbits
  let free := roundUnits r neg m e (top - f.fbits)
  let tiny := decide (top < emin) && !(decide (top + 1 = emin) && free.1 == 2 ^ (f.fbits + 1))
  if f.infCode ≤ code then (overflowCode f r sat neg, fOverflow ||| fInexact ||| flagIf sat fSat)
  else (f.signBit neg + code, flagIf a.2 fInexact ||| flagIf (a.2 && tiny) fUnderflow)

/-- A value rounded by RNE, zero keeping its sign. -/
def nearF (f : FFormat) (neg : Bool) (m : Nat) (e : Int) : Nat × BitVec 7 :=
  if m = 0 then (f.signBit neg, 0) else roundF f .rne false neg m e

/-- The signed integer of m * 2^e in units of 2^q, where q is at most e. -/
def scaled (neg : Bool) (m : Nat) (e q : Int) : Int :=
  let n : Int := (m * 2 ^ (e - q).toNat : Nat)
  if neg then -n else n

/-- An exact sum, rounded by RNE; a sum of zero is +0 unless both terms are negative (R69, R83). -/
def addFin (f : FFormat) (na : Bool) (ma : Nat) (ea : Int) (nb : Bool) (mb : Nat) (eb : Int) : Nat × BitVec 7 :=
  let q := min ea eb
  let i := scaled na ma ea q + scaled nb mb eb q
  if i = 0 then (f.signBit (na && nb), 0) else nearF f (decide (i < 0)) i.natAbs q

/-! ### Arithmetic (R69, R190) -/

/-- The canonical NaN with invalid for a signalling operand. -/
def nanOf (f : FFormat) (sig : Bool) : Nat × BitVec 7 := (f.nanCode, flagIf sig fInvalid)

/-- a + b. -/
def fpAdd (f : FFormat) (a b : Fp) : Nat × BitVec 7 :=
  match a, b with
  | .fin na ma ea, .fin nb mb eb => addFin f na ma ea nb mb eb
  | .inf na, .inf nb => if na = nb then (f.signBit na + f.infCode, 0) else (f.nanCode, fInvalid)
  | .inf n, .fin _ _ _ => (f.signBit n + f.infCode, 0)
  | .fin _ _ _, .inf n => (f.signBit n + f.infCode, 0)
  | a, b => nanOf f (a.signals || b.signals)

/-- a × b. -/
def fpMul (f : FFormat) (a b : Fp) : Nat × BitVec 7 :=
  match a, b with
  | .fin na ma ea, .fin nb mb eb => nearF f (na != nb) (ma * mb) (ea + eb)
  | .inf na, .inf nb => (f.signBit (na != nb) + f.infCode, 0)
  | .inf na, .fin nb m _ => if m = 0 then (f.nanCode, fInvalid) else (f.signBit (na != nb) + f.infCode, 0)
  | .fin na m _, .inf nb => if m = 0 then (f.nanCode, fInvalid) else (f.signBit (na != nb) + f.infCode, 0)
  | a, b => nanOf f (a.signals || b.signals)

/-- a × b + c, rounded once; 0 × inf is invalid whatever c is (R69). -/
def fpFma (f : FFormat) (a b c : Fp) : Nat × BitVec 7 :=
  let sig := a.signals || b.signals || c.signals
  let withInf := fun (n : Bool) => match c with
    | .nan _ => nanOf f sig
    | .inf nc => if n = nc then (f.signBit n + f.infCode, 0) else (f.nanCode, fInvalid)
    | .fin _ _ _ => (f.signBit n + f.infCode, (0 : BitVec 7))
  match a, b with
  | .fin na ma ea, .fin nb mb eb => (match c with
    | .fin nc mc ec => addFin f (na != nb) (ma * mb) (ea + eb) nc mc ec
    | .inf n => (f.signBit n + f.infCode, 0)
    | .nan _ => nanOf f sig)
  | .inf na, .inf nb => withInf (na != nb)
  | .inf na, .fin nb m _ => if m = 0 then (f.nanCode, fInvalid) else withInf (na != nb)
  | .fin na m _, .inf nb => if m = 0 then (f.nanCode, fInvalid) else withInf (na != nb)
  | _, _ => nanOf f sig

/-- Whether a number lies below another, −0 below +0 (R69). -/
def fpBelow (a b : Fp) : Bool :=
  match a, b with
  | .inf na, .inf nb => na && !nb
  | .inf na, .fin _ _ _ => na
  | .fin _ _ _, .inf nb => !nb
  | .fin na ma ea, .fin nb mb eb =>
    let q := min ea eb
    let i := scaled na ma ea q
    let j := scaled nb mb eb q
    decide (i < j) || (i == j && ma == 0 && na && !nb)
  | _, _ => false

/-- Minimum or maximum of two codes (R69): a NaN loses to a number. -/
def fpPick (f : FFormat) (greatest : Bool) (x y : Nat) : Nat × BitVec 7 :=
  let a := decodeF f x
  let b := decodeF f y
  let sig := flagIf (a.signals || b.signals) fInvalid
  if a.isNan then (if b.isNan then (f.nanCode, sig) else (y, sig))
  else if b.isNan then (x, sig)
  else if greatest then (if fpBelow a b then y else x, 0) else (if fpBelow b a then y else x, 0)

/-- Whether two numbers are equal, −0 being +0. -/
def fpSame (a b : Fp) : Bool :=
  match a, b with
  | .inf na, .inf nb => na == nb
  | .fin na ma ea, .fin nb mb eb => let q := min ea eb; scaled na ma ea q == scaled nb mb eb q
  | _, _ => false

/-- Whether a number is less than another, −0 being +0. -/
def fpLess (a b : Fp) : Bool := fpBelow a b && !fpSame a b

/-- A condition on floating values (R194): every one but ne is false of a NaN. -/
def fpCond (c : Cond) (a b : Fp) : Bool × BitVec 7 :=
  if a.isNan || b.isNan then
    (c == .ne, flagIf (match c with | .eq | .ne => a.signals || b.signals | _ => true) fInvalid)
  else (match c with
    | .eq => fpSame a b | .ne => !fpSame a b | .lt => fpLess a b | .le => fpLess a b || fpSame a b
    | .gt => fpLess b a | .ge => fpLess b a || fpSame a b, 0)

/-! ### Division and roots (R210, R211): quotients and roots with a sticky last bit -/

/-- a ÷ b of nonzero magnitudes: a value with a sticky bit. -/
def quotient (ma : Nat) (ea : Int) (mb : Nat) (eb : Int) : Nat × Int :=
  let n := ma * 2 ^ 400
  (2 * (n / mb) + (if n % mb = 0 then 0 else 1), ea - eb - 401)

/-- a ÷ b (R211). -/
def fpDiv (f : FFormat) (a b : Fp) : Nat × BitVec 7 :=
  match a, b with
  | .fin na ma ea, .fin nb mb eb =>
    if mb = 0 then (if ma = 0 then (f.nanCode, fInvalid) else (f.signBit (na != nb) + f.infCode, fDivzero))
    else let q := quotient ma ea mb eb; nearF f (na != nb) q.1 q.2
  | .inf _, .inf _ => (f.nanCode, fInvalid)
  | .inf na, .fin nb _ _ => (f.signBit (na != nb) + f.infCode, 0)
  | .fin na _ _, .inf nb => (f.signBit (na != nb), 0)
  | a, b => nanOf f (a.signals || b.signals)

/-- The value 1. -/
def fpOne : Fp := .fin false 1 0

/-- The whole square root by bits, from bit k downward. -/
def isqrt : Nat → Nat → Nat → Nat
  | 0, r, _ => r
  | k + 1, r, n => isqrt k (if (r + 2 ^ k) * (r + 2 ^ k) ≤ n then r + 2 ^ k else r) n

/-- A magnitude with an even exponent. -/
def evenExp (m : Nat) (e : Int) : Nat × Int := if e % 2 = 0 then (m, e) else (2 * m, e - 1)

/-- √a (R211). -/
def fpSqrt (f : FFormat) (a : Fp) : Nat × BitVec 7 :=
  match a with
  | .nan s => nanOf f s
  | .inf neg => if neg then (f.nanCode, fInvalid) else (f.infCode, 0)
  | .fin neg m e =>
    if m = 0 then (f.signBit neg, 0)
    else if neg then (f.nanCode, fInvalid)
    else
      let v := evenExp m e
      let n := v.1 * 2 ^ 160
      let r := isqrt 128 0 n
      nearF f false (2 * r + (if r * r = n then 0 else 1)) (v.2 / 2 - 81)

/-- 1 ÷ √a (R211). -/
def fpRsqrt (f : FFormat) (a : Fp) : Nat × BitVec 7 :=
  match a with
  | .nan s => nanOf f s
  | .inf neg => if neg then (f.nanCode, fInvalid) else (0, 0)
  | .fin neg m e =>
    if m = 0 then (f.signBit neg + f.infCode, fDivzero)
    else if neg then (f.nanCode, fInvalid)
    else
      let v := evenExp m e
      let r := isqrt 160 0 (2 ^ 300 / v.1)
      nearF f false (2 * r + (if r * r * v.1 = 2 ^ 300 then 0 else 1)) (-151 - v.2 / 2)

/-! ### Transcendental functions (R210, R211)

Values in units of 2^−320, from series whose remainder lies below 2^−300. The functions are never exact at the arguments that
reach a series, and a correct rounding to 24 bits or fewer needs far fewer than 300 bits to decide, so a last sticky 1 rounds
as the exact value does (DEDUCED, assumption 12). -/

/-- 1 in fixed point. -/
def fxOne : Nat := 2 ^ 320

/-- A product in fixed point. -/
def fxMul (a b : Nat) : Nat := a * b / fxOne

/-- atanh z for z at most 1/3: the sum of z^(2k+1) ÷ (2k+1), from the k-th term on. -/
def atanhTail : Nat → Nat → Nat → Nat → Nat
  | 0, _, _, _ => 0
  | n + 1, k, zz, t => t / (2 * k + 1) + atanhTail n (k + 1) zz (fxMul t zz)

/-- atanh in fixed point. -/
def fxAtanh (z : Nat) : Nat := atanhTail 110 0 (fxMul z z) z

/-- ln 2 = 2 atanh (1/3). -/
def fxLn2 : Nat := 2 * fxAtanh (fxOne / 3)

/-- The sum of x^k ÷ k! from the k-th term on. -/
def expTail : Nat → Nat → Nat → Nat → Nat
  | 0, _, _, _ => 0
  | n + 1, k, x, t => t + expTail n (k + 1) x (fxMul t x / (k + 1))

/-- 2^g for g from 0 to 1. -/
def fxExp2 (g : Nat) : Nat := expTail 90 0 (fxMul g fxLn2) fxOne

/-- A dyadic number in fixed point, toward −∞; every argument that comes here is exact. -/
def fxOf (neg : Bool) (m : Nat) (e : Int) : Int :=
  let v : Int := (if -320 ≤ e then m * 2 ^ (e + 320).toNat else m / 2 ^ (-320 - e).toNat : Nat)
  if neg then -v else v

/-- 2^a (R210, R211). Beyond 1,000 in magnitude the result overflows or underflows like 2^±1000. -/
def fpExp2 (f : FFormat) (a : Fp) : Nat × BitVec 7 :=
  match a with
  | .nan s => nanOf f s
  | .inf neg => if neg then (0, 0) else (f.infCode, 0)
  | .fin neg m e =>
    if m = 0 then nearF f false 1 0
    else if 10 < e + Nat.log2 m then nearF f false 3 (if neg then -1000 else 1000)
    else
      let x := fxOf neg m e
      let k := x / fxOne
      let g := (x % fxOne).toNat
      if g = 0 then nearF f false 1 k
      else nearF f false (2 * fxExp2 g + 1) (k - 321)

/-- log2 a (R210, R211). -/
def fpLog2 (f : FFormat) (a : Fp) : Nat × BitVec 7 :=
  match a with
  | .nan s => nanOf f s
  | .inf neg => if neg then (f.nanCode, fInvalid) else (f.infCode, 0)
  | .fin neg m e =>
    if m = 0 then (f.signBit true + f.infCode, fDivzero)
    else if neg then (f.nanCode, fInvalid)
    else
      let b := Nat.log2 m
      let k : Int := e + b
      if m = 2 ^ b then (if k = 0 then (0, 0) else nearF f (decide (k < 0)) k.natAbs 0)
      else
        let y := m * fxOne / 2 ^ b
        let z := (y - fxOne) * fxOne / (y + fxOne)
        let l : Int := (2 * fxAtanh z * fxOne / fxLn2 : Nat)
        let v := k * fxOne + l
        nearF f (decide (v < 0)) (2 * v.natAbs + 1) (-321)

/-- tanh a (R210, R211): by its series' first term below 2^−13, as just below 1 from 32 on, else (1 − t) ÷ (1 + t) with
t = e^(−2|a|). -/
def fpTanh (f : FFormat) (a : Fp) : Nat × BitVec 7 :=
  match a with
  | .nan s => nanOf f s
  | .inf neg => nearF f neg 1 0
  | .fin neg m e =>
    if m = 0 then (f.signBit neg, 0)
    else if e + Nat.log2 m < -13 then nearF f neg (m * 2 ^ 100 - 1) (e - 100)
    else if 4 < e + Nat.log2 m then nearF f neg (2 ^ 200 - 1) (-200)
    else
      let x := (fxOf false m (e + 1)).toNat
      let y := x * fxOne / fxLn2
      let k := y / fxOne
      let g := y % fxOne
      let t := fxOne * fxOne / fxExp2 g / 2 ^ k
      nearF f neg (2 * ((fxOne - t) * fxOne / (fxOne + t)) + 1) (-321)

end Sys2Proof.Machine
end

