-- ==== Sys2Proof/Machine/Formats.lean ====
section
/-! DEFINITION. Element formats: storage, decoding, narrowing to integers, block formats and ternary digits (R65 to R67, R73 to
R82, R200). -/

namespace Sys2Proof.Machine

open Sys2Proof

/-! ### Storage (R65) -/

/-- Bits that an element takes; a T3P digit has no whole number of bits. -/
def fmtBits (f : Fmt) : Nat :=
  match f with
  | .page | .i8 | .n8 | .bi8 => 8
  | .i16 | .n16 | .f16 | .bf16 => 16
  | .i32 | .n32 | .f32 => 32
  | .i4 | .bi4 | .f4x => 4
  | .t3p => 0

/-- Bytes that n elements take. -/
def fmtBytes (f : Fmt) (n : Nat) : Nat := match f with | .t3p => (n + 4) / 5 | f => (n * fmtBits f + 7) / 8

/-- A block format (R70). -/
def isBlock (f : Fmt) : Bool := match f with | .bi8 | .bi4 | .f4x => true | _ => false

/-- The floating format of a format code. -/
def floatOf (f : Fmt) : Option FFormat :=
  match f with | .f16 => some Machine.f16 | .bf16 => some Machine.bf16 | .f32 => some Machine.f32 | _ => none

/-- Width and signedness of the integer formats (R67); untyped bytes are N8 (R66). -/
def intOf (f : Fmt) : Option (Nat × Bool) :=
  match f with
  | .i4 => some (4, true) | .i8 => some (8, true) | .i16 => some (16, true) | .i32 => some (32, true)
  | .page | .n8 => some (8, false) | .n16 => some (16, false) | .n32 => some (32, false)
  | _ => none

/-! ### Decoding -/

/-- An integer as a value. -/
def fpOfInt (i : Int) : Fp := .fin (decide (i < 0)) i.natAbs 0

/-- The base-three digits of a T3P byte by the decoders' multiplications (R75). -/
def t3Digit (b i : Nat) : Nat :=
  let m := match i with | 0 => 65536 | 1 => 21846 | 2 => 7282 | 3 => 2428 | _ => 810
  let q := b * m / 65536
  q - 3 * (q * 21846 / 65536)

/-- The value of a digit (R75). -/
def t3Value (d : Nat) : Int := match d with | 0 => 0 | 1 => 1 | _ => -1

/-- The doubled-grid value of an F4X code with extra value x (R73). -/
def f4xValue (code : Nat) (x : Int) : Int :=
  match code with
  | 0 => 0 | 1 => 1 | 2 => 2 | 3 => 3 | 4 => 4 | 5 => 6 | 6 => 8 | 7 => 12
  | 8 => x
  | 9 => -1 | 10 => -2 | 11 => -3 | 12 => -4 | 13 => -6 | 14 => -8 | _ => -12

/-- A decoded element: its value, its flags, and whether a strict decode traps on it. -/
structure Decoded where
  val : Fp
  flags : BitVec 7
  bad : Bool
  deriving DecidableEq, Repr

/-- The mantissa of a block element (R73). -/
def blockMantissa (f : Fmt) (code : Nat) (x : Int) : Int :=
  match f with | .bi8 => signExt code 8 | .bi4 => signExt code 4 | _ => f4xValue code x

/-- A block element under a scale byte and extra value (R73, R74). -/
def decodeBlock (f : Fmt) (code scale : Nat) (x : Int) : Decoded :=
  if scale = 255 then ⟨.fin false 0 0, fInvalid, true⟩
  else
    let m := blockMantissa f code x
    ⟨.fin (decide (m < 0)) m.natAbs ((scale : Int) - (if f = .f4x then 128 else 127)), 0, false⟩

/-- Element i of a format that is no block format, from the bytes of a number (R65, R67, R68, R75). -/
def decodePlain (f : Fmt) (v i : Nat) : Decoded :=
  match f with
  | .t3p =>
    let b := bits v (8 * (i / 5)) 8
    if 243 ≤ b then ⟨.fin false 0 0, fT3inv, true⟩ else ⟨fpOfInt (t3Value (t3Digit b (i % 5))), 0, false⟩
  | f =>
    let w := fmtBits f
    let code := bits v (w * i) w
    (match floatOf f with
     | some ff => let a := decodeF ff code; ⟨a, 0, !a.isFin⟩
     | none => match intOf f with
       | some (n, sg) => ⟨fpOfInt (if sg then signExt code n else (code : Int)), 0, false⟩
       | none => ⟨.fin false 0 0, 0, false⟩)

/-! ### Narrowing (R79, R82) -/

/-- A value rounded to an integer, and whether that changed it. -/
def roundInt (r : Rnd) (neg : Bool) (m : Nat) (e : Int) : Int × Bool :=
  let a := roundUnits r neg m e 0
  (if neg then -(a.1 : Int) else a.1, a.2)

/-- An integer clamped to a range, and whether the clamp acted. -/
def clampInt (lo hi i : Int) : Int × Bool := if i < lo then (lo, true) else if hi < i then (hi, true) else (i, false)

/-- The least and greatest values of an integer format. -/
def intRange (n : Nat) (sg : Bool) : Int × Int :=
  if sg then (-(2 ^ (n - 1) : Nat), (2 ^ (n - 1) : Nat) - 1) else (0, (2 ^ n : Nat) - 1)

/-- A value narrowed to an integer format (R82): its code and flags. -/
def narrowInt (n : Nat) (sg : Bool) (r : Rnd) (sat : Bool) (a : Fp) : Nat × BitVec 7 :=
  let range := intRange n sg
  match a with
  | .nan _ => (0, fInvalid)
  | .inf neg => (wrapNat n (if neg then range.1 else range.2), fInvalid)
  | .fin neg m e =>
    let i := roundInt r neg m e
    let c := clampInt range.1 range.2 i.1
    if sat then (wrapNat n c.1, flagIf (i.2 || c.2) fInexact ||| flagIf c.2 fSat)
    else (wrapNat n i.1, flagIf i.2 fInexact)

/-- A value narrowed to a floating format (R82): its code and flags. -/
def narrowF (f : FFormat) (r : Rnd) (sat : Bool) (a : Fp) : Nat × BitVec 7 :=
  match a with
  | .nan s => (f.nanCode, flagIf s fInvalid)
  | .inf neg => if sat then (f.signBit neg + f.infCode - 1, fSat) else (f.signBit neg + f.infCode, 0)
  | .fin neg m e => if m = 0 then (f.signBit neg, 0) else roundF f r sat neg m e

/-- A value narrowed to a T3P digit (R82, R199). -/
def narrowT3 (r : Rnd) (a : Fp) : Nat × BitVec 7 :=
  match a with
  | .nan _ => (0, fInvalid)
  | .inf neg => (if neg then 2 else 1, fInvalid)
  | .fin neg m e =>
    let i := roundInt r neg m e
    let c := clampInt (-1) 1 i.1
    (if c.1 = 0 then 0 else if c.1 = 1 then 1 else 2, flagIf (i.2 || c.2) fInexact ||| flagIf c.2 fSat)

/-! ### Floating values into block integers (R81) -/

/-- The largest magnitude of the finite elements, as m and e; m = 0 when there is none. -/
def largest : List Fp → Nat × Int
  | [] => (0, 0)
  | a :: r =>
    let b := largest r
    match a with
    | .fin _ m e => if fpBelow (.fin false b.1 b.2) (.fin false m e) then (m, e) else b
    | _ => b

/-- floor(log2 (m * 2^e)). -/
def floorLog (m : Nat) (e : Int) : Int := e + Nat.log2 m

/-- The exponent of a BI8 or BI4 block: W is the greatest mantissa, c its exponent; and whether it was clamped (R81). -/
def blockExp (w : Nat) (c : Int) (r : Rnd) (es : List Fp) : Int × Bool :=
  let a := largest es
  if a.1 = 0 then (-127, false)
  else
    let e0 := floorLog a.1 a.2 - c
    let e1 := if (w : Int) < (roundInt r false a.1 (a.2 - e0)).1.natAbs then e0 + 1 else e0
    if e1 < -127 then (-127, true) else (e1, false)

/-- One element of a BI8 or BI4 block narrowed under the block's exponent (R81, R82). DEDUCED (76): −inf gives −W, as R81's own
assignment says, though R82 speaks of the nearer end and −W − 1 is a member. -/
def blockElem (w : Nat) (r : Rnd) (ex : Int) (clamped : Bool) (a : Fp) : Int × BitVec 7 :=
  match a with
  | .nan _ => (0, fInvalid)
  | .inf neg => (if neg then -(w : Int) else w, fInvalid)
  | .fin neg m e =>
    let i := roundInt r neg m (e - ex)
    let c := clampInt (-(w : Int) - 1) w i.1
    (c.1, flagIf (i.2 || c.2) fInexact ||| flagIf c.2 fSat ||| flagIf (clamped && i.2) fUnderflow)

/-! ### F4X (R80, R200) -/

/-- The regular doubled-grid values. -/
def f4xRegular : List Int := [0, 1, 2, 3, 4, 6, 8, 12, -1, -2, -3, -4, -6, -8, -12]

/-- The code of a regular value (R73). -/
def f4xCode (v : Int) : Nat :=
  match v with
  | 0 => 0 | 1 => 1 | 2 => 2 | 3 => 3 | 4 => 4 | 6 => 5 | 8 => 6 | 12 => 7
  | -1 => 9 | -2 => 10 | -3 => 11 | -4 => 12 | -6 => 13 | -8 => 14 | -12 => 15
  | _ => 8

/-- The candidates of a row with extra value x: a regular value is listed once (R80). -/
def f4xMembers (x : Int) : List Int := if f4xRegular.contains x then f4xRegular else x :: f4xRegular

/-- Comparison of m * 2^e, signed, with an integer: its difference in units that fit both. -/
def lessThan (neg : Bool) (m : Nat) (e : Int) (k : Int) : Ordering :=
  let q := min e 0
  compare (scaled neg m e q) (k * (2 ^ (-q).toNat : Nat))

/-- The greatest member below and the least above a value. -/
def f4xBelow (neg : Bool) (m : Nat) (e : Int) (l : List Int) : Option Int :=
  (l.filter (fun k => lessThan neg m e k == .gt)).foldl (fun b k => match b with | none => some k | some v => some (max v k)) none
def f4xAbove (neg : Bool) (m : Nat) (e : Int) (l : List Int) : Option Int :=
  (l.filter (fun k => lessThan neg m e k == .lt)).foldl (fun b k => match b with | none => some k | some v => some (min v k)) none

/-- Of two members around a value, the one that a rounding mode picks (R79, R80). `even` and `odd` are the members whose code has
bit 0 clear and set; where the codes agree in bit 0 both modes that look at it take the member that is not x. -/
def f4xPick (r : Rnd) (neg : Bool) (m : Nat) (e : Int) (x lo hi : Int) : Int :=
  let bit := fun (k : Int) => f4xCode k % 2
  let same := bit lo == bit hi
  let notX := if lo = x then hi else lo
  let even := if same then notX else if bit lo = 0 then lo else hi
  let odd := if same then notX else if bit lo = 1 then lo else hi
  match r with
  | .rne => (match lessThan neg (2 * m) e (lo + hi) with | .lt => lo | .gt => hi | .eq => even)
  | .rtz => if lo.natAbs < hi.natAbs then lo else hi
  | .rup => hi
  | .rdn => lo
  | .rod => odd

/-- A value, scaled to the doubled grid, narrowed to an F4X code (R80, R82): a result of 0 is 0000. -/
def f4xElem (r : Rnd) (x : Int) (ex : Int) (a : Fp) : Nat × BitVec 7 :=
  let l := f4xMembers x
  let top := l.foldl max 0
  let bottom := l.foldl min 0
  match a with
  | .nan _ => (0, fInvalid)
  | .inf neg => (f4xCode (if neg then bottom else top), fInvalid)
  | .fin neg m e0 =>
    let e := e0 - ex
    match l.find? (fun k => lessThan neg m e k == .eq) with
    | some k => (f4xCode k, 0)
    | none => match f4xBelow neg m e l, f4xAbove neg m e l with
      | some lo, some hi => (f4xCode (f4xPick r neg m e x lo hi), fInexact)
      | some lo, none => (f4xCode lo, fInexact ||| fSat)
      | none, some hi => (f4xCode hi, fInexact ||| fSat)
      | none, none => (0, 0)

/-- The element whose magnitude is the largest, the first of several. -/
def largestSigned (es : List Fp) : Bool × Nat × Int :=
  let a := largest es
  match es.find? (fun v => match v with | .fin _ m e => fpSame (.fin false m e) (.fin false a.1 a.2) | _ => false) with
  | some (.fin neg m e) => (neg, m, e)
  | _ => (false, 0, 0)

/-- Exponent and extra value of an F4X row (R200). -/
def f4xScale (r : Rnd) (es : List Fp) : Int × Int :=
  let a := largestSigned es
  if a.2.1 = 0 then (-128, 0)
  else
    let u := fun (ex : Int) => (roundInt r a.1 a.2.1 (a.2.2 - ex)).1
    let e0 := floorLog a.2.1 a.2.2 - 3
    let e1 := if 15 < u e0 || u e0 < -16 then e0 + 1 else e0
    let e2 := if e1 < -128 then -128 else e1
    (e2, if f4xRegular.contains (u e2) then 0 else u e2)

/-- A block encoded (R81, R200): its scale byte, its extra value's five bits, its codes and flags. -/
def encodeBlock (f : Fmt) (r : Rnd) (es : List Fp) : Nat × Nat × List Nat × BitVec 7 :=
  let join := fun (l : List (Nat × BitVec 7)) => (l.map (·.1), (l.foldl (fun a e => a ||| e.2) (0 : BitVec 7)))
  match f with
  | .f4x =>
    let s := f4xScale r es
    let o := join (es.map (f4xElem r s.2 s.1))
    ((s.1 + 128).toNat, wrapNat 5 s.2, o.1, o.2)
  | _ =>
    let w := if f = .bi8 then 127 else 7
    let s := blockExp w (if f = .bi8 then 6 else 2) r es
    let o := join (es.map (fun a => let b := blockElem w r s.1 s.2 a; (wrapNat (fmtBits f) b.1, b.2)))
    ((s.1 + 127).toNat, 0, o.1, o.2)

/-- An element narrowed to a format that is no block format: its code and flags. -/
def narrowPlain (f : Fmt) (r : Rnd) (sat : Bool) (a : Fp) : Nat × BitVec 7 :=
  match floatOf f with
  | some ff => narrowF ff r sat a
  | none => match intOf f with
    | some (n, sg) => narrowInt n sg r sat a
    | none => narrowT3 r a

/-- Codes packed into bytes (R65): nibbles two to a byte, digits five to a byte, the rest little-endian. -/
def packT3 : Nat → List Nat → Nat
  | 0, _ => 0
  | n + 1, ds =>
    if ds.isEmpty then 0
    else
      let b := (ds.take 5).foldr (fun d r => d + 3 * r) 0
      b + 256 * packT3 n (ds.drop 5)

/-- The number whose bytes hold codes of a format in order. -/
def packCodes (f : Fmt) (cs : List Nat) : Nat :=
  match f with
  | .t3p => packT3 2048 cs
  | f => cs.foldr (fun c r => c % 2 ^ fmtBits f + r * 2 ^ fmtBits f) 0

/-- The first byte's offset and the byte count of element e (R65). -/
def elemPlace (f : Fmt) (e : Nat) : Nat × Nat :=
  match f with
  | .t3p => (e / 5, 1)
  | f => (e * fmtBits f / 8, max 1 (fmtBits f / 8))

end Sys2Proof.Machine
end

