-- ==== Sys2Proof/Machine/Vector.lean ====
section
/-! DEFINITION. The vector engines of slots V0 and V1 (R181 to R205). -/

namespace Sys2Proof.Machine

open Sys2Proof

/-! ### Issue of a vector or function operation (R184, R186, R187, R203, R207) -/

/-- The slot of a vector engine. -/
def vslot (e : VEng) : Slot := match e with | .v0 => .v0 | .v1 => .v1

/-- The wall cycle from which an engine accepts its next operation. -/
def busyOf (s : State) (sl : Slot) : Nat :=
  match sl with | .v0 => s.pipe.busyV0 | .v1 => s.pipe.busyV1 | _ => s.pipe.busyF

/-- An engine is occupied for n wall cycles. -/
def occupy (sl : Slot) (n : Nat) (s : State) : State :=
  updPipe (fun p => match sl with
    | .v0 => { p with busyV0 := p.wall + n }
    | .v1 => { p with busyV1 := p.wall + n }
    | _ => { p with busyF := p.wall + n }) s

/-- A quotient rounded up. -/
def ceilDiv (a b : Nat) : Nat := (a + b - 1) / b

/-- The queue operand of a word: its queue and its wait bit. -/
def queueOf (q : Bool) (vs2 : Fin 32) (w2 : Bool) : Option (Fin 4 × Bool) :=
  if q then some (Fin.ofNat 4 vs2.val, w2) else none

/-- What a queue operand raises: QUEUE for q2 and q3, and for an empty queue a stall or QUEUE by its wait bit (R50, R184). A
duplicate takes what V0 popped. -/
def queueHalt (s : State) (sl : Slot) (w : Nat) (dup : Bool) (q : Option (Fin 4 × Bool)) : Option Issued :=
  match q with
  | some (n, wait) =>
    if !dup && (readQ s n).isEmpty then some (if wait || (records s).isSome then .stall else .trap (trapWord cQueue sl w)) else none
  | none => none

/-- A word that names q2 or q3 as a source (R184). -/
def queueBad (q : Option (Fin 4 × Bool)) : Bool := match q with | some (n, _) => decide (2 ≤ n.val) | none => false

/-- The entry that a queue operand takes: the oldest, or for a duplicate the one that V0 popped. -/
def queueEntry (s : State) (dup : Bool) (q : Option (Fin 4 × Bool)) : QEntry :=
  match q with
  | some (n, _) => if dup then ((s.cyc.bind (·.popped)).getD ⟨0, 0⟩) else ((readQ s n).head?).getD ⟨0, 0⟩
  | none => ⟨0, 0⟩

/-- A result with its flags, or the trap of a strict conversion. -/
abbrev VecResult := Except Trap (FVal × BitVec 7)

/-- One vector or function operation in the order of R187 and R207: stalls for the engine, the destination and a record; the
shape; a queue that cannot be popped; empty sources in order; then the operation itself. A queue operand adds class 14 and
makes the operation a variable producer (R50, R186): DESIGN CHOICE (80), its result also arrives while the next unit is held up, where
its landing issue cycle would never come. `ready` is the wall cycle, counted from issue, by which a slower
result is there (R208). A V1 duplicate hands its result to V0's for comparison (R203). -/
def vecIssue (sl : Slot) (w : Nat) (dest : Dest) (shapeBad : Bool) (q : Option (Fin 4 × Bool)) (dup : Bool)
    (before after : List (Option Issued)) (latency occ ready : Nat) (run : QEntry → VecResult) (s : State) : Issued :=
  let l := latency + (if q.isSome then lat s 14 else 0)
  if decide (s.pipe.wall < busyOf s sl) || isEmpty s dest || (!dup && dest.recorded && recordsFull s l) then .stall
  else if shapeBad then .trap (trapWord cIllegalShape sl w)
  else if queueBad q then .trap (trapWord cQueue sl w)
  else match (before ++ [queueHalt s sl w dup q] ++ after).findSome? id with
    | some h => h
    | none => match run (queueEntry s dup q) with
      | .error t => .trap t
      | .ok (v, fl) =>
        let t := occupy sl occ s
        if dup then (match s.cyc.bind (·.v0) with
          | none => .trap ⟨cIllegalBundle, tvalIssue 3 3 2 w, false⟩
          | some id => .ok (updFlight id (fun f => { f with dup := (match v with | .v b => some (b, fl) | _ => none) }) t))
        else
          let f := { Flight.start t sl dest v l with vfl := fl, variable' := q.isSome
                                                     due := if q.isSome || decide (l < ready) then s.pipe.wall + max l ready - 1 else 0 }
          let t := if sl == .v0 then updCyc (fun c => { c with v0 := some t.nextId, popped := (if q.isSome then some (queueEntry s dup q) else none) }) t else t
          .ok (push f (match q with | some (n, _) => popQ s.rcv.commits n t | none => t))

/-- A vector source with its wait bit. -/
def vSource (s : State) (sl : Slot) (w : Nat) (wait : Bool) (n : Fin 32) : Option Issued := emptySource s sl w wait (.v n)

/-- The governing predicate as a source without a wait bit. -/
def pgSource (s : State) (sl : Slot) (w : Nat) (pg : Option (Fin 48)) : Option Issued :=
  match pg with | some p => emptySource s sl w true (.p p) | none => none

/-- Whether element i is active (R183). -/
def activeAt (s : State) (pg : Option (Fin 48)) (i : Nat) : Bool := match pg with | some p => (readP s p).getLsbD i | none => true

/-- A predicate over more than 512 elements (R183). -/
def pgTooWide (s : State) (pg : Option (Fin 48)) : Bool := pg.isSome && decide (512 < shapeN s.seq.vshape)

/-- The second operand's bytes: vs2 or the entry. -/
def operandB (s : State) (q : Bool) (vs2 : Fin 32) (e : QEntry) : Nat := if q then e.bytes.toNat else (readV s vs2).toNat

/-! ### Element operations (R188) -/

/-- Elements by R188: the operation where active, else 0 or the old element; and the flags of the active ones. -/
def elementwise (s : State) (n b : Nat) (pg : Option (Fin 48)) (zm : Bool) (x y z : Nat) (f : Nat → Nat → Nat → Nat × BitVec 7) :
    VReg × BitVec 7 :=
  let es := (List.range n).map (fun i =>
    if activeAt s pg i then f (elem x b i) (elem y b i) (elem z b i)
    else if zm then (0, (0 : BitVec 7)) else (elem z b i, 0))
  (regOf b (es.map (·.1)), es.foldl (fun a e => a ||| e.2) 0)

/-- A V3R operation over the elements of the shape, in a class. `bad` is its shape rule. -/
def v3rOp (e : VEng) (i : Instr) (o : V3R) (cls : Nat) (bad : Nat → Bool) (f : Nat → Nat → Nat → Nat → Nat × BitVec 7) (s : State) :
    Issued :=
  let sl := vslot e
  let w := wordOfInstr s i
  let b := shapeB s.seq.vshape
  let n := shapeN s.seq.vshape
  vecIssue sl w (.v o.vd) (bad b || pgTooWide s o.pg) (queueOf o.q o.vs2 o.w2) o.dup
    [vSource s sl w o.w1 o.vs1, if o.q then none else vSource s sl w o.w2 o.vs2] [pgSource s sl w o.pg]
    (lat s cls) (ceilDiv (n * b) 512) 0
    (fun en => let r := elementwise s n b o.pg o.zm (readV s o.vs1).toNat (operandB s o.q o.vs2 en) (readV s o.vd).toNat (f b)
      .ok (.v r.1, r.2)) s

/-- The V3R operations without a second operand. -/
def v2rOp (e : VEng) (i : Instr) (o : V2R) (f : Nat → Nat → Nat → Nat → Nat × BitVec 7) (s : State) : Issued :=
  v3rOp e i ⟨o.vd, o.vs1, o.vs1, o.pg, o.zm, o.w1, o.w1, false, o.dup⟩ 5 (fun _ => false) f s

/-- No shape rule of its own. -/
def anyWidth (_ : Nat) : Bool := false

/-! ### Integer operations (R189), on codes of w = 8B bits -/

/-- An integer operation that sets no flag: f of the width and the two codes. -/
def intOp (f : Nat → Nat → Nat → Nat) (b x y _ : Nat) : Nat × BitVec 7 := (f (8 * b) x y % 2 ^ (8 * b), 0)

/-- A result clamped to the signed or natural range, with SAT (R189). -/
def satOp (sg : Bool) (f : Nat → Nat → Nat → Int) (b x y _ : Nat) : Nat × BitVec 7 :=
  let r := intRange (8 * b) sg
  let c := clampInt r.1 r.2 (f (8 * b) x y)
  (wrapNat (8 * b) c.1, flagIf c.2 fSat)

/-- The difference modulo 2^w. -/
def subCode (w x y : Nat) : Nat := x + 2 ^ w - y

/-- The high half of a signed product. -/
def mulHighI (w x y : Nat) : Nat := wrapNat w (signExt x w * signExt y w / (2 ^ w : Nat))

/-- Whether a code lies below another. -/
def belowCode (sg : Bool) (w x y : Nat) : Bool := if sg then decide (signExt x w < signExt y w) else decide (x < y)

/-- The lesser and the greater of two codes. -/
def minCode (sg : Bool) (w x y : Nat) : Nat := if belowCode sg w y x then y else x
def maxCode (sg : Bool) (w x y : Nat) : Nat := if belowCode sg w x y then y else x

/-- An arithmetic shift right by u(b) mod w. -/
def sraCode (w x y : Nat) : Nat := wrapNat w (signExt x w / (2 ^ (y % w) : Nat))

/-! ### Floating operations (R182, R190) -/

/-- The floating view of a width: F16 or F32 for the vf forms, BF16 for the vbf forms. -/
def viewOf (bf : Bool) (b : Nat) : FFormat := if bf then bf16 else if b = 2 then f16 else f32

/-- The widths that a floating form refuses (R182). -/
def viewBad (bf : Bool) (b : Nat) : Bool := if bf then b != 2 else b == 1

/-- A floating operation on three values. -/
def floatOp (bf : Bool) (f : FFormat → Fp → Fp → Fp → Nat × BitVec 7) (b x y z : Nat) : Nat × BitVec 7 :=
  let v := viewOf bf b
  f v (decodeF v x) (decodeF v y) (decodeF v z)

/-- Minimum or maximum of codes. -/
def pickOp (bf greatest : Bool) (b x y _ : Nat) : Nat × BitVec 7 := fpPick (viewOf bf b) greatest x y

/-! ### Compares (R194) -/

/-- A condition on integer codes. -/
def intCond (sg : Bool) (c : Cond) (w x y : Nat) : Bool :=
  match c with
  | .eq => x == y | .ne => x != y | .lt => belowCode sg w x y | .le => !belowCode sg w y x
  | .gt => belowCode sg w y x | .ge => !belowCode sg w x y

/-- A predicate from its bits. -/
def predOf (bs : List Bool) : PReg := BitVec.ofNat 512 (bs.foldr (fun b r => one b + 2 * r) 0)

/-- VCMP (R194): inactive bits are cleared. -/
def vcmpOp (e : VEng) (i : Instr) (o : VCP) (cls : Nat) (bad : Nat → Bool) (f : Nat → Nat → Nat → Bool × BitVec 7) (s : State) :
    Issued :=
  let sl := vslot e
  let w := wordOfInstr s i
  let b := shapeB s.seq.vshape
  let n := shapeN s.seq.vshape
  let x := (readV s o.vs1).toNat
  let y := (readV s o.vs2).toNat
  vecIssue sl w (.p o.pd) (bad b || decide (512 < n)) none false
    [vSource s sl w o.w o.vs1, vSource s sl w o.w o.vs2, pgSource s sl w o.pg] [] (lat s cls) (ceilDiv (n * b) 512) 0
    (fun _ =>
      let es := (List.range n).map (fun j => if activeAt s o.pg j then f b (elem x b j) (elem y b j) else (false, (0 : BitVec 7)))
      .ok (.p (predOf (es.map (·.1))), es.foldl (fun a e => a ||| e.2) 0)) s

/-! ### Reductions (R85, R195) -/

/-- One level of the tree: pairs combined, an odd last entry carried up (R85). -/
def treeLevel (f : Nat → Nat → Nat × BitVec 7) : List Nat → List Nat × BitVec 7
  | a :: b :: r => let n := f a b; let t := treeLevel f r; (n.1 :: t.1, n.2 ||| t.2)
  | l => (l, 0)

/-- The tree over a list, level by level (R85). -/
def tree (f : Nat → Nat → Nat × BitVec 7) : Nat → List Nat → Nat × BitVec 7
  | 0, l => (l.headD 0, 0)
  | n + 1, l =>
    match l with
    | [a] => (a, 0)
    | l => let t := treeLevel f l; let r := tree f n t.1; (r.1, t.2 ||| r.2)

/-- The neutral value of an operation on integer codes (R85). -/
def neutralInt (sg : Bool) (op : RedOp) (w : Nat) : Nat :=
  let r := intRange w sg
  match op with | .sum => 0 | .max => wrapNat w r.1 | .min => wrapNat w r.2

/-- The neutral value of an operation on floating codes (R85). -/
def neutralF (f : FFormat) (op : RedOp) : Nat :=
  match op with | .sum => f.signBit true | .max => f.signBit true + f.infCode | .min => f.infCode

/-- A node on integer codes. -/
def nodeInt (sg : Bool) (op : RedOp) (w x y : Nat) : Nat × BitVec 7 :=
  (match op with | .sum => (x + y) % 2 ^ w | .max => maxCode sg w x y | .min => minCode sg w x y, 0)

/-- A node on floating codes. -/
def nodeF (f : FFormat) (op : RedOp) (x y : Nat) : Nat × BitVec 7 :=
  match op with
  | .sum => fpAdd f (decodeF f x) (decodeF f y)
  | .max => fpPick f true x y
  | .min => fpPick f false x y

/-- A reduction that gives a NaN gives the canonical one, also where it is the only element (R69, R85). -/
def canonical (f : FFormat) (r : Nat × BitVec 7) : Nat × BitVec 7 := if (decodeF f r.1).isNan then (f.nanCode, r.2) else r

/-- A reduction (R195): the result elements are written whatever their predicate bits, the others merged or zeroed. -/
def vredOp (e : VEng) (i : Instr) (o : VRed) (cls : Nat) (bad : Nat → Bool) (neutral : Nat → Nat)
    (node : Nat → Nat → Nat → Nat × BitVec 7) (last : Nat → Nat × BitVec 7 → Nat × BitVec 7) (s : State) : Issued :=
  let sl := vslot e
  let w := wordOfInstr s i
  let sh := s.seq.vshape
  let b := shapeB sh
  let n := shapeN sh
  let rows := shapeRows sh
  let cols := shapeCols sh
  let x := (readV s o.vs1).toNat
  let z := (readV s o.vd).toNat
  let inp := fun j => if activeAt s o.pg j then elem x b j else neutral b
  vecIssue sl w (.v o.vd) (bad b || pgTooWide s o.pg) none o.dup [vSource s sl w o.w1 o.vs1, pgSource s sl w o.pg] []
    (lat s cls) (ceilDiv (n * b) 512) 0
    (fun _ =>
      let groups := if o.cols then (List.range cols).map (fun c => (c, (List.range rows).map (fun r => r * cols + c)))
        else (List.range rows).map (fun r => (r * cols, (List.range cols).map (fun c => r * cols + c)))
      let res := groups.map (fun g => (g.1, last b (tree (node b) 12 (g.2.map inp))))
      let at' := fun j => match res.find? (fun r => r.1 == j) with
        | some r => r.2.1
        | none => if o.zm then 0 else elem z b j
      .ok (.v (regOf b ((List.range n).map at')), res.foldl (fun a r => a ||| r.2.2) 0)) s

/-! ### Conversions (R197 to R202) -/

/-- The values of a source, row by row, with flags and whether a strict decode traps. -/
def cvtSource (s : State) (f : Fmt) (n cols : Nat) (vs1 : Fin 32) : List Decoded :=
  let v := (readV s vs1).toNat
  if isBlock f then
    let c := (readV s (companion vs1)).toNat
    (List.range n).map (fun j =>
      let r := j / cols
      decodeBlock f (bits v (fmtBits f * j) (fmtBits f)) (bits c (16 * r) 8) (signExt (bits c (16 * r + 8) 5) 5))
  else (List.range n).map (decodePlain f v)

/-- Rows of a list. -/
def rowsOf {α : Type} : Nat → Nat → List α → List (List α)
  | 0, _, _ => []
  | n + 1, cols, l => l.take cols :: rowsOf n cols (l.drop cols)

/-- The result of a conversion: the register's number, the companion's for a block format, and the flags. -/
def cvtResult (f : Fmt) (r : Rnd) (sat : Bool) (rows cols : Nat) (vs : List Fp) : Nat × Option Nat × BitVec 7 :=
  if isBlock f then
    let bs := (rowsOf rows cols vs).map (encodeBlock f r)
    (packCodes f (bs.flatMap (·.2.2.1)), some (packCodes .n16 (bs.map (fun b => b.1 + 256 * b.2.1))),
      bs.foldl (fun a b => a ||| b.2.2.2) 0)
  else
    let es := vs.map (narrowPlain f r sat)
    (packCodes f (es.map (·.1)), none, es.foldl (fun a e => a ||| e.2) 0)

/-- BAD_DATA of a register source (R143). -/
def badSource (sl : Slot) : Trap := trapAt cBadData sl 0

/-- VCVT (R197 to R200). -/
def vcvtBody (e : VEng) (o : VCV) (s : State) : Issued :=
  let sl := vslot e
  let w := wordOfInstr s (.vcvt e o)
  let sh := s.seq.vshape
  let n := shapeN sh
  let cols := shapeCols sh
  let sb := fmtBytes o.fin n
  let rb := fmtBytes o.fout n
  let block := isBlock o.fin || isBlock o.fout
  vecIssue sl w (if isBlock o.fout then .vv o.vd else .v o.vd)
    (decide (2048 < sb) || decide (2048 < rb) || (block && !(cols == 16 || cols == 32 || cols == 64))) none false
    [vSource s sl w o.w1 o.vs1, if isBlock o.fin then vSource s sl w o.w1 (companion o.vs1) else none] []
    (lat s 7) (ceilDiv (max sb rb) 512) 0
    (fun _ =>
      let src := cvtSource s o.fin n cols o.vs1
      if o.strict && src.any (·.bad) then .error (badSource sl)
      else
        let r := cvtResult o.fout o.rnd o.sat (shapeRows sh) cols (src.map (·.val))
        let fl := src.foldl (fun a d => a ||| d.flags) r.2.2
        .ok (match r.2.1 with
          | some c => (.vv (BitVec.ofNat 16384 r.1) (BitVec.ofNat 16384 c), fl)
          | none => (.v (BitVec.ofNat 16384 r.1), fl))) s

/-- VUNP3 (R201). -/
def vunp3Body (e : VEng) (vd vs1 : Fin 32) (fout : Fmt) (strict w1 : Bool) (s : State) : Issued :=
  let sl := vslot e
  let w := wordOfInstr s (.vunp3 e vd vs1 fout strict w1)
  let n := shapeN s.seq.vshape
  let rb := fmtBytes fout n
  vecIssue sl w (.v vd) (decide (2048 < rb)) none false [vSource s sl w w1 vs1] [] (lat s 7) (ceilDiv (max (fmtBytes .t3p n) rb) 512) 0
    (fun _ =>
      let src := (List.range n).map (decodePlain .t3p (readV s vs1).toNat)
      if strict && src.any (·.bad) then .error (badSource sl)
      else
        let r := cvtResult fout .rne false 1 n (src.map (·.val))
        .ok (.v (BitVec.ofNat 16384 r.1), src.foldl (fun a d => a ||| d.flags) 0)) s

/-- VPACK (R202): results of half the width, those of vs1 first. -/
def vpackBody (e : VEng) (o : V3R) (s : State) : Issued :=
  let sl := vslot e
  let w := wordOfInstr s (.vpack e o)
  let b := shapeB s.seq.vshape
  let n := shapeN s.seq.vshape
  let h := 4 * b
  vecIssue sl w (.v o.vd) (pgTooWide s o.pg) (queueOf o.q o.vs2 o.w2) o.dup
    [vSource s sl w o.w1 o.vs1, if o.q then none else vSource s sl w o.w2 o.vs2] [pgSource s sl w o.pg]
    (lat s 5) (ceilDiv (n * b) 512) 0
    (fun en =>
      let x := (readV s o.vs1).toNat
      let y := operandB s o.q o.vs2 en
      let z := (readV s o.vd).toNat
      let one' := fun (v i j : Nat) =>
        if activeAt s o.pg i then
          let r := intRange h true
          let c := clampInt r.1 r.2 (signExt (elem v b i) (8 * b))
          (wrapNat h c.1, flagIf c.2 fSat)
        else if o.zm then (0, (0 : BitVec 7)) else (bits z (h * j) h, 0)
      let es := (List.range n).map (fun i => one' x i i) ++ (List.range n).map (fun i => one' y i (n + i))
      .ok (.v (BitVec.ofNat 16384 (es.foldr (fun c r => c.1 + r * 2 ^ h) 0)), es.foldl (fun a c => a ||| c.2) 0)) s

/-! ### Fills, shapes and predicates (R192, R193, R196) -/

/-- A register filled with one element value. -/
def fillReg (s : State) (v : Nat) : VReg := regOf (shapeB s.seq.vshape) (List.replicate (shapeN s.seq.vshape) v)

/-- VBCAST (R192). -/
def vbcastBody (e : VEng) (vd : Fin 32) (imm : BitVec 16) (s : State) : Issued :=
  let b := shapeB s.seq.vshape
  vecIssue (vslot e) (wordOfInstr s (.vbcast e vd imm)) (.v vd) false none false [] [] (lat s 5) (ceilDiv (shapeN s.seq.vshape * b) 512) 0
    (fun _ => .ok (.v (fillReg s (if b = 4 then wrapNat 32 (signExt imm.toNat 16) else imm.toNat)), 0)) s

/-- VBCX (R192). -/
def vbcxBody (e : VEng) (vd xs : Fin 32) (s : State) : Issued :=
  let b := shapeB s.seq.vshape
  let w := wordOfInstr s (.vbcx e vd xs)
  vecIssue (vslot e) w (.v vd) false none false [xSource s (vslot e) w true xs] [] (lat s 5) (ceilDiv (shapeN s.seq.vshape * b) 512) 0
    (fun _ => .ok (.v (fillReg s (readX s xs).toNat), 0)) s

/-- VSETSHAPE (R193): checked as a CSR write, landing at the end of its issue cycle. -/
def vsetshapeBody (e : VEng) (xs : Fin 32) (s : State) : Issued :=
  let sl := vslot e
  let w := wordOfInstr s (.vsetshape e xs)
  let v := readX s xs
  if decide (s.pipe.wall < busyOf s sl) || xEmpty s xs then .stall
  else if v &&& csrReserved 0x800 ≠ 0 then .trap (trapOp sl w)
  else if shapeOk (v.setWidth 20) = false then .trap (trapWord cIllegalShape sl v.toNat)
  else .ok (push (Flight.start s sl .vshape (.x v) 1) (occupy sl 1 s))

/-- A predicate operation of class 5 (R196): its sources stall the bundle while they are empty. -/
def predOp (e : VEng) (w : Nat) (dest : Dest) (srcs : List (Fin 48)) (v : FVal) (s : State) : Issued :=
  vecIssue (vslot e) w dest false none false (srcs.map (fun p => emptySource s (vslot e) w true (.p p))) [] (lat s 5) 1 0
    (fun _ => .ok (v, 0)) s

/-- The number of set bits. -/
def popCount (p : PReg) : Nat := ((List.range 512).filter (fun i => p.getLsbD i)).length

/-! ### Meanings -/

/-- VADD (R189): low bits of a + b. -/
def execVadd (e : VEng) (o : V3R) (s : State) : Host.Outcome State Fault Refusal :=
  issue (vslot e) (v3rOp e (.vadd e o) o 5 anyWidth (intOp (fun _ x y => x + y))) s

/-- VSUB (R189): low bits of a − b. -/
def execVsub (e : VEng) (o : V3R) (s : State) : Host.Outcome State Fault Refusal :=
  issue (vslot e) (v3rOp e (.vsub e o) o 5 anyWidth (intOp subCode)) s

/-- VADDS.I (R189): signed saturating sum. -/
def execVaddsI (e : VEng) (o : V3R) (s : State) : Host.Outcome State Fault Refusal :=
  issue (vslot e) (v3rOp e (.vaddsI e o) o 5 anyWidth (satOp true (fun w x y => signExt x w + signExt y w))) s

/-- VADDS.N (R189): unsigned saturating sum. -/
def execVaddsN (e : VEng) (o : V3R) (s : State) : Host.Outcome State Fault Refusal :=
  issue (vslot e) (v3rOp e (.vaddsN e o) o 5 anyWidth (satOp false (fun _ x y => (x : Int) + y))) s

/-- VSUBS.I (R189): signed saturating difference. -/
def execVsubsI (e : VEng) (o : V3R) (s : State) : Host.Outcome State Fault Refusal :=
  issue (vslot e) (v3rOp e (.vsubsI e o) o 5 anyWidth (satOp true (fun w x y => signExt x w - signExt y w))) s

/-- VSUBS.N (R189): unsigned saturating difference. -/
def execVsubsN (e : VEng) (o : V3R) (s : State) : Host.Outcome State Fault Refusal :=
  issue (vslot e) (v3rOp e (.vsubsN e o) o 5 anyWidth (satOp false (fun _ x y => (x : Int) - y))) s

/-- VMUL (R189): low bits of the product. -/
def execVmul (e : VEng) (o : V3R) (s : State) : Host.Outcome State Fault Refusal :=
  issue (vslot e) (v3rOp e (.vmul e o) o 5 anyWidth (intOp (fun _ x y => x * y))) s

/-- VMULH.I (R189): high bits of the signed product. -/
def execVmulhI (e : VEng) (o : V3R) (s : State) : Host.Outcome State Fault Refusal :=
  issue (vslot e) (v3rOp e (.vmulhI e o) o 5 anyWidth (intOp mulHighI)) s

/-- VMULH.N (R189): high bits of the unsigned product. -/
def execVmulhN (e : VEng) (o : V3R) (s : State) : Host.Outcome State Fault Refusal :=
  issue (vslot e) (v3rOp e (.vmulhN e o) o 5 anyWidth (intOp (fun w x y => x * y / 2 ^ w))) s

/-- VMIN.I (R189): signed minimum. -/
def execVminI (e : VEng) (o : V3R) (s : State) : Host.Outcome State Fault Refusal :=
  issue (vslot e) (v3rOp e (.vminI e o) o 5 anyWidth (intOp (minCode true))) s

/-- VMIN.N (R189): unsigned minimum. -/
def execVminN (e : VEng) (o : V3R) (s : State) : Host.Outcome State Fault Refusal :=
  issue (vslot e) (v3rOp e (.vminN e o) o 5 anyWidth (intOp (minCode false))) s

/-- VMAX.I (R189): signed maximum. -/
def execVmaxI (e : VEng) (o : V3R) (s : State) : Host.Outcome State Fault Refusal :=
  issue (vslot e) (v3rOp e (.vmaxI e o) o 5 anyWidth (intOp (maxCode true))) s

/-- VMAX.N (R189): unsigned maximum. -/
def execVmaxN (e : VEng) (o : V3R) (s : State) : Host.Outcome State Fault Refusal :=
  issue (vslot e) (v3rOp e (.vmaxN e o) o 5 anyWidth (intOp (maxCode false))) s

/-- VABS (R189): saturating magnitude. -/
def execVabs (e : VEng) (o : V2R) (s : State) : Host.Outcome State Fault Refusal :=
  issue (vslot e) (v2rOp e (.vabs e o) o (satOp true (fun w x _ => (signExt x w).natAbs))) s

/-- VNOT (R189): bitwise not. -/
def execVnot (e : VEng) (o : V2R) (s : State) : Host.Outcome State Fault Refusal :=
  issue (vslot e) (v2rOp e (.vnot e o) o (intOp (fun w x _ => 2 ^ w - 1 - x))) s

/-- VSLL (R189): shift left by u(b) mod w. -/
def execVsll (e : VEng) (o : V3R) (s : State) : Host.Outcome State Fault Refusal :=
  issue (vslot e) (v3rOp e (.vsll e o) o 5 anyWidth (intOp (fun w x y => x * 2 ^ (y % w)))) s

/-- VSRL (R189): logical shift right by u(b) mod w. -/
def execVsrl (e : VEng) (o : V3R) (s : State) : Host.Outcome State Fault Refusal :=
  issue (vslot e) (v3rOp e (.vsrl e o) o 5 anyWidth (intOp (fun w x y => x / 2 ^ (y % w)))) s

/-- VSRA (R189): arithmetic shift right by u(b) mod w. -/
def execVsra (e : VEng) (o : V3R) (s : State) : Host.Outcome State Fault Refusal :=
  issue (vslot e) (v3rOp e (.vsra e o) o 5 anyWidth (intOp sraCode)) s

/-- VAND (R189): bitwise and. -/
def execVand (e : VEng) (o : V3R) (s : State) : Host.Outcome State Fault Refusal :=
  issue (vslot e) (v3rOp e (.vand e o) o 5 anyWidth (intOp (fun _ x y => x &&& y))) s

/-- VOR (R189): bitwise or. -/
def execVor (e : VEng) (o : V3R) (s : State) : Host.Outcome State Fault Refusal :=
  issue (vslot e) (v3rOp e (.vor e o) o 5 anyWidth (intOp (fun _ x y => x ||| y))) s

/-- VXOR (R189): bitwise exclusive or. -/
def execVxor (e : VEng) (o : V3R) (s : State) : Host.Outcome State Fault Refusal :=
  issue (vslot e) (v3rOp e (.vxor e o) o 5 anyWidth (intOp (fun _ x y => x ^^^ y))) s

/-- VANDN (R189): a and not b. -/
def execVandn (e : VEng) (o : V3R) (s : State) : Host.Outcome State Fault Refusal :=
  issue (vslot e) (v3rOp e (.vandn e o) o 5 anyWidth (intOp (fun w x y => x &&& (2 ^ w - 1 - y)))) s

/-- VSEL (R191): vs1 where active, vs2 elsewhere; zm has no effect. -/
def vselBody (e : VEng) (o : V3R) (s : State) : Issued :=
  let sl := vslot e
  let w := wordOfInstr s (.vsel e o)
  let b := shapeB s.seq.vshape
  let n := shapeN s.seq.vshape
  vecIssue sl w (.v o.vd) (pgTooWide s o.pg) (queueOf o.q o.vs2 o.w2) o.dup
    [vSource s sl w o.w1 o.vs1, if o.q then none else vSource s sl w o.w2 o.vs2] [pgSource s sl w o.pg]
    (lat s 5) (ceilDiv (n * b) 512) 0
    (fun en =>
      let x := (readV s o.vs1).toNat
      let y := operandB s o.q o.vs2 en
      .ok (.v (regOf b ((List.range n).map (fun i => if activeAt s o.pg i then elem x b i else elem y b i))), 0)) s

/-- VSEL (R191). -/
def execVsel (e : VEng) (o : V3R) (s : State) : Host.Outcome State Fault Refusal :=
  issue (vslot e) (vselBody e o) s

/-- VCMP.I (R194). -/
def execVcmpI (e : VEng) (o : VCP) (s : State) : Host.Outcome State Fault Refusal :=
  issue (vslot e) (vcmpOp e (.vcmpI e o) o 5 anyWidth (fun b x y => (intCond true o.cond (8 * b) x y, 0))) s

/-- VCMP.N (R194). -/
def execVcmpN (e : VEng) (o : VCP) (s : State) : Host.Outcome State Fault Refusal :=
  issue (vslot e) (vcmpOp e (.vcmpN e o) o 5 anyWidth (fun b x y => (intCond false o.cond (8 * b) x y, 0))) s

/-- VCMP.F (R194). -/
def execVcmpF (e : VEng) (o : VCP) (s : State) : Host.Outcome State Fault Refusal :=
  issue (vslot e) (vcmpOp e (.vcmpF e o) o 6 (viewBad false) (fun b x y => fpCond o.cond (decodeF (viewOf false b) x) (decodeF (viewOf false b) y))) s

/-- VCMP.BF (R194). -/
def execVcmpBf (e : VEng) (o : VCP) (s : State) : Host.Outcome State Fault Refusal :=
  issue (vslot e) (vcmpOp e (.vcmpBf e o) o 6 (viewBad true) (fun b x y => fpCond o.cond (decodeF (viewOf true b) x) (decodeF (viewOf true b) y))) s

/-- VRED.I (R195). -/
def execVredI (e : VEng) (o : VRed) (s : State) : Host.Outcome State Fault Refusal :=
  issue (vslot e) (vredOp e (.vredI e o) o 5 anyWidth (fun b => neutralInt true o.op (8 * b)) (fun b => nodeInt true o.op (8 * b)) (fun _ r => r)) s

/-- VRED.N (R195). -/
def execVredN (e : VEng) (o : VRed) (s : State) : Host.Outcome State Fault Refusal :=
  issue (vslot e) (vredOp e (.vredN e o) o 5 anyWidth (fun b => neutralInt false o.op (8 * b)) (fun b => nodeInt false o.op (8 * b)) (fun _ r => r)) s

/-- VRED.F (R195). -/
def execVredF (e : VEng) (o : VRed) (s : State) : Host.Outcome State Fault Refusal :=
  issue (vslot e) (vredOp e (.vredF e o) o 6 (fun b => b != 4) (fun _ => neutralF f32 o.op) (fun _ => nodeF f32 o.op) (fun _ => canonical f32)) s

/-- VRED.BF (R195). -/
def execVredBf (e : VEng) (o : VRed) (s : State) : Host.Outcome State Fault Refusal :=
  issue (vslot e) (vredOp e (.vredBf e o) o 6 (viewBad true) (fun _ => neutralF bf16 o.op) (fun _ => nodeF bf16 o.op) (fun _ => canonical bf16)) s

/-- VFADD (R190): a + b. -/
def execVfadd (e : VEng) (o : V3R) (s : State) : Host.Outcome State Fault Refusal :=
  issue (vslot e) (v3rOp e (.vfadd e o) o 6 (viewBad false) (floatOp false (fun f a b _ => fpAdd f a b))) s

/-- VFSUB (R190): a − b. -/
def execVfsub (e : VEng) (o : V3R) (s : State) : Host.Outcome State Fault Refusal :=
  issue (vslot e) (v3rOp e (.vfsub e o) o 6 (viewBad false) (floatOp false (fun f a b _ => fpAdd f a b.negate))) s

/-- VFMUL (R190): a × b. -/
def execVfmul (e : VEng) (o : V3R) (s : State) : Host.Outcome State Fault Refusal :=
  issue (vslot e) (v3rOp e (.vfmul e o) o 6 (viewBad false) (floatOp false (fun f a b _ => fpMul f a b))) s

/-- VFMA (R190): a × b + c, rounded once. -/
def execVfma (e : VEng) (o : V3R) (s : State) : Host.Outcome State Fault Refusal :=
  issue (vslot e) (v3rOp e (.vfma e o) o 6 (viewBad false) (floatOp false (fun f a b c => fpFma f a b c))) s

/-- VFMS (R190): a × b − c, rounded once. -/
def execVfms (e : VEng) (o : V3R) (s : State) : Host.Outcome State Fault Refusal :=
  issue (vslot e) (v3rOp e (.vfms e o) o 6 (viewBad false) (floatOp false (fun f a b c => fpFma f a b c.negate))) s

/-- VFNMA (R190): −(a × b) + c, rounded once. -/
def execVfnma (e : VEng) (o : V3R) (s : State) : Host.Outcome State Fault Refusal :=
  issue (vslot e) (v3rOp e (.vfnma e o) o 6 (viewBad false) (floatOp false (fun f a b c => fpFma f a.negate b c))) s

/-- VFMIN (R190): minimum. -/
def execVfmin (e : VEng) (o : V3R) (s : State) : Host.Outcome State Fault Refusal :=
  issue (vslot e) (v3rOp e (.vfmin e o) o 6 (viewBad false) (pickOp false false)) s

/-- VFMAX (R190): maximum. -/
def execVfmax (e : VEng) (o : V3R) (s : State) : Host.Outcome State Fault Refusal :=
  issue (vslot e) (v3rOp e (.vfmax e o) o 6 (viewBad false) (pickOp false true)) s

/-- VBFADD (R190): a + b. -/
def execVbfadd (e : VEng) (o : V3R) (s : State) : Host.Outcome State Fault Refusal :=
  issue (vslot e) (v3rOp e (.vbfadd e o) o 6 (viewBad true) (floatOp true (fun f a b _ => fpAdd f a b))) s

/-- VBFSUB (R190): a − b. -/
def execVbfsub (e : VEng) (o : V3R) (s : State) : Host.Outcome State Fault Refusal :=
  issue (vslot e) (v3rOp e (.vbfsub e o) o 6 (viewBad true) (floatOp true (fun f a b _ => fpAdd f a b.negate))) s

/-- VBFMUL (R190): a × b. -/
def execVbfmul (e : VEng) (o : V3R) (s : State) : Host.Outcome State Fault Refusal :=
  issue (vslot e) (v3rOp e (.vbfmul e o) o 6 (viewBad true) (floatOp true (fun f a b _ => fpMul f a b))) s

/-- VBFMA (R190): a × b + c, rounded once. -/
def execVbfma (e : VEng) (o : V3R) (s : State) : Host.Outcome State Fault Refusal :=
  issue (vslot e) (v3rOp e (.vbfma e o) o 6 (viewBad true) (floatOp true (fun f a b c => fpFma f a b c))) s

/-- VBFMS (R190): a × b − c, rounded once. -/
def execVbfms (e : VEng) (o : V3R) (s : State) : Host.Outcome State Fault Refusal :=
  issue (vslot e) (v3rOp e (.vbfms e o) o 6 (viewBad true) (floatOp true (fun f a b c => fpFma f a b c.negate))) s

/-- VBFNMA (R190): −(a × b) + c, rounded once. -/
def execVbfnma (e : VEng) (o : V3R) (s : State) : Host.Outcome State Fault Refusal :=
  issue (vslot e) (v3rOp e (.vbfnma e o) o 6 (viewBad true) (floatOp true (fun f a b c => fpFma f a.negate b c))) s

/-- VBFMIN (R190): minimum. -/
def execVbfmin (e : VEng) (o : V3R) (s : State) : Host.Outcome State Fault Refusal :=
  issue (vslot e) (v3rOp e (.vbfmin e o) o 6 (viewBad true) (pickOp true false)) s

/-- VBFMAX (R190): maximum. -/
def execVbfmax (e : VEng) (o : V3R) (s : State) : Host.Outcome State Fault Refusal :=
  issue (vslot e) (v3rOp e (.vbfmax e o) o 6 (viewBad true) (pickOp true true)) s

/-- VMOV (R191). -/
def execVmov (e : VEng) (o : V2R) (s : State) : Host.Outcome State Fault Refusal :=
  issue (vslot e) (v2rOp e (.vmov e o) o (fun _ x _ _ => (x, 0))) s

/-- VBCAST (R192). -/
def execVbcast (e : VEng) (vd : Fin 32) (imm : BitVec 16) (s : State) : Host.Outcome State Fault Refusal :=
  issue (vslot e) (vbcastBody e vd imm) s

/-- VBCX (R192). -/
def execVbcx (e : VEng) (vd xs : Fin 32) (s : State) : Host.Outcome State Fault Refusal :=
  issue (vslot e) (vbcxBody e vd xs) s

/-- VCVT (R197). -/
def execVcvt (e : VEng) (o : VCV) (s : State) : Host.Outcome State Fault Refusal :=
  issue (vslot e) (vcvtBody e o) s

/-- VUNP3 (R201). -/
def execVunp3 (e : VEng) (vd vs1 : Fin 32) (fout : Fmt) (strict w1 : Bool) (s : State) : Host.Outcome State Fault Refusal :=
  issue (vslot e) (vunp3Body e vd vs1 fout strict w1) s

/-- VPACK (R202). -/
def execVpack (e : VEng) (o : V3R) (s : State) : Host.Outcome State Fault Refusal :=
  issue (vslot e) (vpackBody e o) s

/-- VSETSHAPE (R193). -/
def execVsetshape (e : VEng) (xs : Fin 32) (s : State) : Host.Outcome State Fault Refusal :=
  issue (vslot e) (vsetshapeBody e xs) s

/-- PAND (R196). -/
def execPand (e : VEng) (o : VPR) (s : State) : Host.Outcome State Fault Refusal :=
  issue (vslot e) (fun t => predOp e (wordOfInstr t (.pand e o)) (.p o.pd) [o.pa, o.pb] (.p (readP t o.pa &&& readP t o.pb)) t) s

/-- POR (R196). -/
def execPor (e : VEng) (o : VPR) (s : State) : Host.Outcome State Fault Refusal :=
  issue (vslot e) (fun t => predOp e (wordOfInstr t (.por e o)) (.p o.pd) [o.pa, o.pb] (.p (readP t o.pa ||| readP t o.pb)) t) s

/-- PXOR (R196). -/
def execPxor (e : VEng) (o : VPR) (s : State) : Host.Outcome State Fault Refusal :=
  issue (vslot e) (fun t => predOp e (wordOfInstr t (.pxor e o)) (.p o.pd) [o.pa, o.pb] (.p (readP t o.pa ^^^ readP t o.pb)) t) s

/-- PNOT (R196). -/
def execPnot (e : VEng) (pd pa : Fin 48) (s : State) : Host.Outcome State Fault Refusal :=
  issue (vslot e) (fun t => predOp e (wordOfInstr t (.pnot e pd pa)) (.p pd) [pa] (.p (~~~readP t pa)) t) s

/-- PSET (R196). -/
def execPset (e : VEng) (pd : Fin 48) (n : Fin 513) (s : State) : Host.Outcome State Fault Refusal :=
  issue (vslot e) (fun t => predOp e (wordOfInstr t (.pset e pd n)) (.p pd) [] (.p (BitVec.ofNat 512 (2 ^ n.val - 1))) t) s

/-- PCOUNT (R196). -/
def execPcount (e : VEng) (xd : Fin 32) (pa : Fin 48) (s : State) : Host.Outcome State Fault Refusal :=
  issue (vslot e) (fun t => predOp e (wordOfInstr t (.pcount e xd pa)) (xDest xd) [pa] (.x (word (popCount (readP t pa)))) t) s

end Sys2Proof.Machine
end

