-- ==== Sys2Proof/Machine/Function.lean ====
section
/-! DEFINITION. The function and bit unit of slot F (R206 to R222). -/

namespace Sys2Proof.Machine

open Sys2Proof

/-! ### Special functions (R210, R211) -/

/-- The floating view of the special functions: F32, or BF16 for 16-bit elements (R210). -/
def fnView (b : Nat) : FFormat := if b = 2 then bf16 else f32

/-- An element-wise F operation with a second operand (R209): its class, occupancy divisor and shape rule. -/
def f3rOp (i : Instr) (o : F3R) (cls per : Nat) (bad : Nat → Bool) (f : Nat → Nat → Nat → Nat → Nat × BitVec 7) (s : State) : Issued :=
  let w := wordOfInstr s i
  let b := shapeB s.seq.vshape
  let n := shapeN s.seq.vshape
  vecIssue .f w (.v o.vd) (bad b || pgTooWide s o.pg) (queueOf o.q o.vs2 o.w2) false
    [vSource s .f w o.w1 o.vs1, if o.q then none else vSource s .f w o.w2 o.vs2] [pgSource s .f w o.pg]
    (lat s cls) (ceilDiv (n * b) per) 0
    (fun en => let r := elementwise s n b o.pg o.zm (readV s o.vs1).toNat (operandB s o.q o.vs2 en) (readV s o.vd).toNat (f b)
      .ok (.v r.1, r.2)) s

/-- A unary operation as one whose second operand is its first. -/
def f2rOf (o : F2R) : F3R := ⟨o.vd, o.vs1, o.vs1, o.pg, o.zm, o.w1, o.w1, false⟩

/-- A special function of one operand. -/
def special (i : Instr) (o : F2R) (f : FFormat → Fp → Nat × BitVec 7) (s : State) : Issued :=
  f3rOp i (f2rOf o) 8 256 (fun b => b == 1) (fun b x _ _ => f (fnView b) (decodeF (fnView b) x)) s

/-- EXP2 (R210, R211). -/
def execExp2 (o : F2R) (s : State) : Host.Outcome State Fault Refusal := issue .f (special (.exp2 o) o fpExp2) s

/-- LOG2 (R210, R211). -/
def execLog2 (o : F2R) (s : State) : Host.Outcome State Fault Refusal := issue .f (special (.log2 o) o fpLog2) s

/-- RCP (R210, R211). -/
def execRcp (o : F2R) (s : State) : Host.Outcome State Fault Refusal := issue .f (special (.rcp o) o (fun f a => fpDiv f fpOne a)) s

/-- RSQRT (R210, R211). -/
def execRsqrt (o : F2R) (s : State) : Host.Outcome State Fault Refusal := issue .f (special (.rsqrt o) o fpRsqrt) s

/-- SQRT (R210, R211). -/
def execSqrt (o : F2R) (s : State) : Host.Outcome State Fault Refusal := issue .f (special (.sqrt o) o fpSqrt) s

/-- DIV of slot F (R210, R211). -/
def execFDiv (o : F3R) (s : State) : Host.Outcome State Fault Refusal :=
  issue .f (f3rOp (.fDiv o) o 8 256 (fun b => b == 1) (fun b x y _ => fpDiv (fnView b) (decodeF (fnView b) x) (decodeF (fnView b) y))) s

/-- TANH (R210, R211). -/
def execTanh (o : F2R) (s : State) : Host.Outcome State Fault Refusal := issue .f (special (.tanh o) o fpTanh) s

/-! ### Welford states (R212 to R215) -/

/-- A record of a Welford state; mean and m2 are F32 codes. -/
structure Welford where
  n : Nat
  mean : Nat
  m2 : Nat
  deriving DecidableEq, Repr

/-- Record i of a state. -/
def welfordAt (v i : Nat) : Welford := ⟨bits v (128 * i) 32, bits v (128 * i + 32) 32, bits v (128 * i + 64) 32⟩

/-- The 128 bits of a record; bytes 12 to 15 are written 0. -/
def welfordWord (r : Welford) : Nat := r.n + r.mean * 2 ^ 32 + r.m2 * 2 ^ 64

/-- A code of F32 as a value. -/
def f32v (w : Nat) : Fp := decodeF f32 w

/-- An integer rounded to F32. -/
def f32n (n : Nat) : Nat × BitVec 7 := nearF f32 false n 0

/-- One step of WUPD (R213): the record and the flags so far. -/
def welfordStep (a : Welford × BitVec 7) (x : Nat) : Welford × BitVec 7 :=
  let r := a.1
  if r.n = 2 ^ 32 - 1 then (r, a.2 ||| fSat)
  else
    let n := r.n + 1
    let d := fpAdd f32 (f32v x) (f32v r.mean).negate
    let nf := f32n n
    let q := fpDiv f32 (f32v d.1) (f32v nf.1)
    let m := fpAdd f32 (f32v r.mean) (f32v q.1)
    let e := fpAdd f32 (f32v x) (f32v m.1).negate
    let t := fpFma f32 (f32v d.1) (f32v e.1) (f32v r.m2)
    (⟨n, m.1, t.1⟩, a.2 ||| d.2 ||| nf.2 ||| q.2 ||| m.2 ||| e.2 ||| t.2)

/-- A state's records as a register: 0 above the rows. -/
def stateReg (ws : List Nat) : VReg := BitVec.ofNat 16384 (ws.foldr (fun w r => w + r * 2 ^ 128) 0)

/-- WUPD (R213): BF16 data widens exactly. -/
def wupdBody (o : F3R) (s : State) : Issued :=
  let w := wordOfInstr s (.wupd o)
  let sh := s.seq.vshape
  let b := shapeB sh
  let cols := shapeCols sh
  let rows := shapeRows sh
  let c := ceilDiv cols 16
  vecIssue .f w (.v o.vd) (decide (128 < rows) || b == 1 || pgTooWide s o.pg) (queueOf o.q o.vs2 o.w2) false
    [vSource s .f w o.w1 o.vs1, if o.q then none else vSource s .f w o.w2 o.vs2] [pgSource s .f w o.pg] (lat s 10) c (c + 7)
    (fun en =>
      let st := (readV s o.vs1).toNat
      let y := operandB s o.q o.vs2 en
      let widen := fun (x : Nat) => if b = 2 then x * 65536 else x
      let res := (List.range rows).map (fun i =>
        let act := (List.range cols).filter (fun j => activeAt s o.pg (i * cols + j))
        if act.isEmpty then (if o.zm then 0 else welfordWord (welfordAt st i), (0 : BitVec 7))
        else
          let r := (act.map (fun j => widen (elem y b (i * cols + j)))).foldl welfordStep (welfordAt st i, 0)
          (welfordWord r.1, r.2))
      .ok (.v (stateReg (res.map (·.1))), res.foldl (fun a r => a ||| r.2) 0)) s

/-- Two records merged (R214). -/
def welfordMerge (a b : Welford) : Welford × BitVec 7 :=
  if b.n = 0 then (a, 0)
  else if a.n = 0 then (b, 0)
  else
    let big := decide (2 ^ 32 - 1 < a.n + b.n)
    let n := if big then 2 ^ 32 - 1 else a.n + b.n
    let d := fpAdd f32 (f32v b.mean) (f32v a.mean).negate
    let nb := f32n b.n
    let nn := f32n n
    let na := f32n a.n
    let f := fpDiv f32 (f32v nb.1) (f32v nn.1)
    let df := fpMul f32 (f32v d.1) (f32v f.1)
    let mean := fpAdd f32 (f32v a.mean) (f32v df.1)
    let ss := fpAdd f32 (f32v a.m2) (f32v b.m2)
    let dd := fpMul f32 (f32v d.1) (f32v d.1)
    let nf := fpMul f32 (f32v na.1) (f32v f.1)
    let p := fpMul f32 (f32v dd.1) (f32v nf.1)
    let m2 := fpAdd f32 (f32v ss.1) (f32v p.1)
    (⟨n, mean.1, m2.1⟩, flagIf big fSat ||| d.2 ||| nb.2 ||| nn.2 ||| na.2 ||| f.2 ||| df.2 ||| mean.2 ||| ss.2 ||| dd.2
      ||| nf.2 ||| p.2 ||| m2.2)

/-- A record-wise operation of class 10 (R214, R215): predicate bit i governs record i; g gives its 128 bits. -/
def recordOp (i : Instr) (o : F3R) (g : Nat → Nat → Nat → Nat × BitVec 7) (s : State) : Issued :=
  let w := wordOfInstr s i
  let rows := shapeRows s.seq.vshape
  vecIssue .f w (.v o.vd) (decide (128 < rows) || pgTooWide s o.pg) (queueOf o.q o.vs2 o.w2) false
    [vSource s .f w o.w1 o.vs1, if o.q then none else vSource s .f w o.w2 o.vs2] [pgSource s .f w o.pg] (lat s 10) 1 0
    (fun en =>
      let x := (readV s o.vs1).toNat
      let y := operandB s o.q o.vs2 en
      let z := (readV s o.vd).toNat
      let res := (List.range rows).map (fun j =>
        if activeAt s o.pg j then g x y j else if o.zm then (0, (0 : BitVec 7)) else (bits z (128 * j) 128, 0))
      .ok (.v (stateReg (res.map (·.1))), res.foldl (fun a r => a ||| r.2) 0)) s

/-- WFIN of one record with ε (R215). DEDUCED (81): where v + ε is −0 the third field is −inf, since R215 leaves the zero to R211, which
gives −inf for it. -/
def welfordFinish (r : Welford) (eps : Nat) : Nat × BitVec 7 :=
  let pack := fun (a b c d : Nat) => a + b * 2 ^ 32 + c * 2 ^ 64 + d * 2 ^ 96
  if r.n = 0 then (pack f32.nanCode f32.nanCode f32.nanCode 0, fInvalid)
  else
    let nf := f32n r.n
    let v := fpDiv f32 (f32v r.m2) (f32v nf.1)
    let e := fpAdd f32 (f32v v.1) (f32v eps)
    let q := fpRsqrt f32 (f32v e.1)
    (pack r.mean v.1 q.1 r.n, nf.2 ||| v.2 ||| e.2 ||| q.2)

/-- WUPD (R213). -/
def execWupd (o : F3R) (s : State) : Host.Outcome State Fault Refusal := issue .f (wupdBody o) s

/-- WMRG (R214). -/
def execWmrg (o : F3R) (s : State) : Host.Outcome State Fault Refusal :=
  issue .f (recordOp (.wmrg o) o (fun x y j => let r := welfordMerge (welfordAt x j) (welfordAt y j); (welfordWord r.1, r.2))) s

/-- WFIN (R215): ε is the F32 value in bytes 0 to 3 of the second operand. -/
def execWfin (o : F3R) (s : State) : Host.Outcome State Fault Refusal :=
  issue .f (recordOp (.wfin o) o (fun x y j => welfordFinish (welfordAt x j) (bits y 0 32))) s

/-! ### Bit network and bit operations (R216 to R221) -/

/-- BNLD (R216): the pattern is written at the end of the issue cycle. -/
def bnldBody (vs1 : Fin 32) (pat : Fin 8) (s : State) : Issued :=
  let w := wordOfInstr s (.bnld vs1 pat)
  vecIssue .f w (.pat pat) false none false [vSource s .f w true vs1] [] 1 1 0
    (fun _ => .ok (.pat ((readV s vs1).setWidth 512), 0)) s

/-- BNLD (R216). -/
def execBnld (vs1 : Fin 32) (pat : Fin 8) (s : State) : Host.Outcome State Fault Refusal := issue .f (bnldBody vs1 pat) s

/-- A group of 64 bits through a pattern (R217). -/
def netGroup (p a b : Nat) : Nat :=
  (List.range 64).foldr (fun j r =>
    let c := bits p (8 * j) 8
    one (xor ((if flag c 6 then b else a).testBit (bits c 0 6)) (flag c 7)) + 2 * r) 0

/-- A product of 8 × 8 bit matrices over GF(2) (R218). -/
def bmmGroup (a b : Nat) : Nat :=
  (List.range 64).foldr (fun j r =>
    one ((List.range 8).foldl (fun x k => xor x (a.testBit (8 * (j / 8) + k) && b.testBit (8 * k + j % 8))) false) + 2 * r) 0

/-- A function on 8-byte groups of the first n bytes. -/
def groupwise (n x y : Nat) (f : Nat → Nat → Nat) : Nat :=
  let a := x % 2 ^ (8 * n)
  let b := y % 2 ^ (8 * n)
  (List.range (ceilDiv n 8)).foldr (fun g r => f (bits a (64 * g) 64) (bits b (64 * g) 64) + r * 2 ^ 64) 0

/-- An operation of class 9 whose result is a whole register's worth of elements, merged by R183: r gives the elements' bytes from
the operands'. The wait bits are those of the sources. -/
def wholeOp (w : Nat) (vd vs1 vs2 : Fin 32) (pg : Option (Fin 48)) (zm q : Bool) (w1 w2 : Bool) (r : Nat → Nat → Nat) (s : State) :
    Issued :=
  let b := shapeB s.seq.vshape
  let n := shapeN s.seq.vshape
  vecIssue .f w (.v vd) (pgTooWide s pg) (queueOf q vs2 w2) false
    [vSource s .f w w1 vs1, if q then none else vSource s .f w w2 vs2] [pgSource s .f w pg] (lat s 9) (ceilDiv (n * b) 512) 0
    (fun en =>
      let res := r (readV s vs1).toNat (operandB s q vs2 en)
      let e := elementwise s n b pg zm res res (readV s vd).toNat (fun x _ _ => (x, 0))
      .ok (.v e.1, 0)) s

/-- BNET (R217): without wait bits an empty source stalls; merge mode only. -/
def execBnet (o : FNet) (s : State) : Host.Outcome State Fault Refusal :=
  issue .f (fun t => wholeOp (wordOfInstr t (.bnet o)) o.vd o.vs1 o.vs2 o.pg false o.q true true
    (fun x y => groupwise (shapeN t.seq.vshape * shapeB t.seq.vshape) x y (netGroup (t.regs.pat.get o.pat).toNat)) t) s

/-- BMM8 (R218). -/
def execBmm8 (o : F3R) (s : State) : Host.Outcome State Fault Refusal :=
  issue .f (fun t => wholeOp (wordOfInstr t (.bmm8 o)) o.vd o.vs1 o.vs2 o.pg o.zm o.q o.w1 o.w2
    (fun x y => groupwise (shapeN t.seq.vshape * shapeB t.seq.vshape) x y bmmGroup) t) s

/-- Bits deposited under a mask (R219): from bit j of the mask and bit k of the source on. -/
def depositFrom (a mask : Nat) : Nat → Nat → Nat → Nat
  | 0, _, _ => 0
  | n + 1, j, k => if mask.testBit j then one (a.testBit k) + 2 * depositFrom a mask n (j + 1) (k + 1)
                   else 2 * depositFrom a mask n (j + 1) k

/-- Bits extracted under a mask (R219). -/
def extractFrom (a mask : Nat) : Nat → Nat → Nat
  | 0, _ => 0
  | n + 1, j => if mask.testBit j then one (a.testBit j) + 2 * extractFrom a mask n (j + 1) else extractFrom a mask n (j + 1)

/-- PDEP (R219). -/
def execPdep (o : F3R) (s : State) : Host.Outcome State Fault Refusal :=
  issue .f (f3rOp (.pdep o) o 9 512 anyWidth (fun b x y _ => (depositFrom x y (8 * b) 0 0, 0))) s

/-- PEXT (R219). -/
def execPext (o : F3R) (s : State) : Host.Outcome State Fault Refusal :=
  issue .f (f3rOp (.pext o) o 9 512 anyWidth (fun b x y _ => (extractFrom x y (8 * b) 0, 0))) s

/-- BPERM (R220): an index at or beyond the columns gives 0. -/
def permute (rows cols b x y : Nat) : Nat :=
  (regOf b ((List.range (rows * cols)).map (fun i =>
    let j := elem y b i
    if j < cols then elem x b (i / cols * cols + j) else 0))).toNat

/-- BPERM (R220). -/
def execBperm (o : F3R) (s : State) : Host.Outcome State Fault Refusal :=
  issue .f (fun t => wholeOp (wordOfInstr t (.bperm o)) o.vd o.vs1 o.vs2 o.pg o.zm o.q o.w1 o.w2
    (permute (shapeRows t.seq.vshape) (shapeCols t.seq.vshape) (shapeB t.seq.vshape)) t) s

/-- VTRN (R221): element (j, i) of the result is element (i, j). -/
def transpose (rows cols b x : Nat) : Nat :=
  (regOf b ((List.range (rows * cols)).map (fun k => elem x b (k % rows * cols + k / rows)))).toNat

/-- VTRN (R221). -/
def execVtrn (o : F2R) (s : State) : Host.Outcome State Fault Refusal :=
  issue .f (fun t => wholeOp (wordOfInstr t (.vtrn o)) o.vd o.vs1 o.vs1 o.pg o.zm false o.w1 o.w1
    (fun x _ => transpose (shapeRows t.seq.vshape) (shapeCols t.seq.vshape) (shapeB t.seq.vshape) x) t) s

end Sys2Proof.Machine
end

