-- ==== Sys2Proof/Machine/Keccak.lean ====
section
/-! DEFINITION. SHAKE256 and SHA3-512, the functions that R368, R372, R377, R387, R390 and R392 name. The sponge's state is five
planes of five lanes; its rotation distances and round constants are worked out from the rules that generate them. -/

namespace Sys2Proof.Machine

open Sys2Proof

/-- A plane of five lanes, of which the state has five: lane x of plane y. -/
abbrev Sponge := List (List Word)

/-- The lanes of two planes added bit by bit. -/
def planeXor (a b : List Word) : List Word := List.zipWith (fun v w => v ^^^ w) a b

/-- The lane n places on in a plane, for each place of it. -/
def ahead (n : Nat) (p : List Word) : List Word := p.drop n ++ p.take n

/-- The column step: every lane takes the parities of the column before it and, one bit on, of the column after it. -/
def columnStep (s : Sponge) : Sponge :=
  let par := s.foldl planeXor (List.replicate 5 0)
  let mix := planeXor (ahead 4 par) ((ahead 1 par).map (fun w => w.rotateLeft 1))
  s.map (planeXor mix)

/-- The n places that the lanes off the origin go through, one to the next, from (x, y) on. -/
def lanePath : Nat → Nat × Nat → List (Nat × Nat)
  | 0, _ => []
  | n + 1, p => p :: lanePath n (p.2, (2 * p.1 + 3 * p.2) % 5)

/-- The moving step: each lane off the origin goes to the next place of the path, turned by the next triangular number. -/
def moveStep (s : Sponge) : Sponge :=
  let at' := fun (p : Nat × Nat) => ((s[p.2]?).bind (·[p.1]?)).getD 0
  let path := lanePath 24 (1, 0)
  let moved := (path.zip (ahead' path)).zipIdx.map (fun e => (e.1.2, (at' e.1.1).rotateLeft ((e.2 + 1) * (e.2 + 2) / 2)))
  (List.range 5).map (fun y => (List.range 5).map (fun x =>
    match moved.find? (fun e => e.1 == (x, y)) with | some e => e.2 | none => at' (x, y)))
where
  /-- The place after each one of the path, which closes on itself. -/
  ahead' (l : List (Nat × Nat)) : List (Nat × Nat) := l.drop 1 ++ l.take 1

/-- The row step: a lane changes where the next one is 0 and the one after it 1. -/
def rowStep (s : Sponge) : Sponge :=
  s.map (fun p => planeXor p (List.zipWith (fun a b => b &&& ~~~a) (ahead 1 p) (ahead 2 p)))

/-- The 8-bit register whose low bits make the round constants, one clock on. -/
def clockReg (r : Nat) : Nat := if 128 ≤ r then (2 * r) ^^^ 0x171 else 2 * r

/-- The constant of a round whose register is r: bit 2^j - 1 is the register's low bit j clocks on. -/
def roundWord (r : Nat) : Word :=
  word (((List.range 7).foldl (fun a j => (a.1 + a.2 % 2 * 2 ^ (2 ^ j - 1), clockReg a.2)) (0, r)).1)

/-- n rounds from a register; a round uses seven clocks. -/
def spongeRounds : Nat → Nat → Sponge → Sponge
  | 0, _, s => s
  | n + 1, r, s =>
    let t := rowStep (moveStep (columnStep s))
    let k := List.replicate 4 (0 : Word)
    let u := match t with | p :: q => planeXor p (roundWord r :: k) :: q | [] => []
    spongeRounds n ((List.range 7).foldl (fun r _ => clockReg r) r) u

/-- The sponge's permutation: 24 rounds. -/
def spongePermute (s : Sponge) : Sponge := spongeRounds 24 1 s

/-- A state from 200 bytes, lane by lane, plane by plane. -/
def spongeOf (bs : List Byte) : Sponge :=
  (List.range 5).map (fun y => (List.range 5).map (fun x => word (leNat ((bs.drop (8 * (5 * y + x))).take 8))))

/-- A message cut into n blocks of `rate` bytes, taken in one after the other. -/
def takeIn (rate : Nat) : Nat → List Byte → Sponge → Sponge
  | 0, _, s => s
  | n + 1, bs, s => takeIn rate n (bs.drop rate) (spongePermute (List.zipWith planeXor s (spongeOf (bs.take rate))))

/-- n blocks of `rate` bytes given out. -/
def giveOut (rate : Nat) : Nat → Sponge → List Byte
  | 0, _ => []
  | n + 1, s => (s.flatten.flatMap (fun w => leBytes 8 w.toNat)).take rate ++ giveOut rate n (spongePermute s)

/-- n bytes of the sponge over a message: a mark after it, zeros to the end of a block, and the block's last bit set. -/
def spongeHash (rate mark n : Nat) (bs : List Byte) : List Byte :=
  let blocks := bs.length / rate + 1
  let m := leNat bs + mark * 256 ^ bs.length + 128 * 256 ^ (blocks * rate - 1)
  (giveOut rate (n / rate + 1) (takeIn rate blocks (leBytes (blocks * rate) m) (List.replicate 5 (List.replicate 5 0)))).take n

/-- n bytes of SHAKE256. -/
def shake256 (n : Nat) (bs : List Byte) : List Byte := spongeHash 136 0x1F n bs

/-- SHA3-512. -/
def sha3_512 (bs : List Byte) : List Byte := spongeHash 72 0x06 64 bs

end Sys2Proof.Machine
end

