-- ==== Sys2Proof/Machine/Cipher.lean ====
section
/-! DEFINITION. Counter records and key slots (R366, R370, R373), and seals with their hash trees (R377). Memory holds plaintext:
the cipher of R372 is invisible to every read that succeeds, and a read that fails its checks is a bad line. -/

namespace Sys2Proof.Machine

open Sys2Proof

/-! ### Key slots (R366) -/

/-- A key slot; slots not listed are EMPTY (R366). -/
def keySlot (s : State) (n : Nat) : KeySlot :=
  (s.trust.slots.find? (fun k => k.n == n)).getD ⟨n, .empty, [], [], false, 0, 0⟩

/-- A key slot changed. -/
def updSlot (n : Nat) (f : KeySlot → KeySlot) (s : State) : State :=
  updTrust (fun t => { t with slots := f (keySlot s n) :: t.slots.filter (fun k => k.n != n) }) s

/-- The tag of the context's tenant (R140). -/
def ctxTag (s : State) : Nat := bits s.seq.tenant.toNat 0 16

/-! ### Keys of the die links (R394) -/

/-- Kdie of a slot's secret (R394). -/
def dieKey (secret : List Byte) (a b dir gen : Nat) : List Byte :=
  shake256 32 (secret ++ [0x64, 0x69, 0x65] ++ leBytes 1 (min a b) ++ leBytes 1 (max a b) ++ leBytes 1 dir ++ leBytes 8 gen)

/-- The secret of a slot's current epoch. -/
def epochSecret (k : KeySlot) : List Byte := if k.ce then k.secret1 else k.secret0

/-- The keys of the die links changed. -/
def mapLinkKeys (f : DieLink → List LinkKey → List LinkKey) (s : State) : State :=
  updLinks (fun l => { l with dieLinks := l.dieLinks.map (fun k => { k with keys := f k k.keys }) }) s

/-- A slot has a new epoch (R394): every link that carries its traffic moves to the key of the next generation. -/
def renewLinkKeys (n : Nat) (s : State) : State :=
  mapLinkKeys (fun k l => l.map (fun x =>
    if x.slot = some n then { x with gen := x.gen + 1, count := 0, key := dieKey (epochSecret (keySlot s n)) k.a k.b x.dir (x.gen + 1) } else x)) s

/-- A slot is revoked (R367, R394): its keys are gone from the links. -/
def dropLinkKeys (n : Nat) (s : State) : State := mapLinkKeys (fun _ l => l.filter (fun x => x.slot != some n)) s

/-! ### Counter records (R370, R373) -/

/-- The crypto block of a key. -/
def blockOf (key : Nat) : Nat := key / 4096

/-- The record of a block; one not listed is in its reset state (R370). -/
def recAt (s : State) (b : Nat) : CtrRec := (s.sys.recs.find? (fun r => r.block == b)).getD ⟨b, false, true, 0, false, 0, 0, 0, 0⟩

/-- Blocks of a slot that are not in the zero state and whose epoch is not the current one (R366). -/
def oldBlocks (s : State) (n : Nat) (ce : Bool) : Nat := (s.sys.recs.filter (fun r => !r.zero && r.slot == n && r.epoch != ce)).length

/-- A record written; the counts of old blocks follow (R366). -/
def setRec (r : CtrRec) (s : State) : State :=
  let was := (recAt s r.block).slot
  let t := updSys (fun m => { m with recs := r :: m.recs.filter (fun x => x.block != r.block) }) s
  updTrust (fun u => { u with slots := u.slots.map (fun k =>
    if k.n == r.slot || k.n == was then { k with nold := oldBlocks t k.n k.ce } else k) }) t

/-- The minor counter of line j. -/
def minorOf (r : CtrRec) (j : Nat) : Nat := bits r.minor.toNat (6 * j) 6

/-- The major counter raised and every minor cleared; none when the major counter is at its end. -/
def bumpMajor (r : CtrRec) : Option CtrRec :=
  if r.major = BitVec.allOnes 48 then none else some { r with major := r.major + 1, minor := 0 }

/-- A record after one write of line j under a slot, from a page's identity (R373). -/
def recWrite (slot : Nat) (ce : Bool) (lpid blk j : Nat) (r : CtrRec) : Option CtrRec :=
  let whole := fun (r : CtrRec) => { r with lpid := BitVec.ofNat 32 lpid, blk := BitVec.ofNat 18 blk, shared := false }
  let a := if r.zero then (bumpMajor r).map (fun r => { whole r with zero := false, slot := slot, epoch := ce })
    else if r.shared then (bumpMajor r).map whole
    else some r
  let b := a.bind (fun r => if minorOf r j = 63 then bumpMajor r else some r)
  b.map (fun r => { r with minor := r.minor + BitVec.ofNat 384 (2 ^ (6 * j)) })

/-- The identity of the page and block of a virtual address (R345, R373). -/
def pageIdent (s : State) (va : Nat) : Nat × Nat :=
  match walk s va with
  | .ok x => (ptLpid x.w1.toNat, (va - x.va) / 4096)
  | .error _ => (0, 0)

/-- The lines of n bytes from a key. -/
def linesOf (key n : Nat) : List Nat := (List.range ((key % 64 + n + 63) / 64)).map (fun i => key / 64 * 64 + 64 * i)

/-- The records of the lines that a write under a slot reaches at its home (R373), for the identity of the page and its first
block; none when a major counter is at its end. -/
def recordLines (slot : Nat) (id : Nat × Nat) (key n : Nat) (s : State) : Option State :=
  if key < tierBase then some s
  else (linesOf key n).foldl (fun o l => o.bind (fun t =>
    (recWrite slot (keySlot t slot).ce id.1 (id.2 + (blockOf l - blockOf key)) (l / 64 % 64) (recAt t (blockOf l))).map (fun r => setRec r t)))
    (some s)

/-- The records of a write of the context (R373). -/
def recordWrite (va key n : Nat) (s : State) : Option State := recordLines (ctxKey s) (pageIdent s va) key n s

/-- Blocks of a slot that are not in the zero state (R366, R382). -/
def liveBlocks (s : State) (slot : Nat) : Nat := (s.sys.recs.filter (fun r => !r.zero && r.slot == slot)).length

/-! ### Seals (R377) -/

/-- The seal of a tenant whose range holds an address. -/
def sealOf (s : State) (va : Nat) : Option Seal :=
  s.trust.seals.find? (fun l => l.tag.toNat == ctxTag s && decide (l.base ≤ va) && decide (va < l.base + l.size))

/-- n bytes of global memory as they stand, within one page. -/
def vaBytes (s : State) (va n : Nat) : List Byte :=
  match walk s va with
  | .ok x => memGetN s.mem (globalKey [x] va) n
  | .error _ => []

/-- The leaf hash of a block (R377). -/
def leafHash (i : Nat) (bs : List Byte) : List Byte := shake256 32 ((0 : Byte) :: leBytes 8 i ++ bs)

/-- The hash of a pair of nodes (R377). -/
def pairHash (a b : List Byte) : List Byte := shake256 32 ((1 : Byte) :: a ++ b)

/-- The node above the leaves that a leaf leads to: at node k of a level of m nodes that starts at an address, the sibling is
read from the tree area; a last node without a partner is carried up. -/
def rootFrom (s : State) : Nat → List Byte → Nat → Nat → Nat → List Byte
  | 0, node, _, _, _ => node
  | n + 1, node, k, m, at' =>
    if m ≤ 1 then node
    else
      let up := if k % 2 = 0 then (if k + 1 < m then pairHash node (vaBytes s (at' + 32 * (k + 1)) 32) else node)
        else pairHash (vaBytes s (at' + 32 * (k - 1)) 32) node
      rootFrom s n up (k / 2) ((m + 1) / 2) (at' + 32 * m)

/-- Whether the block that holds an address hashes to its seal's root (R377). -/
def sealIntact (s : State) (va : Nat) : Bool :=
  match sealOf s va with
  | none => true
  | some l =>
    let i := (va - l.base) / 4096
    rootFrom s 64 (leafHash i (vaBytes s (l.base + 4096 * i) 4096)) i (l.size / 4096) l.aux == l.root

/-- How the line of an address is bad for a read of it: poisoned, failing its MAC, or failing its seal (R357, R374, R377). -/
def lineBad (s : State) (va key : Nat) : Option BadKind :=
  match badAt s key with
  | some b => some b
  | none => if windowOf va == .global && !sealIntact s va then some .integrity else none

/-- The first of consecutive bytes whose line is bad: its offset and how. -/
def rangeBad (s : State) (va : Nat) (keys : List Nat) : Option (Nat × BadKind) :=
  keys.zipIdx.findSome? (fun k => if k.2 = 0 ∨ (va + k.2) % 64 = 0 then (lineBad s (va + k.2) k.1).map (fun b => (k.2, b)) else none)

end Sys2Proof.Machine
end

