-- ==== Sys2Proof/Machine/Sync.lean ====
section
/-! DEFINITION. Waits, barriers, stage items, atomics and scratchpad locks of slot S (R127 to R133): what each does as its bundle
issues. What happens after the way out of the core is in Machine/Outbound.lean. -/

namespace Sys2Proof.Machine

open Sys2Proof

/-! ### WAITGE and EVPOP (R127, R128) -/

/-- A deferred fault of a read that never issues, because its bundle waits on it. -/
def lateTrap (c : BitVec 8) (a : Nat) : Trap := ⟨c, tvalAddr .s a, true⟩

/-- Whether a read through the die window is refused by its target (R169). -/
def refused (s : State) (a : Nat) : Bool := match windowIx a with | some n => !tagMatches s n | none => false

/-- WAITGE (R127): the bundle issues once the counter, read at its home, has reached the target, compared unsigned. The observation that
ends the wait takes a token (R363): DESIGN CHOICE (102). -/
def waitgeBody (xa xt : Fin 32) (s : State) : Issued :=
  if xEmpty s xa || xEmpty s xt then .stall
  else
    let a := (readX s xa).toNat
    checked .s (checkRange s 15 h15Descriptor 8 winStore kindsH15 .read a 8) (fun xs t =>
      let key := keyOf xs a
      if refused t a then .trap (lateTrap cPermission a)
      else match lineBad t a (landKey t key) with
        | some .integrity => .trap (lateTrap cIntegrity (a / 64 * 64))
        | some .uncorrectable => .trap (lateTrap cUncorrectable a)
        | none => if (readX s xt).toNat ≤ leNat (readHome key 8 t) then issueLines (hbmLines [key]) .ok t else .stall)

/-- WAITGE (R127). -/
def execWaitge (rs1 rs2 : Fin 32) (s : State) : Host.Outcome State Fault Refusal := issue .s (waitgeBody rs1 rs2) s

/-- A queue with room first takes the record of lost ones (R271). -/
def eventRoom (c : Cpy) : Cpy :=
  if c.lost ≠ 0 ∧ c.events.length < 32 then { c with events := c.events ++ [word (0xFF * 2 ^ 56 + c.lost.toNat)], lost := 0 } else c

/-- Whether an earlier EVPOP still waits for a record. -/
def evpopWaits (s : State) : Bool := s.pipe.flight.any (fun f => f.val == .awaited .evpop)

/-- EVPOP (R128): the oldest record, or the next to be posted when there is none. -/
def evpopBody (rd : Fin 32) (s : State) : Issued :=
  if xEmpty s rd || xRecordsFull s rd 2 then .stall
  else match s.cpy.events with
    | w :: r =>
      if evpopWaits s then .ok (push { Flight.start s .s (xDest rd) (.awaited .evpop) 1 with variable' := true } s)
      else
        let d := drawWait (updCpy (fun c => eventRoom { c with events := r }) s)
        .ok (push { Flight.start d.2 .s (xDest rd) (.x w) 1 with variable' := true, due := s.pipe.wall + d.1 } d.2)
    | [] => .ok (push { Flight.start s .s (xDest rd) (.awaited .evpop) 1 with variable' := true } s)

/-- EVPOP (R128). -/
def execEvpop (rd : Fin 32) (s : State) : Host.Outcome State Fault Refusal := issue .s (evpopBody rd) s

/-! ### BAR (R129) -/

/-- The launch that the core runs. -/
def ctxLaunch (s : State) : Option Launch := s.seq.ctx.bind (fun c => s.hub.launches.find? (fun l => l.id == c.launch))

/-- The stage that the core runs. -/
def ctxStage (s : State) : Option Stage := match s.seq.ctx, ctxLaunch s with
  | some c, some l => l.stages[c.stage]?
  | _, _ => none

/-- The number of the scope instance that holds a core of the package, or of another one (R11). -/
def scopeInst (core : Nat) (sc : Scope) : Nat :=
  match sc with | .core => core | .quad => core / 4 | .die => core / 96 | .pkg => core / 768 | .pod => 0

/-- The launch and stage that a core of the package, or of another one, runs. -/
def crewOf (s : State) (core : Nat) : Option (Nat × Nat) :=
  if core = pkgIndex s then s.seq.ctx.map (fun c => (c.launch, c.stage))
  else if 768 ≤ core then s.hub.launches.findSome? (fun l => (l.remote.find? (fun r => r.2 == core)).map (fun r => (l.id, r.1)))
  else s.hub.launches.findSome? (fun l =>
    (l.stages.zipIdx.find? (fun st => st.1.crew.contains core)).map (fun st => (l.id, st.2)))

/-- A barrier of a core's stage in the core's scope instance (R129). -/
def barrierOf (s : State) (core : Nat) (sc : Scope) (id : Fin 512) : Barrier :=
  let ls := (crewOf s core).getD (0, 0)
  (s.hub.barriers.find? (fun b => b.launch == ls.1 && b.stage == ls.2 && b.scope == sc && b.inst == scopeInst core sc && b.id == id)).getD
    ⟨ls.1, ls.2, sc, scopeInst core sc, id, 0, [], []⟩

/-- The generation in which the core's next arrival counts (R129). -/
def nextGen (b : Barrier) (core : Nat) : BitVec 32 := if b.arrived.contains core then b.gen + 1 else b.gen

/-- BAR (R129): a commit whose last held-back effect is the arrival; above scope core the next bundle waits for the generation
to complete; at scope core it completes with the commit. -/
def barBody (sc : Scope) (id : Fin 512) (s : State) : Issued :=
  let t := addLast (.bar sc id) (setCommit .commit s)
  let b := barrierOf s (pkgIndex s) sc id
  match sc with
  | .core => .ok (acquire .core 0x1F 0xFFFF t)
  | _ => .ok (updCyc (fun c => { c with wait := some ⟨sc, id, nextGen b (pkgIndex s), c.mark⟩ }) t)

/-- BAR (R129). -/
def execBar (scope : Scope) (id : Fin 512) (s : State) : Host.Outcome State Fault Refusal := issue .s (barBody scope id) s

/-! ### Stage items (R130, R131, R325, R329) -/

/-- Whether a barrier of a stage's crew is incomplete, so that the crew does not change (R129). -/
def barrierOpen (s : State) (launch stage : Nat) : Bool :=
  s.hub.barriers.any (fun b => b.launch == launch && b.stage == stage && !b.arrived.isEmpty)

/-- Whether a pending move from one stage to another may complete for a core of a die (R129, R326, R329): the receiver is neither
finishing nor ended and its mask holds the die, and no barrier of either crew is incomplete. -/
def moveOpen (s : State) (l : Launch) (from' to' die : Nat) : Bool :=
  (match l.stages[to']? with | some st => st.dies.getLsbD die && !st.finishing && !st.ended | none => false)
    && !barrierOpen s l.id from' && !barrierOpen s l.id to'

/-- The stage to which a pending move takes the core at this NEXTITEM (R329). -/
def moveOf (s : State) : Option Nat :=
  match s.seq.ctx, ctxLaunch s with
  | some c, some l => (match l.move with
    | some (d, r) => if c.stage = d && moveOpen s l d r s.id.die.val then some r else none
    | none => none)
  | _, _ => none

/-- The launch's queue that feeds the core's stage, or takes its output. -/
def inQueue (s : State) : Option (Nat × Nat) := match s.seq.ctx, ctxStage s with
  | some c, some st => st.inq.map (fun q => (c.launch, q))
  | _, _ => none

def outQueue (s : State) : Option (Nat × Nat) := match s.seq.ctx, ctxStage s with
  | some c, some st => st.outq.map (fun q => (c.launch, q))
  | _, _ => none

/-- A stage queue changed. -/
def updQueue (launch q : Nat) (f : SQueue → SQueue) (s : State) : State :=
  updHub (fun h => { h with launches := h.launches.map (fun l => if l.id == launch then { l with queues := modifyAt l.queues q f } else l) }) s

/-- A stage queue. -/
def stageQueue (s : State) (launch q : Nat) : Option SQueue :=
  (s.hub.launches.find? (fun l => l.id == launch)).bind (fun l => l.queues[q]?)

/-- The address of a slot (R325). -/
def slotAddr (q : SQueue) (i : Nat) : Nat := q.base.toNat + 64 + i % q.entries * q.bytes

/-- A core joins a list of waiting cores, once. -/
def joinWait (core : Nat) (l : List Nat) : List Nat := if l.contains core then l else l ++ [core]

/-- A request enters a list in order of arrival, those of one cycle in ascending order of package core index (R325). -/
def insertAsk (e : Nat × Nat) : List (Nat × Nat) → List (Nat × Nat)
  | [] => [e]
  | x :: r => if e.1 < x.1 ∨ (e.1 = x.1 ∧ e.2 < x.2) then e :: x :: r else x :: insertAsk e r

/-- A core asks for a slot at a wall cycle, once. -/
def joinAsk (wall core : Nat) (l : List (Nat × Nat)) : List (Nat × Nat) :=
  if l.any (fun e => e.2 == core) then l else insertAsk (wall, core) l

/-- NEXTITEM (R130): commit and release of the held slot; then a move, or the next item. An item handed to a discarded
execution of this NEXTITEM is the one it gets again (R325). -/
def nextitemBody (rd : Fin 32) (s : State) : Issued :=
  if xEmpty s rd || xRecordsFull s rd 2 then .stall
  else
    let t := updSeq (fun q => { q with firstItem := false }) (releaseItem (setCommit .commit s))
    match moveOf s with
    | some r => .ok (updCyc (fun c => { c with moving := some r }) t)
    | none =>
      match s.out.handed.find? (fun e => e.1 == s.rcv.commits) with
      | some e =>
        let d := drawWait (updSeq (fun q => { q with item := some e.2 }) t)
        .ok (push { Flight.start d.2 .s (xDest rd) (.x e.2.addr) 1 with variable' := true, due := s.pipe.wall + d.1 } d.2)
      | none =>
        match inQueue s with
        | some (l, q) =>
          let f := Flight.start t .s (xDest rd) (.awaited .item) 1
          .ok (push { f with variable' := true } (updQueue l q (fun k => { k with takers := joinWait (pkgIndex s) k.takers }) t))
        | none =>
          let d := drawWait t
          .ok (push { Flight.start d.2 .s (xDest rd) (.x (if s.seq.firstItem then 1 else 0)) 1 with
            variable' := true, due := s.pipe.wall + d.1 } d.2)

/-- NEXTITEM (R130). -/
def execNextitem (rd : Fin 32) (s : State) : Host.Outcome State Fault Refusal := issue .s (nextitemBody rd) s

/-- Bytes cut at the boundaries of 64-byte lines (R300). -/
def splitLines : Nat → Nat → List Byte → List (Nat × List Byte)
  | 0, _, _ => []
  | n + 1, a, bs =>
    if bs.isEmpty then []
    else
      let k := 64 - a % 64
      (a, bs.take k) :: splitLines n (a + k) (bs.drop k)

/-- The item's stores to its slot and its publish (R131): the bytes read on path L at issue, the stores on path L through h15. -/
def emitItem (src : Nat) (q : SQueue) (g : Nat × Nat × Nat) (s : State) : Issued :=
  let dst := slotAddr q g.2.2
  checked .s (checkRange s 15 h15Descriptor 32 winAny kindsH15 .read src q.bytes) (fun xs t =>
    checked .s (checkRange t 15 h15Descriptor 32 (fun w => w == .global) kindsH15 .write dst q.bytes) (fun ys u =>
      let keys := (keysAt src q.bytes).map (keyOf xs)
      if refused u src then .trap (lateTrap cPermission src)
      else if holdFull u then .force
      else match rangeBad u src (keys.map (landKey u)) with
      | some (i, b) => .trap (lateTrap (badCause b) (match b with | .integrity => (src + i) / 64 * 64 | .uncorrectable => src + i))
      | none => issueLines (hbmLines keys) (fun w =>
        let r := readKeys .l 15 keys w
        let ps := (splitLines 66 dst r.1).map (fun p => (p.1, keyOf ys p.1, p.2))
        let v := sendStore .s 15 ps r.2
        .ok (holdBack (.emit g.1 g.2.1 g.2.2 (word src)) .s 15
          (updOut (fun o => { o with grants := o.grants.filter (fun e => e != g), emitWait := none }) v))) u))

/-- EMIT (R131). On the AX1 a stage has one output at most, number 0. -/
def emitBody (rs1 : Fin 32) (n : Fin 8) (s : State) : Issued :=
  if xEmpty s rs1 then .stall
  else match outQueue s with
    | none => .trap (trapWord cQueue .s (wordOfInstr s (.emit rs1 n)))
    | some (l, q) =>
      let a := (readX s rs1).toNat
      if n ≠ 0 then .trap (trapWord cQueue .s (wordOfInstr s (.emit rs1 n)))
      else if a % 32 ≠ 0 then .trap (trapAt cMisaligned .s a)
      else if cntWriteFull s .l 15 then .stall
      else match stageQueue s l q, s.out.grants.find? (fun g => g.1 == l && g.2.1 == q) with
        | some sq, some g => emitItem a sq g s
        | _, _ => .wait (updQueue l q (fun k => { k with emitters := joinAsk s.pipe.wall (pkgIndex s) k.emitters })
            (updOut (fun o => { o with emitWait := some (l, q) }) s))

/-- EMIT (R131). -/
def execEmit (rs1 : Fin 32) (n : Fin 8) (s : State) : Host.Outcome State Fault Refusal := issue .s (emitBody rs1 n) s

/-! ### Atomics (R132) -/

/-- An atomic of 4 or 8 bytes: without a destination it is held back; with one it ends the phase as the last effect of the
commit and its result is awaited. -/
def atomicBody (o : RType) (op : AmoOp) (wide : Bool) (s : State) : Issued :=
  if xEmpty s o.rs1 || xEmpty s o.rs2 || xEmpty s o.rd then .stall
  else
    let n := if wide then 8 else 4
    let a := (readX s o.rs1).toNat
    checked .s (checkRange s 15 h15Descriptor n winStore kindsH15 .rmw a n) (fun xs t =>
      let e := fun (f : Option Nat) => Effect.atomic (word a) (keyOf xs a) op wide (readX s o.rs2) (readX s o.rd) f
      if o.rd = 0 then (if holdFull s then .force else .ok (holdBack (e none) .s 15 t))
      else if recordsFull s 2 then .stall
      else
        let u := push { Flight.start t .s (xDest o.rd) (.awaited .atomic) 1 with variable' := true } t
        .ok (addLast (e (some t.nextId)) (setCommit .commit u)))

/-- AMOADD.W (R132). -/
def execAmoaddW (o : RType) (s : State) : Host.Outcome State Fault Refusal := issue .s (atomicBody o .add false) s

/-- AMOADD.D (R132). -/
def execAmoaddD (o : RType) (s : State) : Host.Outcome State Fault Refusal := issue .s (atomicBody o .add true) s

/-- AMOAND.W (R132). -/
def execAmoandW (o : RType) (s : State) : Host.Outcome State Fault Refusal := issue .s (atomicBody o .and false) s

/-- AMOAND.D (R132). -/
def execAmoandD (o : RType) (s : State) : Host.Outcome State Fault Refusal := issue .s (atomicBody o .and true) s

/-- AMOOR.W (R132). -/
def execAmoorW (o : RType) (s : State) : Host.Outcome State Fault Refusal := issue .s (atomicBody o .or false) s

/-- AMOOR.D (R132). -/
def execAmoorD (o : RType) (s : State) : Host.Outcome State Fault Refusal := issue .s (atomicBody o .or true) s

/-- AMOXOR.W (R132). -/
def execAmoxorW (o : RType) (s : State) : Host.Outcome State Fault Refusal := issue .s (atomicBody o .xor false) s

/-- AMOXOR.D (R132). -/
def execAmoxorD (o : RType) (s : State) : Host.Outcome State Fault Refusal := issue .s (atomicBody o .xor true) s

/-- AMOMIN.W (R132): signed. -/
def execAmominW (o : RType) (s : State) : Host.Outcome State Fault Refusal := issue .s (atomicBody o .min false) s

/-- AMOMIN.D (R132): signed. -/
def execAmominD (o : RType) (s : State) : Host.Outcome State Fault Refusal := issue .s (atomicBody o .min true) s

/-- AMOMAX.W (R132): signed. -/
def execAmomaxW (o : RType) (s : State) : Host.Outcome State Fault Refusal := issue .s (atomicBody o .max false) s

/-- AMOMAX.D (R132): signed. -/
def execAmomaxD (o : RType) (s : State) : Host.Outcome State Fault Refusal := issue .s (atomicBody o .max true) s

/-- AMOMINN.W (R132): unsigned. -/
def execAmominnW (o : RType) (s : State) : Host.Outcome State Fault Refusal := issue .s (atomicBody o .minn false) s

/-- AMOMINN.D (R132): unsigned. -/
def execAmominnD (o : RType) (s : State) : Host.Outcome State Fault Refusal := issue .s (atomicBody o .minn true) s

/-- AMOMAXN.W (R132): unsigned. -/
def execAmomaxnW (o : RType) (s : State) : Host.Outcome State Fault Refusal := issue .s (atomicBody o .maxn false) s

/-- AMOMAXN.D (R132): unsigned. -/
def execAmomaxnD (o : RType) (s : State) : Host.Outcome State Fault Refusal := issue .s (atomicBody o .maxn true) s

/-- AMOSWAP.W (R132). -/
def execAmoswapW (o : RType) (s : State) : Host.Outcome State Fault Refusal := issue .s (atomicBody o .swap false) s

/-- AMOSWAP.D (R132). -/
def execAmoswapD (o : RType) (s : State) : Host.Outcome State Fault Refusal := issue .s (atomicBody o .swap true) s

/-- CAS.W (R132): compares with x[xd]. -/
def execCasW (o : RType) (s : State) : Host.Outcome State Fault Refusal := issue .s (atomicBody o .cas false) s

/-- CAS.D (R132): compares with x[xd]. -/
def execCasD (o : RType) (s : State) : Host.Outcome State Fault Refusal := issue .s (atomicBody o .cas true) s

/-! ### Scratchpad locks (R133) -/

/-- The core and scratchpad offset that a local or die-window address names. -/
def spadPlace (s : State) (a : Nat) : Nat × Nat := match windowOf a with | .die n o => (dieTarget s n, o) | _ => (dieIndex s, a)

/-- The context whose locks the core takes: its launch. -/
def lockOwner (s : State) : Nat := (s.seq.ctx.map (·.launch)).getD 0

/-- LDL (R133): a variable producer that waits at the bank of its address. Its request reaches the bank after a free time. -/
def ldlBody (o : IType) (s : State) : Issued :=
  if xEmpty s o.rs1 || xEmpty s o.rd || cntReadFull s .l 15 || xRecordsFull s o.rd 2 then .stall
  else
    let a := addr (readX s o.rs1) (imm12 o.imm)
    checked .s (checkRange s 15 h15Descriptor 8 winLocalDie kindsH15 .read a 8) (fun _ t =>
      let p := spadPlace t a
      let d := drawWait (cntRead .l 15 t)
      let w : LockWait := ⟨p.1, bankOf p.2, lockBit p.2, lockOwner t, dieIndex t, some d.2.nextId, a, false, s.pipe.wall + d.1⟩
      let f := Flight.start d.2 .s (xDest o.rd) (.awaited .lock) 1
      .ok (push { f with variable' := true, acc := some (.l, 15), read := some ⟨.l, 15, a, windowIx a, false⟩ }
        (updSys (fun m => { m with lockWaits := m.lockWaits ++ [w] }) d.2)))

/-- STUL (R133): a store that clears its lock bit at the bank, in one step. -/
def stulBody (o : SType) (s : State) : Issued :=
  if xEmpty s o.rs1 || xEmpty s o.rs2 || cntWriteFull s .l 15 then .stall
  else
    let a := addr (readX s o.rs1) (imm12 o.imm)
    let bs := leBytes 8 (readX s o.rs2).toNat
    checked .s (checkRange s 15 h15Descriptor 8 winLocalDie kindsH15 .read a 8) (fun _ t =>
      if isLocal a then .ok (postStore .s (.unlock a) (cellsAt a bs) 3 15 t)
      else
        let n := fresh (cntWrite .l 15 t)
        .ok (updCyc (fun c => { c with folds := c.folds ++ foldEntry a bs })
          (sendEntry .l 15 .s (atSystem t) n.1 t.rcv.commits (.unlock a bs) n.2)))

/-- LDL (R133). -/
def execLdl (o : IType) (s : State) : Host.Outcome State Fault Refusal := issue .s (ldlBody o) s

/-- STUL (R133). -/
def execStul (o : SType) (s : State) : Host.Outcome State Fault Refusal := issue .s (stulBody o) s

end Sys2Proof.Machine
end

