-- ==== Sys2Proof/Machine/Engine.lean ====
section
/-! DEFINITION. How the matrix and copy engines reach memory after their bundle has issued: reads at a bank, through the die
window or from a home; writes to the own banks or toward the Paddock; the faults they find (R142, R154, R230, R270, R308); the
bandwidth tokens that their requests take (R363); formats taken from a handle or a page (R66, R70, R71); and the shadows of tiles and buffers (R296). -/

namespace Sys2Proof.Machine

open Sys2Proof

/-! ### Reads -/

/-- A page fault of an engine that comes after issue, as its cause and address. -/
abbrev Engine (α : Type) := Except (BitVec 8 × Nat) α

/-- The translation of one address for an access of an engine: a stall (none inside) for a write to a page that migrates. -/
def engineKey (k : AccKind) (va : Nat) (s : State) : Engine (Option (Nat × State)) :=
  match windowOf va with
  | .global =>
    (match translate va s with
     | .error e => .error (e, faultPlace s e va)
     | .ok (x, t) =>
       if pageForbids k x then .error (cPermission, va)
       else if k.writes && ptFrozen x.w0.toNat then .ok none
       else .ok (some (globalKey [x] va, if k.writes then markDirty x t else t)))
  | .die n _ => if dieCoreOff s n then .error (cTranslation, va) else .ok (some (va, s))
  | .code => .error (cPermission, va)
  | .hole => .error (cTranslation, va)
  | .spad => .ok (some (va, s))

/-- The granules of the own scratchpad that hold keys (R160). -/
def ownGranules (s : State) (keys : List Nat) : List Nat :=
  (((keys.map (landKey s)).filter (fun k => decide (k < Config.scratchBytes))).map (fun k => k / 32)).eraseDups

/-- An engine's access finds the banks of its granules free in this cycle, and takes them; else it moves to the next one (R161). What
the access was served of in this cycle before, `mine`, needs no further service (R160). -/
def takeBanks (mine keys : List Nat) (s : State) : Option State :=
  let b := ((ownGranules s keys).filter (fun g => !mine.contains g)).map (fun g => g % 96)
  if b.any (fun x => s.pipe.banks.contains x) then none
  else some (if b.isEmpty then s else updPipe (fun p => { p with banks := p.banks ++ b }) s)

/-- Bytes at offsets from an address, all within one line, as they arrive: a refusal of the target (R169), a bad line (R308, R374) or a
lost translation is a fault. None where a bank is taken (R161); `mine` is what the access has been served of in this cycle. -/
def engineReadAt (mine : List Nat) (p : Path) (h : Fin 16) (va : Nat) (offs : List Nat) (s : State) : Engine (Option (List Byte × State)) :=
  match engineKey .read va s with
  | .error e => .error e
  | .ok none => .error (cTranslation, va)
  | .ok (some (key, t)) =>
    if refused s va then .error (cPermission, va)
    else
      let keys := offs.map (fun i => landKey s (key + i))
      match takeBanks mine keys t with
      | none => .ok none
      | some u => match rangeBad u va keys with
        | some (i, b) => .error (badCause b, va + offs.getD i 0)
        | none => .ok (some (readKeys p h keys u))

/-- n bytes from an address, all within one line. -/
def engineReadOf (mine : List Nat) (p : Path) (h : Fin 16) (va n : Nat) (s : State) : Engine (Option (List Byte × State)) :=
  engineReadAt mine p h va (List.range n) s

/-- An access of an engine that stands for itself. -/
def engineRead (p : Path) (h : Fin 16) (va n : Nat) (s : State) : Engine (Option (List Byte × State)) := engineReadOf [] p h va n s

/-- The key of an address for the port: where it would be read. -/
def portKey (va : Nat) (s : State) : Nat :=
  match engineKey .read va s with | .ok (some r) => r.1 | _ => va

/-- The lines of tier 0 among n bytes from an address. -/
def lineCost (va n : Nat) (s : State) : Nat :=
  if n = 0 then 0 else ((linesOf va n).map (fun a => portKey a s)).countP isHbm

/-- A fault of an engine's access is raised: an uncorrectable error by R308, the others as deferred traps (R142). -/
def engineFault (sl : Slot) (guarded sys : Bool) (commit : Nat) (e : BitVec 8 × Nat) (s : State) : State :=
  if e.1 = cUncorrectable then
    (match windowOf e.2 with
     | .global => consume .globalLine sl e.2 guarded sys commit (hbmCount e.2 s)
     | _ => consume .state sl e.2 false sys commit s)
  else
    let a := if e.1 = cIntegrity then e.2 / 64 * 64 else e.2
    raiseDeferred ⟨e.1, if e.1 = cKey then word e.2 else tvalAddr sl a, sl, sys⟩ (noteFault e.1 e.2 s)

/-! ### Writes -/

/-- Bytes that wait for the outbound port. -/
def portBytes (s : State) : Nat := (s.out.port.map entrySize).sum

/-- Bytes within one line, of an operation of a commit: into the own bank at once, or as an entry for the Paddock. None when
the page migrates (R111), a bank is taken (R161) or the undo log is full (R295). -/
def engineSend (p : Path) (h : Fin 16) (sl : Slot) (acc : Nat) (sys : Bool) (commit va : Nat) (bs : List Byte) (s : State) :
    Engine (Option State) :=
  match engineKey .write va s with
  | .error e => .error e
  | .ok none => .ok none
  | .ok (some (key, t)) =>
    match windowOf va with
    | .spad =>
      let keys := (List.range bs.length).map (va + ·)
      if undoBlocked commit (granulePieces keys) t then .ok none
      else .ok ((takeBanks [] keys t).map (writeSpad commit va bs))
    | _ => .ok (some (sendEntry p h sl sys acc commit (.store va key bs) t))

/-- An engine's write: it waits also where the port has a cycle's bytes to carry already (R18). -/
def engineWrite (p : Path) (h : Fin 16) (sl : Slot) (acc : Nat) (sys : Bool) (commit va : Nat) (bs : List Byte) (s : State) :
    Engine (Option State) :=
  if windowOf va != .spad && decide (64 < portBytes s + bs.length) then .ok none else engineSend p h sl acc sys commit va bs s

/-- A producer of writes has put its last entry on the way: the counts that nothing awaits any more leave (R171). -/
def accSettle (p : Path) (h : Fin 16) (acc : Nat) (s : State) : State :=
  let back := s.out.refusals.any (fun r => r.id == acc && r.cnt.isSome)
  let s := if accLeft s acc .die || back then s else cntWriteDie p h s
  if accLeft s acc .pkg || back then s else cntWriteHome p h s

/-! ### Formats (R66, R70, R71) -/

/-- The leaf's second word for an address of global memory, where its page is mapped. -/
def pageAttr (s : State) (va : Nat) : Option Xlat :=
  match windowOf va with
  | .global => (match translate va s with | .ok (x, _) => some x | .error _ => none)
  | _ => none

/-- The format of an access (R66): of the instruction, the handle, or the page. None is the reserved code of a page. -/
def resolveFmt (s : State) (f : Fmt) (g : Granule) (va : Nat) : Option Fmt :=
  if f ≠ .page then some f
  else if hFmt g ≠ 0 then fmtOf (hFmt g)
  else match pageAttr s va with
    | some x => fmtOf (ptFmt x.w1.toNat)
    | none => some .page

/-- The pages of global memory that a range reaches, where they are mapped. -/
def pagesOf (s : State) : Nat → Nat → Nat → List Xlat
  | 0, _, _ => []
  | n + 1, a, stop =>
    if stop ≤ a then []
    else match pageAttr s a with
      | some x => x :: pagesOf s n (x.va + x.size) stop
      | none => pagesOf s n ((a / 65536 + 1) * 65536) stop

/-- The block length of a page (R70); none for the reserved code. -/
def blockLen (c : Nat) : Option Nat := match c with | 0 => some 16 | 1 => some 32 | 2 => some 64 | _ => none

/-- Bytes of a block (R70). -/
def blockBytes (f : Fmt) (len : Nat) : Nat := len * fmtBits f / 8

/-- The metadata address of the block that holds an address of a page (R71). -/
def metaOf (x : Xlat) (f : Fmt) (len va : Nat) : Nat :=
  x.va + ptMeta x.w1.toNat + 2 * ((va - x.va) / max 1 (blockBytes f len))

/-! ### Operations of the matrix engine that a checkpoint holds too (R250, R251, R296) -/

/-- The shadow that a tile (0, 1) or a physical buffer (2, 3) has at a checkpoint. -/
def shadowsUsed (i : Fin 4) (s : State) : Nat := (s.rcv.ckpts.filter (fun c => c.shadows.get i)).length

/-- Whether an operation that changes it would need a third shadow (R296). -/
def shadowFull (i : Fin 4) (s : State) : Bool :=
  match s.rcv.ckpts with
  | c :: _ => !c.shadows.get i && decide (2 ≤ shadowsUsed i s)
  | [] => false

/-- The first operation after a checkpoint takes its shadow (R296). -/
def takeShadow (i : Fin 4) (s : State) : State :=
  updRcv (fun r => { r with ckpts := match r.ckpts with
    | c :: l => { c with shadows := c.shadows.set i.val true } :: l
    | [] => [] }) s

/-- What an operation of the matrix engine does when it completes, here and in every live checkpoint that holds the operation:
one issued at or before a checkpoint completes before a rollback returns there (R251, R301). -/
def matDone (commit : Nat) (holds : Mat → Bool) (f : Mat → Mat) (v : BitVec 7) (m : BitVec 3) (s : State) : State :=
  let s := updRcv (fun r => { r with ckpts := r.ckpts.map (fun c =>
    if holds c.mat then { c with mat := f c.mat, seq := { c.seq with vflags := c.seq.vflags ||| v, mflags := c.seq.mflags ||| m } }
    else c) }) s
  setFlags commit v m (updMat f s)

end Sys2Proof.Machine
end

