-- ==== Sys2Proof/Machine/Copy.lean ====
section
/-! DEFINITION. The copy engine of slot D (R255 to R283): its words at issue, the nest, streams, collectives and snapshots as the
engine works on them, and their completion. -/

namespace Sys2Proof.Machine

open Sys2Proof

/-! ### Rings, boxes and runs (R260, R261) -/

/-- An address through a ring handle (R261): at or above the base it wraps into the extent. -/
def ringMap (g : Granule) (a : Nat) : Nat :=
  if hKind g = 4 ∧ hBase g ≤ a then hBase g + (a - hBase g) % max 1 (hExtent g) else a

/-- Bytes from an address to where a ring wraps. -/
def ringGap (g : Granule) (a : Nat) : Nat :=
  if hKind g = 4 ∧ hBase g ≤ a then hExtent g - (a - hBase g) % max 1 (hExtent g) else 2 ^ 62

/-- The first and last address that a source may be read at, before a ring's mapping (R153, R261); a ring takes every address from its
base up. -/
def readSpan (h : Fin 16) (g : Granule) (parity : Bool) : Nat × Nat :=
  if h = 15 then (0, 2 ^ 57 - 1)
  else if hKind g = 4 then (hBase g, 2 ^ 128)
  else (readHalf g parity, readHalf g parity + hExtent g - 1)

/-- Σ i_l × stride_l for run r, whose innermost index varies fastest (R260). -/
def runOff (st : Level' → Int) : List Level' → Nat → Int
  | [], _ => 0
  | l :: rest, r => ((r % max 1 l.count : Nat) : Int) * st l + runOff st rest (r / max 1 l.count)

/-- The number of runs of a nest: 0 when a level has count 0 (R260). -/
def runCount (n : List Level') : Nat := (n.map (·.count)).foldl (· * ·) 1

/-- The lowest address, as an exact sum, and the byte count of a box (R6, R261). -/
def nestSpan (st : Level' → Int) (n : List Level') (base : Word) (bytes : Nat) : Int × Nat :=
  let lo := n.foldl (fun a l => a + min 0 (((l.count : Int) - 1) * st l)) (base.toNat : Int)
  let hi := n.foldl (fun a l => a + max 0 (((l.count : Int) - 1) * st l)) (base.toNat : Int)
  (lo, (hi - lo).toNat + bytes)

/-- A box as a range of addresses; one that begins below 0 lies outside every window. -/
def nestBox (st : Level' → Int) (n : List Level') (base : Word) (bytes : Nat) : Nat × Nat :=
  let b := nestSpan st n base bytes
  (place b.1, b.2)

/-- A box through a handle: for a ring, one range or two (R261). -/
def boxRanges (g : Granule) (b : Nat × Nat) : List (Nat × Nat) :=
  if hKind g ≠ 4 ∨ b.1 < hBase g then [b]
  else if hExtent g ≤ b.2 then [(hBase g, hExtent g)]
  else
    let lo := ringMap g b.1
    let hi := ringMap g (b.1 + b.2 - 1)
    if lo ≤ hi then [(lo, b.2)] else [(lo, hBase g + hExtent g - lo), (hBase g, hi + 1 - hBase g)]

/-- Alignment of every run start (R262). -/
def nestAligned (st : Level' → Int) (n : List Level') (base : Word) (m : Nat) : Bool :=
  base.toNat % m == 0 && n.all (fun l => decide (l.count ≤ 1) || st l % (m : Int) == 0)

/-! ### Formats of a copy (R265, R266) -/

/-- Bytes of an element of a destination format. -/
def fmtSize (f : Fmt) : Nat := max 1 (fmtBits f / 8)

/-- Destination formats of decode (R265); untyped is N8. -/
def decodeTo (f : Fmt) : Bool := match f with | .bi8 | .bi4 | .f4x | .t3p | .i4 => false | _ => true

/-- Formats of add-int (R266); untyped counts as 1 byte. -/
def addFmt (f : Fmt) : Bool := match f with | .page | .i8 | .i16 | .i32 | .n8 | .n16 | .n32 => true | _ => false

/-- Bytes that a run writes and reads. -/
def runBytes (m : CopyMode) (fd : Fmt) (l : Nat) : Nat := match m with | .decode | .addint => l * fmtSize fd | _ => l
def runReads (m : CopyMode) (fs fd : Fmt) (l : Nat) : Nat :=
  match m with | .decode => fmtBytes fs l | .addint => l * fmtSize fd | _ => l

/-! ### DLVL, DPAD, DGCFG (R259, R263, R272) -/

/-- A D-slot operand out of its limit (R258, step 3). -/
def badOperand : Trap := trapAt cBadData .d 0

/-- Stalls for empty sources; the D slot has no wait bits (R257). -/
def dSources (s : State) (l : List (Fin 32)) : List (Option Issued) := l.map (fun r => stallIf (xEmpty s r))

/-- A stride that a level can hold. -/
def strideOk (w : Word) : Bool := decide (-(2 ^ 40 : Nat) ≤ w.toInt) && decide (w.toInt < (2 ^ 40 : Nat))

/-- DLVL (R259). -/
def dlvlBody (lvl : Fin 6) (xc xss xsd : Fin 32) (s : State) : Issued :=
  firstHalt (dSources s [xc, xss, xsd])
    (let c := readX s xc
     let a := readX s xss
     let b := readX s xsd
     if 65535 < c.toNat ∨ strideOk a = false ∨ strideOk b = false then .trap badOperand
     else .ok (push (Flight.start s .d (.level lvl) (.lvl ⟨c.toNat, a.toInt, b.toInt⟩) 1) s))

/-- DPAD (R263). -/
def dpadBody (xv : Fin 32) (s : State) : Issued :=
  firstHalt (dSources s [xv]) (.ok (push (Flight.start s .d .fillSlot (.x (readX s xv)) 1) s))

/-- DGCFG (R272). -/
def dgcfgBody (hs hd : Fin 16) (xc : Fin 32) (s : State) : Issued :=
  firstHalt (dSources s [xc] ++ [stallIf (s.cpy.gather.isSome || s.cpy.scatter.isSome)])
    (let v := (readX s xc).toNat
     let e := bits v 2 10 + 1
     if v / 2 ^ 14 ≠ 0 ∨ 512 < e ∨ 2048 < e * 2 ^ bits v 0 2 then .trap badOperand
     else .ok (push (Flight.start s .d (.gcfg hs hd) (.x (word v)) 1) s))

/-! ### Commands at issue (R257, R258, R261, R268, R269) -/

/-- A command with nothing moved yet. -/
def DCmd.start (s : State) (kind : DKind) (hs hd : Fin 16) (src dst : Word) (len : Nat) (fs fd : Fmt) (stage : DStage) (w : Nat) : DCmd where
  id := s.nextId
  kind := kind
  nest := s.cpy.nest.toList
  fill := s.cpy.fill
  hs := hs
  hd := hd
  ds := readH s hs
  dd := readH s hd
  src := src
  dst := dst
  len := len
  parity := s.seq.parity
  fs := fs
  fd := fd
  stage := stage
  due := s.pipe.wall + 1
  rrun := 0
  roff := 0
  wrun := 0
  woff := 0
  buf := []
  written := 0
  flags := 0
  link := 0
  cleared := []
  word := BitVec.ofNat 32 w
  commit := s.rcv.commits
  waited := 0
  sys := atSystem s
  silent := false

/-- A command joins the queue. -/
def enqueue (c : DCmd) (s : State) : State := { updCpy (fun y => { y with cmds := y.cmds ++ [c] }) s with nextId := s.nextId + 1 }

/-- The command queue is full (R257). -/
def queueFull (s : State) : Bool := decide (16 ≤ (s.cpy.cmds.filter (fun c => !c.silent)).length)

/-- Held commands in use: those that wait for their commit (R268). -/
def heldInUse (s : State) : Nat :=
  (s.out.heldBack.filter (fun e => match e.body with | .effect (.held _ _ _) => true | _ => false)).length

/-- Room for n more held-back effects, and for a held command (R124, R268). -/
def holdRoom (s : State) (n : Nat) (held : Bool) : Bool :=
  decide (s.out.heldBack.length + n ≤ 64) && (!held || decide (heldInUse s < 2))

/-- Write permission of an add-int destination takes perm.a too (R258). -/
def addPerm (g : Granule) : Granule := if hPermA g then g else g &&& ~~~(BitVec.ofNat 256 (2 ^ 137))

/-- Ranges checked in order. -/
def checkAll (h : Fin 16) (g : Granule) (align : Nat) (wins : Window → Bool) (kinds : List Nat) (k : AccKind) :
    List (Nat × Nat) → State → Except (Option (BitVec 8 × Nat)) State
  | [], s => .ok s
  | (a, n) :: r, s =>
    match checkRange s h g align wins kinds k a n with
    | .error e => .error e
    | .ok (_, t) => checkAll h g align wins kinds k r t

/-- What the engine forbids of a source handle whatever its box: its kind (R154, R258). -/
def kindBad (g : Granule) (kinds : List Nat) : Option (BitVec 8) :=
  if hKind g = 0 then some cHandleBounds else if !kinds.contains (hKind g) then some cPermission else none

/-- The part of a source box that lies inside the read region, as one range or two (R261). -/
def insideBox (h : Fin 16) (g : Granule) (parity : Bool) (b : Int × Nat) : List (Nat × Nat) :=
  let sp := readSpan h g parity
  let lo := (max b.1 (sp.1 : Int)).toNat
  let hi := (min (b.1 + b.2) ((sp.2 : Int) + 1)).toNat
  if lo < hi then boxRanges g (lo, hi - lo) else []

/-- The checks of a copy's source (R261): of a clone's, the whole of R154; of another's, windows, kind and permission of what lies
inside the read region, and nothing of its translation. -/
def checkSource (m : CopyMode) (o : DC) (b : Int × Nat) (s : State) : Except (Option (BitVec 8 × Nat)) State :=
  let g := readH s o.hs
  match m with
  | .fill => .ok s
  | .clone => checkAll o.hs g 1 (fun w => w == Window.global) [1] .read [(place b.1, b.2)] s
  | _ =>
    let rs := if hKind g = 0 then [] else insideBox o.hs g s.seq.parity b
    match rs.findSome? (fun r => windowBad s winStore 4 r.1 (r.1 + r.2)) with
    | some a => .error (some (cTranslation, a))
    | none => match kindBad g [1, 2, 4] with
      | some c => .error (some (c, (rs.head?.map (·.1)).getD (place b.1)))
      | none => match rs.findSome? (fun r => handleBad s o.hs g [1, 2, 4] false r.1 (r.1 + r.2)) with
        | some e => .error (some e)
        | none => .ok s

/-- The alignment that a mode asks of its source and its destination (R262). -/
def copyAlign (m : CopyMode) (fd : Fmt) : Nat × Nat :=
  match m with
  | .copy | .fill => (1, 1)
  | .decode => (1, fmtSize fd)
  | .addint => (fmtSize fd, fmtSize fd)
  | .clone => (4096, 4096)

/-- Bad formats of a copy (R66, R70, R265, R266). A block format needs a page for its geometry: the first source byte inside the region,
`src`, may lie in no scratchpad window, and its page gives a block length. A page met later with the reserved length ends the copy with a
deferred BAD_DATA as it is reached: DESIGN CHOICE (88). -/
def copyFmtBad (s : State) (m : CopyMode) (fs fd : Option Fmt) (src : Nat) : Bool :=
  match m with
  | .decode => (match fs, fd with
    | some a, some b => !decodeTo b || (isBlock a && (winLocal (windowOf src) || winDie (windowOf src)
        || (pageAttr s src).any (fun x => (blockLen (ptBlen x.w1.toNat)).isNone)))
    | _, _ => true)
  | .addint => (match fd with | some b => !addFmt b | none => true)
  | _ => false

/-- All checks of a copy that moves bytes, after those of its operands (R261, R262). DESIGN CHOICE (84): of a misaligned base, stride or
length `tval` names the base address, and the source's alignment is checked before the destination's. DESIGN CHOICE (85): the
destination box is checked before the source's. -/
def checkCopy (m : CopyMode) (o : DC) (fs fd : Fmt) (len : Nat) (s : State) : Except (Option (BitVec 8 × Nat)) State :=
  let n := s.cpy.nest.toList
  let src := readX s o.xs
  let dst := readX s o.xd
  let al := copyAlign m fd
  if m ≠ .fill ∧ nestAligned (·.ss) n src al.1 = false then .error (some (cMisaligned, src.toNat))
  else if nestAligned (·.ds) n dst al.2 = false ∨ (m = .clone ∧ len % 4096 ≠ 0) then .error (some (cMisaligned, dst.toNat))
  else
    let g := readH s o.hd
    let box := nestBox (·.ds) n dst (runBytes m fd len)
    let kind : AccKind := if m = .addint then .rmw else .write
    let wins := if m = .clone then (fun w => w == Window.global) else winStore
    match checkAll o.hd (if m = .addint then addPerm g else g) 1 wins (if m = .clone then [1] else [1, 2, 4]) kind (boxRanges g box) s with
    | .error e => .error e
    | .ok t => checkSource m o (nestSpan (·.ss) n src (runReads m fs fd len)) t

/-- The refill lists take a copy into the fill half of a guarded phase-paired handle (R309). -/
def captureCopy (c : DCmd) (box : Nat × Nat) (s : State) : State :=
  let inFill := fun (h : Fin 16) =>
    let g := readH s h
    let lo := regionLo g s.seq.parity true
    decide (hKind g = 2) && hGuarded g && decide (lo ≤ box.1) && decide (box.1 + box.2 ≤ lo + hExtent g)
  let add := fun (l : List (Fin 16 × List DCmd × Bool)) (h : Fin 16) =>
    match l.find? (fun e => e.1 == h) with
    | some _ => l.map (fun e => if e.1 == h then (if e.2.1.length < 4 then (h, e.2.1 ++ [c], e.2.2) else (h, e.2.1, true)) else e)
    | none => l ++ [(h, [c], false)]
  updCpy (fun y => { y with capture := (allHandles.filter inFill).foldl add y.capture }) s

/-- DCOPY at issue (R258, R261 to R269). -/
def copyBody (m : CopyMode) (i : Instr) (o : DC) (s : State) : Issued :=
  let w := wordOfInstr s i
  let n := s.cpy.nest.toList
  let len := (readX s o.xk).toNat
  let src := readX s o.xs
  let dst := readX s o.xd
  let fs := if m = .decode then resolveFmt s .page (readH s o.hs) src.toNat else some .page
  let fd := if m = .decode ∨ m = .addint then resolveFmt s .page (readH s o.hd) dst.toNat else some .page
  let bound := decide (o.hd ≠ 15) && hCounter (readH s o.hd) != 0
  let moves := decide (0 < len) && decide (0 < runCount n)
  let held := m == .addint
  let reads := m != .fill
  let first := fun (f : Fmt) => ((insideBox o.hs (readH s o.hs) s.seq.parity (nestSpan (·.ss) n src (runReads m f .page len))).head?.map (·.1)).getD src.toNat
  firstHalt (dSources s ((if reads then [o.xs] else []) ++ [o.xd, o.xk]) ++ [stallIf (reads && hEmpty s o.hs), stallIf (hEmpty s o.hd),
      stallIf (queueFull s), stallIf (reads && cntReadFull s .d o.hs), stallIf (cntWriteFull s .d o.hd)])
    (if 2 ^ 32 - 1 < len ∨ 2 ^ 40 < runCount n * len then .trap badOperand
     else if copyFmtBad s m fs fd (if moves then first (fs.getD .page) else src.toNat) then .trap badOperand
     else
       let fs := fs.getD .page
       let fd := fd.getD .page
       checked .d ((if moves then checkCopy m o fs fd len s else .ok s).map (fun u => (([] : List Xlat), u))) (fun _ t =>
         checked .d ((if bound then checkCounter (hCounter (readH s o.hd)) t else .ok (0, t)).map (fun r => (([] : List Xlat), r.2))) (fun _ u =>
           if !holdRoom s (one held + one bound) held then .force
           else
             let key := match checkCounter (hCounter (readH s o.hd)) t with | .ok r => r.1 | .error _ => 0
             let c := DCmd.start u (.copy m) o.hs o.hd src dst len fs fd (if held then .held else .queued) w
             let u := enqueue c u
             let u := if held then holdBack (.held c.id dst len) .d o.hd u else cntWrite .d o.hd (if m = .fill then u else cntRead .d o.hs u)
             let u := if (m = .copy ∨ m = .decode) ∧ moves = true then captureCopy c (nestBox (·.ds) n dst (runBytes m fd len)) u else u
             .ok (if bound then holdBack (.copyInc c.id (word (hCounter c.dd)) key (if moves then runCount n * runBytes m fd len else 0)
                   (hScope c.dd)) .d o.hd u
                 else u))))

/-- DTINV (R112, R276): a system-level marker. -/
def dtinvBody (s : State) : Issued :=
  systemOnly .d .dtinv (fun s =>
    if queueFull s then .stall
    else .ok (enqueue (DCmd.start s .tinv 15 15 0 0 0 .page .page .queued (wordOfInstr s .dtinv)) s)) s

/-- DSNAP (R279): a system-level stream of the dirty pages of a region. The stream's first record is checked at issue, the rest as
it is written. -/
def dsnapBody (o : DI) (s : State) : Issued :=
  systemOnly .d (.dsnap o) (fun s =>
    let g := readH s o.h
    let a := (readX s o.xa).toNat
    let sp := readSpan o.h g s.seq.parity
    firstHalt (dSources s [o.xa, o.xn] ++ [stallIf (hEmpty s o.h), stallIf (queueFull s), stallIf (cntReadFull s .d o.h),
        stallIf (cntWriteFull s .d 15)])
      (checked .d (offPath <| checkRange s 15 h15Descriptor 64 (fun w => w == Window.global) kindsH15 .write a 64) (fun _ t =>
        match (match windowBad t (fun w => w == Window.global) 4 sp.1 (sp.2 + 1) with
          | some b => some (if windowOf b == .code then cPermission else cTranslation, b)
          | none => handleBad t o.h g [1] false sp.1 (sp.2 + 1)) with
        | some e => .trap (accessTrap .d e)
        | none =>
          let c := DCmd.start t .snap o.h 15 (word sp.1) (word a) (readX s o.xn).toNat .page .page .queued (wordOfInstr s (.dsnap o))
          .ok (cntWrite .d 15 (cntRead .d o.h (enqueue { c with link := sp.1 } t)))))) s

/-! ### Streams at issue (R273, R275) -/

/-- DGIDX and DSIDX at issue (R273). -/
def streamBody (gather : Bool) (o : DI) (s : State) : Issued :=
  let a := (readX s o.xa).toNat
  let n := (readX s o.xn).toNat
  let dh := if gather then s.cpy.gh else s.cpy.sh
  let dd := readH s dh
  let cfg := s.cpy.cfg.toNat
  let esz := 2 ^ bits cfg 0 2
  let lo := if dh = 15 then 0 else regionLo dd s.seq.parity (!gather)
  let bound := !gather && decide (dh ≠ 15) && hCounter dd != 0
  firstHalt (dSources s [o.xa, o.xn] ++ [stallIf (hEmpty s o.h), stallIf (hEmpty s dh),
      stallIf (if gather then s.cpy.gather.isSome else s.cpy.scatter.isSome),
      stallIf (cntReadFull s .g o.h), stallIf (cntReadFull s .g dh), stallIf (cntWriteFull s .g dh)])
    (if 2 ^ 32 - 1 < n then .trap badOperand
     else if a % 4 ≠ 0 then .trap (trapAt cMisaligned .d a)
     else checked .d (offPath <| (if n = 0 then .ok s else checkAll o.h (readH s o.h) 4 winStore kindsVec .read [(a, 4 * n)] s).map
         (fun u => (([] : List Xlat), u))) (fun _ t =>
       checked .d (offPath <| checkRange t dh dd 1 winStore kindsVec (if gather then .read else .write) lo 1) (fun _ t =>
         checked .d ((if bound then checkCounter (hCounter dd) t else .ok (0, t)).map (fun r => (([] : List Xlat), r.2))) (fun _ u =>
           if bound && !holdRoom s 1 false then .force
           else
             let key := match checkCounter (hCounter dd) t with | .ok r => r.1 | .error _ => 0
             let q : Fin 4 := if gather then Fin.ofNat 4 (bits cfg 12 1) else Fin.ofNat 4 (2 + bits cfg 13 1)
             let st : Stream := ⟨u.nextId, a, n, 0, 0, [], [], [], gather && decide (0 < n), o.h, dh, readH s o.h, dd, esz, bits cfg 2 10 + 1,
               q, s.cpy.fill, s.seq.parity, 0, 0, 0, s.pipe.wall + 1, 0, s.rcv.commits, atSystem s⟩
             let u := { u with nextId := u.nextId + 1 }
             let u := if gather then (if 0 < n then cntRead .g o.h u else u) else u
             let u := updCpy (fun y => if gather then { y with gather := some st } else { y with scatter := some st }) u
             .ok (if bound then holdBack (.scatterInc st.id (word (hCounter dd)) key (n * esz) (hScope dd)) .d dh u else u)))))

/-! ### The event queue (R271) -/

/-- A record is posted: to the EVPOP that waits longest, else into the queue, or it is lost. The checkpoints that `keeps` selects get
the record too: those after whose restoring it is not posted again (R271, R280). -/
def postRecord (keeps : Ckpt → Bool) (w : Word) (s : State) : State :=
  let add := fun (c : Cpy) => if c.events.length < 32 then { c with events := c.events ++ [w] } else { c with lost := c.lost + 1 }
  match s.pipe.flight.find? (fun f => f.val == .awaited .evpop) with
  | some f =>
    let t := deliver f.id (.x w) s
    updRcv (fun r => { r with ckpts := (s.rcv.ckpts.zip r.ckpts).map (fun c =>
      if !keeps c.1 then { c.2 with flight := c.1.flight }
      else if c.1.flight.any (fun g => g.id == f.id) then c.2 else { c.2 with cpy := add c.2.cpy }) }) t
  | none => updCpy add (updRcv (fun r => { r with ckpts := r.ckpts.map (fun c => if keeps c then { c with cpy := add c.cpy } else c) }) s)

/-- The checkpoints taken after a command issued: a return to one of them keeps the command (R280). -/
def afterCmd (c : DCmd) (k : Ckpt) : Bool := decide (c.commit < k.commit)

/-- A stream goes on from its place at the checkpoint, so that none keeps the record that it posts (R271). -/
def afterStream (_ : Ckpt) : Bool := false

/-- A record of the copy engine. -/
def recordOf (code : Nat) (h : Fin 16) (payload : Nat) : Word := word (code * 2 ^ 56 + h.val * 2 ^ 52 + payload % 2 ^ 52)

/-! ### Starting commands (R112, R257) -/

/-- A command changed. -/
def updCmd (id : Nat) (f : DCmd → DCmd) (s : State) : State :=
  updCpy (fun y => { y with cmds := y.cmds.map (fun c => if c.id == id then f c else c) }) s

/-- Whether a command is held whose commit has not come (R268). -/
def uncommitted (s : State) (c : DCmd) : Bool :=
  c.stage == .held && s.out.heldBack.any (fun e => match e.body with | .effect (.held n _ _) => n == c.id | _ => false)

/-- Whether the next queued command may start: at most four run, and a DTINV starts after every command and stream before it
(R112, R257, R276). What waits for its commit keeps nothing waiting but a DTINV, and that not before a save, which such a command would
block (R281): DESIGN CHOICE (87). -/
def mayStart (s : State) (c : DCmd) : Bool :=
  let earlier := s.cpy.cmds.filter (fun d => decide (d.id < c.id))
  let before := earlier.filter (fun d => d.stage != .held)
  let running := (s.cpy.cmds.filter (fun d => d.stage == .started || d.stage == .moved)).length
  c.stage == .queued && before.all (fun d => d.stage != .queued && !(d.kind == .tinv)) && decide (running < 4)
    && (match c.kind with
      | .tinv => earlier.all (fun d => pausing s && uncommitted s d) && (match s.cpy.gather with | some g => decide (c.id < g.id) | none => true)
          && (match s.cpy.scatter with | some g => decide (c.id < g.id) | none => true)
      | _ => true)

/-- Whether a stream waits for a DTINV that issued before it (R276). -/
def tinvBefore (s : State) (stream : Nat) : Bool := s.cpy.cmds.any (fun c => c.kind == .tinv && decide (c.id < stream))

/-- The next command starts, after a free time. -/
def startNext (s : State) : State :=
  match s.cpy.cmds.find? (mayStart s) with
  | some c => let d := drawWait s; updCmd c.id (fun c => { c with stage := .started, due := d.2.pipe.wall + d.1 }) d.2
  | none => s

/-! ### The engine's two directions (R257) -/

/-- Whether the engine may read, or write, in this wall cycle. -/
def readFree (s : State) : Bool := decide (s.pipe.cpyRead ≤ s.pipe.wall)
def writeFree (s : State) : Bool := decide (s.pipe.cpyWrite ≤ s.pipe.wall)

/-- n bytes read, or written: the direction is free again after a wall cycle for each 64 bytes. -/
def useRead (n : Nat) (s : State) : State := updPipe (fun p => { p with cpyRead := p.wall + max 1 ((n + 63) / 64) }) s
def useWrite (n : Nat) (s : State) : State := updPipe (fun p => { p with cpyWrite := p.wall + max 1 ((n + 63) / 64) }) s

/-! ### Moving a copy's bytes (R260 to R267, R270) -/

/-- The source and destination address of a place in a run, exact and before a ring's mapping (R260). -/
def srcAt (c : DCmd) (run off : Nat) : Int := (c.src.toNat : Int) + runOff (·.ss) c.nest run + off
def dstAt (c : DCmd) (run off : Nat) : Nat := place ((c.dst.toNat : Int) + runOff (·.ds) c.nest run + off)

/-- The bytes of the fill slot for n destination bytes (R263). -/
def fillBytes (fill : Word) (a n : Nat) : List Byte := (List.range n).map (fun i => BitVec.ofNat 8 (bits fill.toNat (8 * ((a + i) % 8)) 8))

/-- Whether a command has read, and written, its last run. -/
def DCmd.readAll (c : DCmd) : Bool := c.len == 0 || decide (runCount c.nest ≤ c.rrun)
def DCmd.wroteAll (c : DCmd) : Bool := c.readAll && c.buf.isEmpty

/-- The counters after units of a run: the next place. -/
def nextPlace (c : DCmd) (run off n : Nat) : Nat × Nat := if c.len ≤ off + n then (run + 1, 0) else (run, off + n)

/-- n bytes through a handle from an address on, cut where a ring wraps and where a line ends (R261). -/
def readThrough (h : Fin 16) (g : Granule) : Nat → List Nat → Nat → Nat → State → Engine (Option (List Byte × State))
  | 0, _, _, _, s => .ok (some ([], s))
  | fuel + 1, mine, a, n, s =>
    if n = 0 then .ok (some ([], s))
    else
      let x := ringMap g a
      let k := min n (min (ringGap g a) (64 - x % 64))
      match engineReadOf mine .d h x k s with
      | .error e => .error e
      | .ok none => .ok none
      | .ok (some (bs, t)) => match readThrough h g fuel (mine ++ ownGranules t (keysAt x k)) (a + k) (n - k) t with
        | .ok (some (cs, u)) => .ok (some (bs ++ cs, u))
        | r => r

/-- Source bytes of one element or piece: none where a byte of it lies outside the read region (R263). -/
def readSource (c : DCmd) (a : Int) (n : Nat) (s : State) : Engine (Option (Option (List Byte) × State)) :=
  let sp := readSpan c.hs c.ds c.parity
  if a < sp.1 ∨ (sp.2 : Int) < a + n - 1 then .ok (some (none, s))
  else match readThrough c.hs c.ds (n + 1) [] a.toNat n s with
    | .error e => .error e
    | .ok none => .ok none
    | .ok (some (bs, t)) => .ok (some (some bs, t))

/-- How many bytes of a plain copy or a fill go together: within one line of the destination and of the source, and on one
side of the edge of the source region. -/
def pieceLen (c : DCmd) : Nat :=
  let d := ringMap c.dd (dstAt c c.rrun c.roff)
  let a := srcAt c c.rrun c.roff
  let sp := readSpan c.hs c.ds c.parity
  let n := min (c.len - c.roff) (min (64 - d % 64) (ringGap c.dd (dstAt c c.rrun c.roff)))
  if c.kind = .copy .fill then n
  else if a < sp.1 then min n ((sp.1 : Int) - a).toNat
  else if (sp.2 : Int) < a then n
  else min n (min (64 - ringMap c.ds a.toNat % 64) (min (ringGap c.ds a.toNat) (sp.2 + 1 - a.toNat)))

/-- The code of element k of a packed source from its byte, or the digits' byte (R65). -/
def packedCode (f : Fmt) (k : Nat) (bs : List Byte) : Nat :=
  match f with
  | .i4 | .bi4 | .f4x => leNat bs / 16 ^ (k % 2) % 16
  | .t3p => leNat bs
  | _ => leNat bs

/-- One element decoded and narrowed (R199, R265). -/
def decodeElem (c : DCmd) (k : Nat) (bs mb : List Byte) : List Byte × BitVec 7 :=
  let code := packedCode c.fs k bs
  let d : Decoded :=
    if isBlock c.fs then decodeBlock c.fs code ((mb[0]?).getD 0).toNat (signExt (((mb[1]?).getD 0).toNat % 32) 5)
    else if c.fs = .t3p then decodePlain .t3p code (k % 5)
    else decodePlain c.fs code 0
  let r := narrowPlain c.fd .rne true d.val
  (leBytes (fmtSize c.fd) r.1, d.flags ||| r.2)

/-- The metadata of the block that holds a source byte of global memory (R71); a page with the reserved block length is BAD_DATA
(R70). -/
def readMeta (c : DCmd) (a : Nat) (s : State) : Engine (Option (List Byte × State)) :=
  match pageAttr s a with
  | some x => (match blockLen (ptBlen x.w1.toNat) with
    | some n => engineRead .d c.hs (metaOf x c.fs n a) 2 s
    | none => .error (cBadData, a))
  | none => .error (cTranslation, a)

/-- Whether a fill's next bytes are a whole crypto block of tier 0 that becomes zero (R354). -/
def zeroBlock (c : DCmd) (s : State) : Bool :=
  c.kind == .copy .fill && c.fill == 0 && decide (dstAt c c.rrun c.roff % 4096 = 0) && decide (4096 ≤ c.len - c.roff)
    && decide (hKind c.dd ≠ 4) && isHbm (portKey (dstAt c c.rrun c.roff) s)

/-- The lines of a crypto block, one after the other. -/
def readBlock (h : Fin 16) : Nat → Nat → State → Engine (Option (List Byte × State))
  | 0, _, s => .ok (some ([], s))
  | n + 1, a, s =>
    match engineRead .d h a 64 s with
    | .ok (some (bs, t)) => (match readBlock h n (a + 64) t with | .ok (some (cs, u)) => .ok (some (bs ++ cs, u)) | r => r)
    | r => r

/-- The next piece of a command is read: it joins what is to be written. None where a bank is taken. DESIGN CHOICE (83): the fill byte of
a ring destination is that of the address before the ring's mapping. -/
def readPiece (c : DCmd) (s : State) : Engine (Option (DCmd × State)) :=
  let a := srcAt c c.rrun c.roff
  let d := dstAt c c.rrun c.roff
  let put := fun (n : Nat) (bs : List Byte) (fl : BitVec 7) =>
    let p := nextPlace c c.rrun c.roff n
    { c with rrun := p.1, roff := p.2, buf := c.buf ++ [bs], flags := c.flags ||| fl, waited := 0 }
  let z := fmtSize c.fd
  let fill := fillBytes c.fill (dstAt c c.rrun (c.roff * z)) z
  match c.kind with
  | .copy .decode =>
    let k := c.roff
    let p := elemPlace c.fs k
    let so := srcAt c c.rrun p.1
    (match readSource c so p.2 s with
     | .error e => .error e
     | .ok none => .ok none
     | .ok (some (none, t)) => .ok (some (put 1 fill 0, t))
     | .ok (some (some bs, t)) =>
       if isBlock c.fs then
         (match readMeta c (ringMap c.ds so.toNat) t with
          | .error e => .error e
          | .ok none => .ok none
          | .ok (some (mb, u)) => let r := decodeElem c k bs mb; .ok (some (put 1 r.1 r.2, u)))
       else let r := decodeElem c k bs []; .ok (some (put 1 r.1 r.2, t)))
  | .copy .addint =>
    (match readSource c (srcAt c c.rrun (c.roff * z)) z s with
     | .error e => .error e
     | .ok none => .ok none
     | .ok (some (r, t)) => .ok (some (put 1 (r.getD fill) 0, t)))
  | .copy .fill =>
    .ok (some (if zeroBlock c s then (put 4096 (List.replicate 4096 0) 0, s) else (put (pieceLen c) (fillBytes c.fill d (pieceLen c)) 0, s)))
  | .copy .clone =>
    (match readBlock c.hs 64 a.toNat s with
     | .error e => .error e
     | .ok none => .ok none
     | .ok (some (bs, t)) => .ok (some (put 4096 bs 0, t)))
  | _ =>
    let n := pieceLen c
    (match readSource c a n s with
     | .error e => .error e
     | .ok none => .ok none
     | .ok (some (r, t)) => .ok (some (put n (r.getD (fillBytes c.fill d n)) 0, t)))

/-- The keys of n bytes through a handle, for a read-modify-write: none where a page migrates. A refusal of the target, and a bad line, are
faults. -/
def rmwKeys (g : Granule) : Nat → Nat → Nat → State → Engine (Option (List Nat × State))
  | 0, _, _, s => .ok (some ([], s))
  | fuel + 1, a, n, s =>
    if n = 0 then .ok (some ([], s))
    else
      let x := ringMap g a
      let k := min n (ringGap g a)
      match engineKey .rmw x s with
      | .error e => .error e
      | .ok none => .ok none
      | .ok (some (key, t)) =>
        if refused s x then .error (cPermission, x)
        else match lineBad t x (landKey t key) with
          | some b => .error (badCause b, x)
          | none => match rmwKeys g fuel (a + k) (n - k) t with
            | .ok (some (ks, u)) => .ok (some (keysAt (landKey t key) k ++ ks, u))
            | r => r

/-- A read-modify-write's bytes written at their homes. -/
def writeKeys (commit va : Nat) : List (Nat × Byte) → State → Option State
  | [], s => some s
  | (k, b) :: r, s =>
    if k < Config.scratchBytes then writeKeys commit va r (writeKept k [b] s)
    else match recordWrite va k 1 s with
      | some u => writeKeys commit va r (writeHome (some (.d, commit)) k [b] u)
      | none => none

/-- An integer of n bytes added to the destination at its home (R266): the newest value, one step. -/
def addElem (c : DCmd) (va : Nat) (bs : List Byte) (s : State) : Engine (Option State) :=
  match rmwKeys c.dd (bs.length + 1) va bs.length s with
  | .error e => .error e
  | .ok none => .ok none
  | .ok (some (keys, t)) =>
    let r := leBytes bs.length (leNat (keys.map (peek t)) + leNat bs)
    if keys = keysAt (keys.headD 0) bs.length ∧ Config.scratchBytes ≤ keys.headD 0 then
      (match recordWrite va (keys.headD 0) bs.length t with
       | some u => .ok (some (writeHome (some (.d, c.commit)) (keys.headD 0) r u))
       | none => .error (cIntegrity, va))
    else match writeKeys c.commit va (keys.zip r) t with
      | some u => .ok (some u)
      | none => .error (cIntegrity, va)

/-- The parts of bytes written through a handle from an address on: cut where a ring wraps (R261). -/
def ringParts (g : Granule) : Nat → Nat → List Byte → List (Nat × List Byte)
  | 0, _, _ => []
  | fuel + 1, a, bs =>
    if bs.isEmpty then []
    else (ringMap g a, bs.take (ringGap g a)) :: ringParts g fuel (a + ringGap g a) (bs.drop (ringGap g a))

/-- The parts of one write of the engine, all of them or none: their banks are taken together (R160), and they pass to the port as far as it
carries 64 bytes a cycle (R18). None where the write must wait. -/
def writeParts (p : Path) (h : Fin 16) (acc : Nat) (sys : Bool) (commit : Nat) (parts : List (Nat × List Byte)) (s : State) :
    Engine (Option State) :=
  if parts.all (fun e => windowOf e.1 == .spad) then
    let keys := parts.flatMap (fun e => keysAt e.1 e.2.length)
    if undoBlocked commit (granulePieces keys) s then .ok none
    else .ok ((takeBanks [] keys s).map (fun t => parts.foldl (fun t e => writeSpad commit e.1 e.2 t) t))
  else if 64 < portBytes s + (parts.map (fun e => e.2.length)).sum then .ok none
  else parts.foldl (fun (r : Engine (Option State)) e => match r with
    | .ok (some t) => engineSend p h .d acc sys commit e.1 e.2 t
    | r => r) (.ok (some s))

/-- A command's oldest piece is written: into the own bank, at its home, or toward the port. None where it must wait. -/
def writePiece (c : DCmd) (s : State) : Engine (Option (DCmd × State)) :=
  match c.buf with
  | [] => .ok none
  | bs :: rest =>
    let unit : Nat := match c.kind with | .copy .decode => fmtSize c.fd | .copy .addint => fmtSize c.fd | _ => 1
    let to' := dstAt c c.wrun (c.woff * unit)
    let va := ringMap c.dd to'
    let p := nextPlace c c.wrun c.woff (bs.length / unit)
    let c' := { c with wrun := p.1, woff := p.2, buf := rest, written := c.written + bs.length, waited := 0 }
    let done := fun (r : Engine (Option State)) => match r with
      | .error e => .error e
      | .ok none => .ok none
      | .ok (some t) => .ok (some (c', if c.silent then
          updOut (fun o => { o with port := o.port.map (fun e => if e.acc == c.id then { e with quiet := true } else e) }) t else t))
    match c.kind with
    | .copy .addint => done (addElem c to' bs s)
    | .copy m =>
      if bs.length = 4096 then
        (match engineKey .write va s with
         | .error e => .error e
         | .ok none => .ok none
         | .ok (some (key, t)) =>
           let r := if m = .clone then some (recAt t (blockOf (portKey (srcAt c c.wrun c.woff).toNat t))) else none
           done (.ok (some (sendEntry .d c.hd .d c.sys c.id c.commit (.block va key bs r) t))))
      else done (writeParts .d c.hd c.id c.sys c.commit (ringParts c.dd (bs.length + 1) to' bs) s)
    | _ => .ok none

/-! ### Who takes part in a collective (R277) -/

/-- The cores on other packages of the core's stage, as numbers from 768 up (R129). -/
def remoteCrew (s : State) : List Nat :=
  match s.seq.ctx, ctxLaunch s with
  | some c, some l => ((l.remote.filter (fun r => r.1 == c.stage)).map (·.2)).mergeSort (fun a b => decide (a ≤ b))
  | _, _ => []

/-- The cores that take part, in rank order: the crew of the core's stage, and at scope pod its cores on other packages. -/
def participants (s : State) (sc : Scope) : List Nat :=
  let crew := match ctxStage s with | some st => st.crew.mergeSort (fun a b => decide (a ≤ b)) | none => [pkgIndex s]
  match sc with
  | .pod =>
    let own := 768 * (s.id.package.toNat + 1)
    (remoteCrew s).filter (fun c => decide (c < own)) ++ crew ++ (remoteCrew s).filter (fun c => decide (own ≤ c))
  | _ => crew

/-- The rank of the core. -/
def rankOf (s : State) (sc : Scope) : Nat := (participants s sc).idxOf (pkgIndex s)

/-- The ranges that a participant's buffer is checked over: as a read, and as a write (R277). -/
def collRanges (k : CollKind) (isRoot : Bool) (p a n : Nat) : List (Nat × Nat) × List (Nat × Nat) :=
  match k with
  | .bcast => if isRoot then ([(a, n)], []) else ([], [(a, n)])
  | .gather => if isRoot then ([(a, n)], [(a + n, p * n)]) else ([(a, n)], [])
  | .scatter => if isRoot then ([(a + n, p * n)], [(a, n)]) else ([], [(a, n)])
  | .add => ([(a, n)], [(a, n)])

/-! ### The order of commands' writes (R267) -/

/-- The box that a command writes. -/
def cmdBox (s : State) (c : DCmd) : List (Nat × Nat) :=
  match c.kind with
  | .copy m => if c.len = 0 ∨ runCount c.nest = 0 then [] else boxRanges c.dd (nestBox (·.ds) c.nest c.dst (runBytes m c.fd c.len))
  | .coll k sc _ root n => (collRanges k (rankOf s sc == root) (participants s sc).length c.dst.toNat n).2
  | .snap => [(c.dst.toNat, c.len + 64)]
  | .tinv => []

/-- Whether a command still has writes that a later one's must follow: it is at work, or, for writes made at their home (R266, R278), what
it sent is not performed at the die coherence point. -/
def stillWrites (s : State) (home : Bool) (d : DCmd) : Bool :=
  match d.stage with
  | .held => false
  | .queued | .started => true
  | .moved => home && accLeft s d.id .die

/-- Whether an earlier command with an overlapping box has writes that this one's must follow (R93, R267). -/
def writeWaits (s : State) (c : DCmd) : Bool :=
  let home := match c.kind with | .copy .addint => true | .coll _ _ _ _ _ => true | _ => false
  s.cpy.cmds.any (fun d => decide (d.id < c.id) && stillWrites s home d &&
    (cmdBox s d).any (fun a => (cmdBox s c).any (fun b => decide (a.1 < b.1 + b.2) && decide (b.1 < a.1 + a.2))))

/-- Handles on which a command's counts stand. -/
def dropCounts (c : DCmd) (s : State) : State :=
  if c.silent then s
  else
    let s := match c.readCnt with | some (p, h) => cntReadDone p h s | none => s
    match c.writeCnt with | some (p, h) => accSettle p h c.id s | none => s

/-- The bound increment of an access that ended by a fault is dropped, at once or at its commit (R269). -/
def failInc (id : Nat) (s : State) : State :=
  let mine := fun (e : OutEntry) => match e.body with
    | .effect (.copyInc c _ _ _ _) => c == id
    | .effect (.scatterInc c _ _ _ _) => c == id
    | _ => false
  updOut (fun o => { o with pending := o.pending.filter (fun e => !mine e)
                            failed := if o.heldBack.any mine then o.failed ++ [id] else o.failed }) s

/-- A command ends by a fault (R270): what it read before is on its way. `guarded` is the guarded bit of the handle it met the fault
through (R308). A snapshot's page that is not written whole has its dirty mark again (R279). -/
def cmdFault (guarded : Bool) (c : DCmd) (e : BitVec 8 × Nat) (s : State) : State :=
  let s := updCpy (fun y => { y with cmds := y.cmds.filter (fun d => d.id != c.id) }) s
  let s := remark ((c.cleared.filter (fun p => decide (c.written < p.2.2))).map (·.1)) s
  engineFault .d guarded c.sys c.commit e (failInc c.id (dropCounts c s))

/-- A command as it stands after an action, its counts with it: the reads leave as the last is fixed, the writes as the last has been put
on its way (R267). -/
def keepCmd (wait : Nat) (c : DCmd) (s : State) : State :=
  let c := { c with due := s.pipe.wall + wait }
  let s := if c.readAll && c.link == 0 && !c.silent then (match c.readCnt with | some (p, h) => cntReadDone p h s | none => s) else s
  let c := if c.readAll then { c with link := 1 } else c
  let s := updCmd c.id (fun _ => { c with stage := if c.wroteAll then .moved else .started }) s
  if c.wroteAll && !c.silent then (match c.writeCnt with | some (p, h) => accSettle p h c.id s | none => s) else s

/-- A command that has lost a bank, or must wait for another reason, tries again in the next cycle (R161). -/
def lostBank (c : DCmd) (s : State) : State := updCmd c.id (fun d => { d with waited := d.waited + 1 }) s

/-- The oldest piece of a copy is written, where the port and the banks let it. -/
def writeStep (wait : Nat) (c : DCmd) (s : State) : State :=
  withToken (match c.kind with | .copy .addint => portKey (ringMap c.dd (dstAt c c.wrun (c.woff * fmtSize c.fd))) s | _ => 0) (fun t =>
    match writePiece c t with
    | .error e => cmdFault (hGuarded c.dd) c e t
    | .ok none => if isLocal (ringMap c.dd (dstAt c c.wrun 0)) then lostBank c t else t
    | .ok (some (c', u)) => keepCmd wait c' (useWrite (c'.written - c.written) u)) s

/-- One action of a copy: the next piece is read, or the oldest is written; which comes first is free. A read that meets a fault waits
until all that was read before it is on its way (R270). -/
def copyStep (c : DCmd) (s : State) : State :=
  let d := drawChoice s
  let w := drawWait d.2
  let mayRead := !c.readAll && readFree s
  let mayWrite := !c.buf.isEmpty && writeFree s && !writeWaits s c
  if c.wroteAll then keepCmd w.1 c w.2
  else if mayRead && (!mayWrite || d.1 % 2 == 0) then
    let a := ringMap c.ds (srcAt c c.rrun c.roff).toNat
    withToken (match c.kind with | .copy .fill => 0 | _ => portKey a s) (fun t =>
      match readPiece c t with
      | .error e => if c.buf.isEmpty then cmdFault (hGuarded c.ds) c e t else if mayWrite then writeStep w.1 c t else t
      | .ok none => if mayWrite then writeStep w.1 c t else lostBank c t
      | .ok (some (c', u)) => keepCmd w.1 c' (useRead (((c'.buf.getLast?).map (·.length)).getD 0) u)) w.2
  else if mayWrite then writeStep w.1 c w.2
  else s

/-! ### Snapshots (R279, R353) -/

/-- The header of a page's record, or of the end of the stream (R279). -/
def snapHeader (s : State) (va size : Nat) : List Byte :=
  leBytes 8 0x31504E53 ++ leBytes 8 va ++ leBytes 8 size ++ leBytes 8 s.seq.phase.toNat ++ List.replicate 32 0

/-- The dirty mark cleared at its home, and the page's translations dropped everywhere (R353). -/
def clearDirty (x : Xlat) (s : State) : State :=
  let w := (entryWords s x.leafAddr).1
  let t := setMem (memPutN s.mem x.leafAddr (leBytes 8 (if ptDirty w then w - 32 else w))) s
  updSys (fun m => { m with tlb := m.tlb.filter (fun y => !(y.va == x.va && y.size == x.size)) }) t

/-- Whether an entry writes into a range: a store, an atomic, a counter's increment, an add-int copy or a collective (R353). -/
def writesTo (s : State) (lo n : Nat) (e : OutEntry) : Bool :=
  let hit := fun (a k : Nat) => decide (a < lo + n) && decide (lo < a + k)
  match e.body with
  | .store va _ bs => hit va bs.length
  | .block va _ _ _ => hit va 4096
  | .unlock _ _ => false
  | .effect (.atomic a _ _ _ _ _ _) => hit a.toNat 8
  | .effect (.relh items _ _) => items.any (fun i => hit i.addr.toNat 8)
  | .effect (.copyInc _ a _ _ _) => hit a.toNat 8
  | .effect (.scatterInc _ a _ _ _) => hit a.toNat 8
  | .effect (.held c _ _) => (s.cpy.cmds.filter (fun d => d.id == c)).any (fun d => (cmdBox s d).any (fun b => hit b.1 b.2))
  | .effect _ => false

/-- Whether a committed write of the core to a range has not been performed at pkg. -/
def writesIn (s : State) (lo n : Nat) : Bool :=
  let hit := writesTo s lo n
  s.out.pending.any hit || s.out.port.any hit || s.out.paddock.any (fun e => hit e.entry) || s.out.leaving.any (fun e => hit e.entry)

/-- 64 bytes of the stream. -/
def snapWrite (c : DCmd) (bs : List Byte) (s : State) (k : DCmd → State → State) : State :=
  match engineWrite .d 15 .d c.id c.sys c.commit (c.dst.toNat + c.written) bs s with
  | .error e => cmdFault false c e s
  | .ok none => s
  | .ok (some t) => k { c with written := c.written + 64 } (useWrite 64 t)

/-- One action of a snapshot. `rrun` is what it does: 0 seeks a page, 1 waits for the writes translated before the drop, 2 copies the
page at `wrun` of `woff` bytes, 3 ends; `fill` tells whether it was cut short. A page's mark is cleared before its bytes are read, and set
again where they do not all reach the stream (R279, R353: assumption 89); it stays where an uncommitted effect of the core is bound for the page. -/
def snapStep (c : DCmd) (s : State) : State :=
  let w := drawWait s
  let s := w.2
  let keep := fun (c : DCmd) (t : State) => updCmd c.id (fun _ => { c with due := s.pipe.wall + w.1 }) t
  match c.rrun with
  | 0 =>
    if c.src.toNat + hExtent c.ds ≤ c.link then keep { c with rrun := 3 } s
    else (match walk s c.link with
      | .error _ => keep { c with link := c.link / 65536 * 65536 + 65536 } s
      | .ok x =>
        if ptFrozen x.w0.toNat then s
        else if !ptDirty x.w0.toNat then keep { c with link := x.va + x.size } s
        else if c.len < c.written + 64 + x.size then keep { c with rrun := 3, fill := 1 } s
        else
          let c := { c with rrun := 1, wrun := x.va, woff := x.size }
          if s.out.heldBack.any (writesTo s x.va x.size) then keep c s
          else keep { c with cleared := c.cleared ++ [(x.leafAddr, c.written, c.written + 64 + x.size)] } (clearDirty x s))
  | 1 =>
    if writesIn s c.wrun c.woff || !writeFree s || writeWaits s c then s
    else snapWrite c (snapHeader s c.wrun c.woff) s (fun c t => keep { c with rrun := 2, roff := 0 } t)
  | 2 =>
    if c.woff ≤ c.roff then keep { c with rrun := 0, link := c.wrun + c.woff } s
    else if !readFree s || !writeFree s || writeWaits s c then s
    else
      withToken (portKey (c.wrun + c.roff) s) (fun s => match engineRead .d c.hs (c.wrun + c.roff) 64 s with
       | .error e => cmdFault (hGuarded c.ds) c e s
       | .ok none => lostBank c s
       | .ok (some (bs, t)) => snapWrite c bs t (fun c t => keep { c with roff := c.roff + 64 } (useRead 64 t))) s
  | _ =>
    if !writeFree s || writeWaits s c then s
    else snapWrite c (snapHeader s 0 0) s (fun c t => updCmd c.id (fun _ => { c with stage := .moved }) t)

/-! ### Collectives (R277, R278) -/

/-- Whether the traffic of the core's tenant to a peer package is admitted (R393). -/
def admitted (s : State) (peer : Nat) : Bool :=
  match s.trust.peers.find? (fun p => p.peer == peer), ctxVf s with
  | some p, some v => !p.digest.isEmpty && v.allowed.contains p.digest
  | _, _ => false

/-- The package of a core number of another package. -/
def packageOf (core : Nat) : Nat := core / 768 - 1

/-- The packages to which a participant of a collective sends (R277). -/
def collPeers (k : CollKind) (s : State) (root : Nat) : List Nat :=
  let l := participants s .pod
  let me := rankOf s .pod
  let to' := match k with
    | .bcast | .scatter => if me = root then l else []
    | .gather => if me = root then [] else (l[root]?).toList
    | .add => l
  ((to'.filter (fun c => decide (768 ≤ c))).map packageOf).eraseDups

/-- The key of a tenant's traffic to a peer (R393). -/
def fabricKey (secret : List Byte) (tag dir : Nat) : List Byte :=
  shake256 32 (secret ++ [0x6C, 0x69, 0x6E, 0x6B] ++ leBytes 2 tag ++ leBytes 1 dir)

/-- n messages of a tenant to a peer: its key is derived at the tenant's first traffic, and the counts of the key and of the pair secret go
up (R393). -/
def sendMessages (tag dir n : Nat) (p : Peer) : Peer :=
  let k := (p.keys.find? (fun k => k.tag == tag && k.dir == dir)).getD ⟨tag, dir, fabricKey p.secret tag dir, 0⟩
  { p with sent := p.sent + n, keys := { k with count := k.count + n } :: p.keys.filter (fun k => !(k.tag == tag && k.dir == dir)) }

/-- Messages sent to peers under the tenant's keys (R393). -/
def countSent (peers : List Nat) (n : Nat) (s : State) : State :=
  updTrust (fun t => { t with peers := t.peers.map (fun p =>
    if peers.contains p.peer then sendMessages (ctxTag s) (one (decide (p.peer < s.id.package.toNat))) n p else p) }) s

/-- DCOLL at issue (R258, R277, R278). -/
def dcollBody (o : DK) (s : State) : Issued :=
  let w := wordOfInstr s (.dcoll o)
  let v := (readX s o.xn).toNat
  let n := bits v 0 32
  let a := (readX s o.xa).toNat
  let g := readH s o.h
  let f := resolveFmt s .page g a
  let bad := v / 2 ^ 61 != 0 || (o.kind == .add && match f with | some f => !addFmt f || n % fmtSize f != 0 | none => true)
  let p := (participants s o.scope).length
  let root := bits v 41 20
  let r := collRanges o.kind (rankOf s o.scope == root) p a n
  let wins := fun (x : Window) => x == Window.spad || x == Window.global
  let keep := fun (l : List (Nat × Nat)) => l.filter (fun e => decide (0 < e.2))
  firstHalt (dSources s [o.xa, o.xn] ++ [stallIf (hEmpty s o.h), stallIf (queueFull s), stallIf (cntReadFull s .c o.h),
      stallIf (cntWriteFull s .c o.h)])
    (if bad then .trap badOperand
     else checked .d (offPath <| (match checkAll o.h g 1 wins [1] .read (keep r.1) s with
         | .error e => (Except.error e : Except (Option (BitVec 8 × Nat)) State)
         | .ok t => checkAll o.h g 1 wins [1] .collWrite (keep r.2) t).map (fun u => (([] : List Xlat), u))) (fun _ t =>
       if !holdRoom s 1 true then .force
       else
         let c := DCmd.start t (.coll o.kind o.scope (bits v 32 9) root n) o.h o.h 0 (readX s o.xa) n .page (f.getD .page) .held w
         .ok (holdBack (.held c.id (readX s o.xa) n) .d o.h (cntWrite .c o.h (cntRead .c o.h (enqueue c t))))))

/-- Bytes of a range as a collective reads them, line by line; path C is not among those that R161 orders at the banks. -/
def readRange (p : Path) (h : Fin 16) : Nat → Nat → Nat → State → Engine (List Byte × State)
  | 0, _, _, s => .ok ([], s)
  | fuel + 1, a, n, s =>
    if n = 0 then .ok ([], s)
    else
      let k := min n (64 - a % 64)
      match engineReadOf (ownGranules s (keysAt a k)) p h a k s with
      | .error e => .error e
      | .ok none => .ok ([], s)
      | .ok (some (bs, t)) => match readRange p h fuel (a + k) (n - k) t with
        | .error e => .error e
        | .ok (cs, u) => .ok (bs ++ cs, u)

/-- The collective that a core's arrival belongs to: the first of its stage and scope in which it has not arrived (R277). -/
def collFor (s : State) (launch stage : Nat) (sc : Scope) (core : Nat) : Option Coll :=
  s.hub.colls.find? (fun c => c.launch == launch && c.stage == stage && c.scope == sc && !c.contributed.any (fun e => e.1 == core))

/-- A core's arrival with its contribution: the first arrival fixes the parameters, one that differs in its identifier, kind, size or root
makes the collective fail (R277). Gives the collective's number. -/
def arrive (launch stage : Nat) (sc : Scope) (id : Nat) (kind : CollKind) (n root core : Nat) (data : List Byte) (s : State) : Nat × State :=
  match collFor s launch stage sc core with
  | some c =>
    let same := c.id == id && c.kind == kind && c.n == n && c.root == root
    (c.no, updHub (fun h => { h with colls := h.colls.map (fun x => if x.no == c.no then
      { x with contributed := x.contributed ++ [(core, data)], failed := x.failed || !same } else x) }) s)
  | none =>
    (s.nextId, { updHub (fun h => { h with colls := h.colls ++ [⟨s.nextId, launch, stage, sc, id, kind, n, root, [(core, data)], false⟩] }) s
      with nextId := s.nextId + 1 })

/-- The contribution of rank r. -/
def contribution (s : State) (sc : Scope) (c : Coll) (r : Nat) : Option (List Byte) :=
  ((participants s sc)[r]?).bind (fun core => (c.contributed.find? (fun e => e.1 == core)).map (·.2))

/-- Whether every participant has arrived. -/
def allArrived (s : State) (sc : Scope) (c : Coll) : Bool := (participants s sc).all (fun core => c.contributed.any (fun e => e.1 == core))

/-- Element-wise wrapping sums (R277). -/
def addWise (w : Nat) : Nat → List Byte → List Byte → List Byte
  | 0, _, _ => []
  | n + 1, a, b => if a.isEmpty then [] else leBytes w (leNat (a.take w) + leNat (b.take w)) ++ addWise w n (a.drop w) (b.drop w)

/-- What a completed collective brings to this core: where and which bytes; none while a contribution is missing (R277). -/
def collResult (s : State) (sc : Scope) (d : DCmd) (c : Coll) : Option (List (Nat × List Byte)) :=
  let me := rankOf s sc
  let a := d.dst.toNat
  match c.kind with
  | .bcast => if me = c.root then some [] else (contribution s sc c c.root).map (fun b => [(a, b)])
  | .gather =>
    if me ≠ c.root then some []
    else if !allArrived s sc c then none
    else some ((List.range (participants s sc).length).map (fun r => (a + (r + 1) * c.n, (contribution s sc c r).getD [])))
  | .scatter => (contribution s sc c c.root).map (fun b => [(a, (b.drop (me * c.n)).take c.n)])
  | .add =>
    if !allArrived s sc c then none
    else
      let l := (List.range (participants s sc).length).map (fun r => (contribution s sc c r).getD [])
      some [(a, l.tail.foldl (fun x y => addWise (fmtSize d.fd) x.length x y) (l.headD []))]

/-- Received bytes are written at their place: no Paddock holds them, since the contribution left it (R278). -/
def receive (commit : Nat) : Nat → Nat → List Byte → State → Engine (Option State)
  | 0, _, _, s => .ok (some s)
  | fuel + 1, va, bs, s =>
    if bs.isEmpty then .ok (some s)
    else
      let k := min bs.length (64 - va % 64)
      match engineKey .collWrite va s with
      | .error e => .error e
      | .ok none => .ok none
      | .ok (some (key, t)) =>
        if key < Config.scratchBytes then receive commit fuel (va + k) (bs.drop k) (writeKept key (bs.take k) t)
        else match recordWrite va key k t with
          | none => .error (cIntegrity, va)
          | some u => receive commit fuel (va + k) (bs.drop k) (writeHome (some (.c, commit)) key (bs.take k) u)

/-- The contribution's parameters of a D command. -/
def collParams (c : DCmd) : Option (CollKind × Scope × Nat × Nat × Nat) :=
  match c.kind with | .coll k sc id root n => some (k, sc, id, root, n) | _ => none

/-- A DCOLL's entry has left the Paddock: the engine reads the contribution, each line of tier 0 once it has its token (`roff` counts them,
R363), and the core arrives (R278). -/
def execDcollContribution (n : Nat) (s : State) : Host.Outcome State Fault Refusal :=
  .next (match s.cpy.cmds.find? (fun c => c.id == n && c.stage == .started && c.link == 0 && decide (c.due ≤ s.pipe.wall) && readFree s) with
  | none => s
  | some c =>
    match collParams c with
    | none => s
    | some (k, sc, id, root, len) =>
      let a := c.dst.toNat
      let peers := if sc = .pod then collPeers k s root else []
      let src := (collRanges k (rankOf s sc == root) (participants s sc).length a len).1
      if peers.any (fun p => !admitted s p) then cmdFault false c (cPermission, a) s
      else match payLines (src.map (fun e => lineCost e.1 e.2 s)).sum c.roff s with
      | (false, p, t) => updCmd n (fun c => { c with roff := p }) t
      | (true, _, s) =>
      let r : Engine (List Byte × State) := match src with
        | (x, m) :: _ => readRange .c c.hs (m / 64 + 2) x m s
        | [] => .ok ([], s)
      match r with
      | .error e => cmdFault (hGuarded c.ds) c e s
      | .ok (bs, t) =>
        let t := useRead bs.length t
        let t := countSent peers (bs.length / 64 + 1) t
        let ls := (crewOf t (pkgIndex t)).getD (0, 0)
        let v := arrive ls.1 ls.2 sc id k len root (pkgIndex t) bs t
        let d := drawWait v.2
        updCmd n (fun c => { c with link := v.1 + 1, roff := 0, due := d.2.pipe.wall + d.1 }) d.2)

/-- A collective that every participant has reached is forgotten once this core has done with it. -/
def endColl (x : Coll) (s : State) : State :=
  if (x.contributed.length : Nat) < (participants s x.scope).length then s
  else updHub (fun h => { h with colls := h.colls.filter (fun y => y.no != x.no) }) s

/-- A collective completes at this core (R277, R278). It fails for every participant in a deferred BAD_DATA as soon as one has arrived with
parameters that differ, so nothing is written before all have arrived; then, after the free time in which what this core sends is
performed at the scope (`woff` tells that it runs), its bytes are written, with a token for each line of tier 0 (`roff`, R363), its counts leave and record 0x04 is posted. -/
def execDcollComplete (n : Nat) (s : State) : Host.Outcome State Fault Refusal :=
  .next (match s.cpy.cmds.find? (fun c => c.id == n && c.stage == .started && decide (0 < c.link) && decide (c.due ≤ s.pipe.wall)) with
  | none => s
  | some c =>
    match s.hub.colls.find? (fun x => x.no + 1 == c.link), collParams c with
    | some x, some (_, sc, id, _, _) =>
      if x.failed then endColl x (cmdFault false c (cBadData, 0) s)
      else if !allArrived s sc x then s
      else if c.woff = 0 then let d := drawWait s; updCmd n (fun c => { c with woff := 1, due := d.2.pipe.wall + d.1 }) d.2
      else if writeWaits s c || !writeFree s then s
      else (match collResult s sc c x with
        | none => s
        | some l =>
          match payLines (l.map (fun e => lineCost e.1 e.2.length s)).sum c.roff s with
          | (false, p, t) => updCmd n (fun c => { c with roff := p }) t
          | (true, _, s) =>
          let r := l.foldl (fun (r : Engine (Option State)) e => match r with
            | .ok (some t) => receive c.commit (e.2.length / 64 + 2) e.1 e.2 t
            | r => r) (.ok (some s))
          (match r with
           | .error e => endColl x (cmdFault false c e s)
           | .ok none => s
           | .ok (some t) =>
             let t := updCpy (fun y => { y with cmds := y.cmds.filter (fun d => d.id != n) }) (dropCounts c (useWrite (l.map (fun e => e.2.length)).sum t))
             postRecord (afterCmd c) (recordOf 4 c.hd id) (endColl x t)))
    | _, _ => s)

/-! ### Completion of copies, markers and snapshots -/

/-- Flags of an operation of a commit land here, and in the checkpoints that it precedes. -/
def lateFlags (commit : Nat) (v : BitVec 7) (s : State) : State :=
  setFlags commit v 0 (updRcv (fun r => { r with ckpts := r.ckpts.map (fun c =>
    if commit < c.commit then { c with seq := { c.seq with vflags := c.seq.vflags ||| v } } else c) }) s)

/-- An add-int copy or a DCOLL starts when its held-back entry leaves the Paddock: its accesses count from then on (R268). -/
def startHeld (n : Nat) (s : State) : State :=
  match s.cpy.cmds.find? (fun c => c.id == n && c.stage == .held) with
  | none => s
  | some c =>
    let s := updCmd n (fun c => { c with stage := .queued }) s
    match c.kind with
    | .copy _ => cntWrite .d c.hd (cntRead .d c.hs s)
    | _ => s

/-- The entry of an add-int copy leaves the Paddock (R268). -/
def execAddintCopyStart (n : Nat) (s : State) : Host.Outcome State Fault Refusal :=
  let mine := fun (e : Leaving) => match e.entry.body with | .effect (.held c _ _) => c == n | _ => false
  .next (if s.out.leaving.any mine then updOut (fun o => { o with leaving := o.leaving.filter (fun e => !mine e) }) (startHeld n s) else s)

/-- A copy completes (R267): every byte is performed at the default scope of its destination handle. A copy into a ring posts
record 0x01 (R271). -/
def execCopyComplete (n : Nat) (s : State) : Host.Outcome State Fault Refusal :=
  .next (match s.cpy.cmds.find? (fun c => c.id == n && c.stage == .moved) with
  | none => s
  | some c =>
    match c.kind with
    | .copy _ =>
      if accLeft s n (hScope c.dd) then s
      else
        let s := updCpy (fun y => { y with cmds := y.cmds.filter (fun d => d.id != n) }) s
        let s := lateFlags c.commit c.flags s
        if hKind c.dd = 4 && !c.silent then postRecord (afterCmd c) (recordOf 1 c.hd c.written) s else s
    | _ => s)

/-- DTINV completes once every earlier copy and stream is complete, and drops the translations that the core holds (R112). -/
def execDtinvComplete (n : Nat) (s : State) : Host.Outcome State Fault Refusal :=
  .next (match s.cpy.cmds.find? (fun c => c.id == n && c.kind == .tinv && c.stage == .started && decide (c.due ≤ s.pipe.wall)) with
  | none => s
  | some _ => updCpy (fun y => { y with cmds := y.cmds.filter (fun d => d.id != n) }) (updSys (fun m => { m with tlb := [] }) s))

/-- A snapshot completes and posts record 0x05 (R271, R279). -/
def execDsnapComplete (n : Nat) (s : State) : Host.Outcome State Fault Refusal :=
  .next (match s.cpy.cmds.find? (fun c => c.id == n && c.kind == .snap && c.stage == .moved) with
  | none => s
  | some c =>
    if accLeft s n .pkg then s
    else
      let s := updCpy (fun y => { y with cmds := y.cmds.filter (fun d => d.id != n) }) (dropCounts c s)
      postRecord (afterCmd c) (recordOf 5 c.hs ((if c.fill = 1 then 2 ^ 51 else 0) + c.written)) s)

/-! ### Gather and scatter (R273 to R275) -/

/-- One read of a stream's index list: what one line holds of the next 16 indices (R274). None where a bank is taken. -/
def readIndices (t : Stream) (s : State) : Engine (Option (List Nat × State)) :=
  let a := t.list + 4 * t.pos
  let n := min (4 * min 16 (t.count - t.pos)) (64 - a % 64)
  match engineRead .g t.ih a n s with
  | .error e => .error e
  | .ok none => .ok none
  | .ok (some (bs, u)) => .ok (some ((List.range (n / 4)).map (fun i => leNat ((bs.drop (4 * i)).take 4)), u))

/-- The address of an element, where all its bytes fit (R273). -/
def elemFits (t : Stream) (ix : Nat) : Option Nat :=
  let lo := if t.dh = 15 then 0 else regionLo t.ddesc t.parity (decide (2 ≤ t.queue.val))
  let hi := if t.dh = 15 then 2 ^ 57 else lo + hExtent t.ddesc
  if lo + ix * t.esz + t.esz ≤ hi then some (lo + ix * t.esz) else none

/-- The fill bytes of entry byte o onward (R273). -/
def streamFill (t : Stream) (o n : Nat) : List Byte := fillBytes t.fill o n

/-- The counts of a stream's reads follow the access that it has in flight (R274). -/
def moveReads (a b : Option (Fin 16)) (s : State) : State :=
  let s := match a with | some h => cntReadDone .g h s | none => s
  match b with | some h => cntRead .g h s | none => s

/-- A stream ends by a fault, met through a handle that is guarded or not (R275, R308). -/
def streamFault (gather guarded : Bool) (t : Stream) (e : BitVec 8 × Nat) (s : State) : State :=
  let s := moveReads t.reading none s
  let s := updCpy (fun y => if gather then { y with gather := none } else { y with scatter := none }) s
  engineFault .d guarded t.sys s.rcv.commits e (failInc t.id s)

/-- A stream after an action of it, for which it needs a free time. -/
def keepStream (gather : Bool) (wait : Nat) (t u : Stream) (s : State) : State :=
  let v := { u with due := s.pipe.wall + wait, waited := 0 }
  updCpy (fun y => if gather then { y with gather := some v } else { y with scatter := some v }) (moveReads t.reading v.reading s)

/-- A stream whose access has lost a bank waits for the next cycle (R161). -/
def lostTurn (gather : Bool) (s : State) : State :=
  let f := fun (o : Option Stream) => o.map (fun t => { t with waited := t.waited + 1 })
  updCpy (fun y => if gather then { y with gather := f y.gather } else { y with scatter := f y.scatter }) s

/-- Whether the entry that a gather assembles is whole. -/
def entryWhole (t : Stream) : Bool := decide (t.elems * t.esz ≤ t.bytes.length)

/-- The positions, with the addresses of their elements, that one access to the line of an address serves: among the next 16 of the entry
(R274). -/
def lineMates (t : Stream) (a : Nat) : List (Nat × Nat) :=
  ((t.line.take (min 16 (t.entry + t.elems - t.pos))).zipIdx.filterMap (fun e => (elemFits t e.1).map (fun x => (t.pos + e.2, x)))).filter
    (fun e => e.2 / 64 == a / 64)

/-- What a gather has at hand joins the entry: elements that a line access has served, and fill bytes for those that do not fit (R273). -/
def gatherTake : Nat → Stream → Stream
  | 0, t => t
  | n + 1, t =>
    if entryWhole t then t
    else match t.line with
      | [] => t
      | ix :: rest =>
        let next := fun (bs : List Byte) => { t with line := rest, pos := t.pos + 1, bytes := t.bytes ++ bs, got := t.got.filter (fun e => e.1 != t.pos) }
        match elemFits t ix with
        | none => gatherTake n (next (streamFill t t.bytes.length t.esz))
        | some _ => match t.got.find? (fun e => e.1 == t.pos) with
          | some e => gatherTake n (next e.2)
          | none => t

/-- One access of a gather to the line of an element: every element of it that the access serves (R274). -/
def gatherLine (t : Stream) (a : Nat) (s : State) : Engine (Option (Stream × State)) :=
  let mates := lineMates t a
  let base := a / 64 * 64
  let offs := (mates.flatMap (fun e => keysAt (e.2 - base) t.esz)).eraseDups
  match engineReadAt [] .g t.dh base offs s with
  | .error e => .error e
  | .ok none => .ok none
  | .ok (some (bs, u)) =>
    let byteOf := fun (o : Nat) => ((bs[offs.idxOf o]?).getD 0)
    .ok (some ({ t with got := t.got ++ mates.map (fun e => (e.1, (keysAt (e.2 - base) t.esz).map byteOf)) }, u))

/-- One action of a gather (R273): an index line, a line of elements, or fill bytes past the list's end. -/
def gatherStep (s : State) : State :=
  match s.cpy.gather with
  | none => s
  | some t =>
    if entryWhole t || t.count == 0 || s.pipe.wall < t.due || (pausing s && t.bytes.isEmpty && t.got.isEmpty) || tinvBefore s t.id then s
    else
      let w := drawWait s
      let keep := fun (u : Stream) (x : State) => keepStream true w.1 t { u with open' := !entryWhole u } x
      let v := gatherTake t.line.length t
      if v.pos != t.pos then keep v w.2
      else if t.line.isEmpty && decide (t.count ≤ t.pos) then
        keep { t with bytes := t.bytes ++ streamFill t t.bytes.length (t.elems * t.esz - t.bytes.length) } w.2
      else if !readFree s then s
      else match t.line with
      | [] =>
        withToken (portKey (t.list + 4 * t.pos) s) (fun x => match readIndices t x with
          | .error e => streamFault true (hGuarded t.idesc) t e x
          | .ok none => lostTurn true x
          | .ok (some (l, x)) => keep { t with line := l } (useRead 64 x)) w.2
      | ix :: _ =>
        let a := (elemFits t ix).getD 0
        withToken (portKey a s) (fun x => match gatherLine t a x with
          | .error e => streamFault true (hGuarded t.ddesc) t e x
          | .ok none => lostTurn true x
          | .ok (some (u, x)) => keep (gatherTake u.line.length u) (useRead 64 x)) w.2

/-- A whole entry enters its queue when there is room; the last one ends the stream with record 0x02 (R273). -/
def execGatherEntryDeliver (s : State) : Host.Outcome State Fault Refusal :=
  .next (match s.cpy.gather with
  | none => s
  | some t =>
    if t.count = 0 then
      updCpy (fun y => { y with gather := none }) (postRecord afterStream (recordOf 2 t.dh 0) s)
    else if entryWhole t && decide ((readQ s t.queue).length < 4) then
      let e : QEntry := ⟨t.elems * t.esz, BitVec.ofNat 16384 (leNat t.bytes)⟩
      if undoBlocked s.rcv.commits (queuePieces t.queue.val ((s.regs.qix.get t.queue).val + (readQ s t.queue).length) e.len) s then s
      else
        let s := pushQ s.rcv.commits t.queue e s
        if t.count ≤ t.pos then
          updCpy (fun y => { y with gather := none }) (postRecord afterStream (recordOf 2 t.dh (t.taken + 1)) s)
        else
          let u := { t with bytes := [], entry := t.pos, taken := t.taken + 1, open' := !pausing s, line := if pausing s then [] else t.line
                            got := if pausing s then [] else t.got }
          updCpy (fun y => { y with gather := some u }) (moveReads t.reading u.reading s)
    else s)

/-- A scatter takes an entry (R273): its bytes past its length read 0. -/
def execScatterEntryTake (s : State) : Host.Outcome State Fault Refusal :=
  .next (match s.cpy.scatter with
  | none => s
  | some t =>
    match readQ s t.queue with
    | e :: _ =>
      if t.open' || decide (t.count ≤ t.pos) || pausing s || tinvBefore s t.id || undoBlocked s.rcv.commits (headPieces t.queue s) s then s
      else
        let u := { t with open' := true, entry := t.pos, taken := t.taken + 1, bytes := regBytes e.bytes.toNat 0 (t.elems * t.esz) }
        updCpy (fun y => { y with scatter := some u }) (moveReads t.reading u.reading (popQ s.rcv.commits t.queue s))
    | [] => s)

/-- What a scatter has done with joins its progress: elements that a line access has served, and those that do not fit, each of which is
dropped (R273). -/
def scatterTake : Nat → Stream → Stream
  | 0, t => t
  | n + 1, t =>
    if t.entry + t.elems ≤ t.pos then t
    else match t.line with
      | [] => t
      | ix :: rest =>
        let u := { t with line := rest, pos := t.pos + 1, bytes := t.bytes.drop t.esz, got := t.got.filter (fun e => e.1 != t.pos) }
        match elemFits t ix with
        | none => scatterTake n { u with dropped := t.dropped + 1 }
        | some _ => if t.got.any (fun e => e.1 == t.pos) then scatterTake n { u with written := t.written + t.esz } else t

/-- Cells of one line as contiguous parts, ascending. -/
def partsOf : List Host.Cell → List (Nat × List Byte)
  | [] => []
  | c :: r => match partsOf r with
    | [] => [(c.1, [c.2])]
    | p :: q => if c.1 + 1 = p.1 then (c.1, c.2 :: p.2) :: q else (c.1, [c.2]) :: p :: q

/-- The parts of the line that one access of a scatter writes: of an index that comes again the later position wins (R273, R274). -/
def scatterParts (t : Stream) (a : Nat) : List (Nat × List Byte) :=
  let cells := (lineMates t a).flatMap (fun e => (keysAt e.2 t.esz).zip ((t.bytes.drop ((e.1 - t.pos) * t.esz)).take t.esz))
  partsOf ((keysAt (a / 64 * 64) 64).filterMap (fun k => (cells.filter (fun c => c.1 == k)).getLast?))

/-- One action of a scatter with an entry taken: an index line, or a line's elements written (R273, R274). Each contiguous part of a line
counts by itself: DESIGN CHOICE (90). -/
def scatterStep (s : State) : State :=
  match s.cpy.scatter with
  | none => s
  | some t =>
    if !t.open' || s.pipe.wall < t.due || tinvBefore s t.id then s
    else
      let w := drawWait s
      let keep := fun (u : Stream) (x : State) =>
        keepStream false w.1 t { u with open' := decide (u.pos < u.count) && decide (u.pos < u.entry + u.elems) } x
      let v := scatterTake t.line.length t
      if v.pos != t.pos then keep v w.2
      else match t.line with
      | [] =>
        if !readFree s then s
        else withToken (portKey (t.list + 4 * t.pos) s) (fun x => match readIndices t x with
          | .error e => streamFault false (hGuarded t.idesc) t e x
          | .ok none => lostTurn false x
          | .ok (some (l, x)) => keep { t with line := l } (useRead 64 x)) w.2
      | ix :: _ =>
        if !writeFree s || cntWriteFull s .g t.dh then s
        else
          let a := (elemFits t ix).getD 0
          let parts := scatterParts t a
          match writeParts .g t.dh t.id t.sys s.rcv.commits parts w.2 with
          | .error e => streamFault false (hGuarded t.ddesc) t e w.2
          | .ok none => if isLocal a then lostTurn false w.2 else w.2
          | .ok (some x) =>
            let x := if isLocal a then x else parts.foldl (fun x _ => cntWrite .g t.dh x) x
            let u := { t with got := t.got ++ (lineMates t a).map (fun e => (e.1, [])) }
            keep (scatterTake u.line.length u) (useWrite 64 x)

/-- A scatter completes when its last write is performed at the default scope of its data handle, and posts record 0x03 (R273,
R275). -/
def execScatterComplete (s : State) : Host.Outcome State Fault Refusal :=
  .next (match s.cpy.scatter with
  | none => s
  | some t =>
    if t.open' || decide (t.pos < t.count) || accLeft s t.id (hScope t.ddesc) then s
    else
      let fix := fun (e : OutEntry) => match e.body with
        | .effect (.scatterInc c a k _ sc) => if c == t.id then { e with body := .effect (.scatterInc c a k t.written sc) } else e
        | _ => e
      let s := mapHeld fix s
      updCpy (fun y => { y with scatter := none })
        (postRecord afterStream (recordOf 3 t.dh (min t.dropped (2 ^ 20 - 1) * 2 ^ 32 + t.taken % 2 ^ 32)) s))

/-- Before a save the gather stops at an entry boundary: an entry that finds no room is discarded, and the position is that
entry's first (R281). -/
def pauseGather (s : State) : State :=
  match s.cpy.gather with
  | none => s
  | some t =>
    if pausing s && t.open' && (t.bytes.isEmpty || (entryWhole t && (readQ s t.queue).length == 4)) then
      let u := { t with pos := t.entry, bytes := [], line := [], got := [], open' := false }
      updCpy (fun y => { y with gather := some u }) (moveReads t.reading u.reading s)
    else s

/-! ### The engine's part of a wall cycle -/

/-- The commands that can act now. -/
def readyCmds (s : State) : List DCmd :=
  s.cpy.cmds.filter (fun c => c.stage == .started && decide (c.due ≤ s.pipe.wall) && (match c.kind with | .copy _ | .snap => true | _ => false))

/-- A command's action. -/
def actCmd (c : DCmd) (s : State) : State := match c.kind with | .copy _ => copyStep c s | _ => snapStep c s

/-- A started command acts; which of those that are ready is free. -/
def cmdStep (s : State) : State :=
  let ready := readyCmds s
  if ready.isEmpty then s
  else
    let d := drawChoice s
    match ready[d.1 % ready.length]? with
    | none => s
    | some c => actCmd c d.2

/-! ### The words -/

/-- DLVL (R259). -/
def execDlvl (lvl : Fin 6) (xc xss xsd : Fin 32) (s : State) : Host.Outcome State Fault Refusal := issue .d (dlvlBody lvl xc xss xsd) s

/-- DCOPY copy (R261, R264). -/
def execDcopyCopy (o : DC) (s : State) : Host.Outcome State Fault Refusal := issue .d (copyBody .copy (.dcopyCopy o) o) s

/-- DCOPY fill (R261, R264). -/
def execDcopyFill (o : DC) (s : State) : Host.Outcome State Fault Refusal := issue .d (copyBody .fill (.dcopyFill o) o) s

/-- DCOPY decode (R261, R265). -/
def execDcopyDecode (o : DC) (s : State) : Host.Outcome State Fault Refusal := issue .d (copyBody .decode (.dcopyDecode o) o) s

/-- DCOPY add-int (R266, R268). -/
def execDcopyAddint (o : DC) (s : State) : Host.Outcome State Fault Refusal := issue .d (copyBody .addint (.dcopyAddint o) o) s

/-- DCOPY clone (R264, R354). -/
def execDcopyClone (o : DC) (s : State) : Host.Outcome State Fault Refusal := issue .d (copyBody .clone (.dcopyClone o) o) s

/-- DPAD (R263). -/
def execDpad (xv : Fin 32) (s : State) : Host.Outcome State Fault Refusal := issue .d (dpadBody xv) s

/-- DGCFG (R272). -/
def execDgcfg (hs hd : Fin 16) (xc : Fin 32) (s : State) : Host.Outcome State Fault Refusal := issue .d (dgcfgBody hs hd xc) s

/-- DGIDX (R273). -/
def execDgidx (o : DI) (s : State) : Host.Outcome State Fault Refusal := issue .d (streamBody true o) s

/-- DSIDX (R273, R275). -/
def execDsidx (o : DI) (s : State) : Host.Outcome State Fault Refusal := issue .d (streamBody false o) s

/-- DTINV (R112, R276). -/
def execDtinv (s : State) : Host.Outcome State Fault Refusal := issue .d dtinvBody s

/-- DCOLL (R277). -/
def execDcoll (o : DK) (s : State) : Host.Outcome State Fault Refusal := issue .d (dcollBody o) s

/-- DSNAP (R279). -/
def execDsnap (o : DI) (s : State) : Host.Outcome State Fault Refusal := issue .d (dsnapBody o) s

end Sys2Proof.Machine
end

