-- ==== Sys2Proof/Machine/Fetch.lean ====
section
/-! DEFINITION. Fetching a unit (R24 to R30), the checks of a bundle at issue (R44, R45, R43), and issuing a token (R27). -/

namespace Sys2Proof.Machine

open Sys2Proof

/-! ### Destinations (R45) -/

/-- What a slot names as a destination (R45). -/
inductive Res where
  | x (n : Fin 32) | v (n : Fin 32) | p (n : Fin 48) | h (n : Fin 16) | k (n : Fin 8) | z (n : Fin 2) | w (n : Fin 2)
  | queue (n : Fin 4)
  | csr (n : BitVec 12)
  deriving DecidableEq, Repr

/-- The queue that an operand pops (R184). -/
def resQ (q : Bool) (vs2 : Fin 32) : List Res := if q then [.queue (Fin.ofNat 4 vs2.val)] else []

/-- A V1 word with dup = 1 names no destination (R43). -/
def isDup (e : VEng) (dup : Bool) : Bool := e == .v1 && dup

/-- The destinations of a V3R word. -/
def resV3R (e : VEng) (o : V3R) : List Res := if isDup e o.dup then [] else .v o.vd :: resQ o.q o.vs2

/-- The destinations of an operation; one that writes no register, queue or CSR has none. -/
def resources (i : Instr) : List Res :=
  match i with
  | .jalr o | .lb o | .lh o | .lw o | .ld o | .lbu o | .lhu o | .lwu o | .addi o | .slti o | .sltiu o | .xori o
  | .ori o | .andi o | .slli o | .srli o | .srai o | .addiw o | .slliw o | .srliw o | .sraiw o | .add o | .sub o
  | .sll o | .slt o | .sltu o | .xor o | .srl o | .sra o | .or o | .and o | .mul o | .mulh o | .mulhsu o | .mulhu o
  | .div o | .divu o | .rem o | .remu o | .addw o | .subw o | .sllw o | .srlw o | .sraw o | .mulw o | .divw o
  | .divuw o | .remw o | .remuw o | .ldl o | .amoaddW o | .amoaddD o | .amoandW o | .amoandD o | .amoorW o | .amoorD o
  | .amoxorW o | .amoxorD o | .amominW o | .amominD o | .amomaxW o | .amomaxD o | .amominnW o | .amominnD o
  | .amomaxnW o | .amomaxnD o | .amoswapW o | .amoswapD o | .casW o | .casD o => [.x o.rd]
  | .vadd e o | .vsub e o | .vaddsI e o | .vaddsN e o | .vsubsI e o | .vsubsN e o | .vmul e o | .vmulhI e o
  | .vmulhN e o | .vminI e o | .vminN e o | .vmaxI e o | .vmaxN e o | .vsll e o | .vsrl e o | .vsra e o | .vand e o
  | .vor e o | .vxor e o | .vandn e o | .vsel e o | .vfadd e o | .vfsub e o | .vfmul e o | .vfma e o | .vfms e o
  | .vfnma e o | .vfmin e o | .vfmax e o | .vbfadd e o | .vbfsub e o | .vbfmul e o | .vbfma e o | .vbfms e o
  | .vbfnma e o | .vbfmin e o | .vbfmax e o | .vpack e o => resV3R e o
  | .vabs e o | .vnot e o | .vredI e o | .vredN e o | .vredF e o | .vredBf e o | .vmov e o => if isDup e o.dup then [] else [.v o.vd]
  | .vcmpI _ o | .vcmpN _ o | .vcmpF _ o | .vcmpBf _ o | .pand _ o | .por _ o | .pxor _ o => [.p o.pd]
  | .exp2 o | .log2 o | .rcp o | .rsqrt o | .sqrt o | .tanh o | .vtrn o | .vld o | .vldb o | .vldx o | .vlds o => [.v o.vd]
  | .fDiv o | .wupd o | .wmrg o | .wfin o | .bnet o | .bmm8 o | .pdep o | .pext o | .bperm o => .v o.vd :: resQ o.q o.vs2
  | .lui rd _ | .auipc rd _ | .jal rd _ | .qfeat rd _ | .evpop rd | .nextitem rd | .kgen rd | .krot rd _ | .seal rd _
  | .unseal rd _ | .scrub rd _ | .mclrchk rd _ => [.x rd]
  | .csrrw rd _ n | .csrrwi rd _ n => [.x rd, .csr n]
  | .csrrs rd rs1 n | .csrrc rd rs1 n => .x rd :: (if rs1 = 0 then [] else [.csr n])
  | .csrrsi rd u n | .csrrci rd u n => .x rd :: (if u = 0 then [] else [.csr n])
  | .sld o => [.x o.vd]
  | .vpush _ q _ => [.queue q]
  | .hset h _ | .hclr h => [.h h]
  | .hget _ xd _ | .pcount _ xd _ | .mstat xd _ | .krd xd _ => [.x xd]
  | .vbcast _ vd _ | .vbcx _ vd _ | .vunp3 _ vd _ _ _ _ => [.v vd]
  | .vcvt _ o => .v o.vd :: (if isBlock o.fout then [.v (companion o.vd)] else [])
  | .vsetshape _ _ => [.csr 0x800]
  | .pnot _ pd _ | .pset _ pd _ => [.p pd]
  | .mma o | .mret o => [.z o.z]
  | .mzero z => [.z z]
  | .mwld o | .mwstrm o => [.w o.w]
  | .mwswap => [.w 0, .w 1]
  | .kalu _ kd _ _ => [.k kd]
  | _ => []

/-! ### Fetch -/

/-- What fetch finds at the program counter: a bundle of eight words, a token that is not yet issuing, a padding token, an
address inside a full bundle, or an address past the code store (R25, R27, R29). -/
inductive Fetched where
  | bundle (g : Granule)
  | token (t : Nat)
  | padding
  | inside
  | pastEnd

/-- The token at a byte offset. -/
def tokenAt (s : State) (pc : Nat) : Nat := bits (granuleAt s pc).toNat (16 * (pc % 32 / 2)) 16

/-- Whether a V1 word of the V3R form asks for duplicate execution (R43): it has its own destinations without the mark, none with it. -/
def dupWord (w : Nat) : Bool :=
  flag w 0 && (match decodeV .v1 w with
    | some i => (match resources i, decodeV .v1 (w - 1) with
      | [], some j => !(resources j).isEmpty
      | _, _ => false)
    | none => false)

/-- The slot class of a record (R58). -/
def recordSlot (n : Nat) : Option Slot :=
  match n with
  | 0 => some .s | 1 => some .l | 2 => some .v0 | 3 => some .f | 4 => some .m | 5 => some .d | 6 => some .k | _ => none

/-- The full bundle that does what a Ubrov record does (R58, R59): its word in its slot, NOPs in the others, its yield mark, and for a
checked V record the duplicate in V1. -/
def recordGranule (r : Word) : Granule :=
  let w := bits r.toNat 0 32
  let sl := (recordSlot (bits r.toNat 61 3)).getD .s
  let head := (if sl = .s then w else 0x13) - (if flag r.toNat 56 then 2 else 0)
  let dup := if sl = .v0 ∧ flag r.toNat 57 ∧ dupWord (w + 1) then (w + 1) * 2 ^ 96 else 0
  BitVec.ofNat 256 (head + (if sl = .s then 0 else w * 2 ^ (32 * slotNo sl)) + dup)

/-- What the core fetches: the dictionary entry of the token that is issuing, the record at the pc (R59), or what stands there in the code
store. An odd pc, which only a handler's write of `tpc` makes, counts as inside a unit. -/
def fetch (s : State) : Fetched :=
  match s.seq.token, records s with
  | some u, _ => .bundle (s.dict.get u.index)
  | none, some l =>
    if s.seq.pc % 2 = 1 then .inside
    else match l[s.seq.pc / 2]? with
      | some r => .bundle (recordGranule r)
      | none => .pastEnd
  | none, none =>
    if Config.codeBytes ≤ s.seq.pc then .pastEnd
    else if isFull s s.seq.pc then (if s.seq.pc % 32 = 0 then .bundle (granuleAt s s.seq.pc) else .inside)
    else if s.seq.pc % 2 = 1 then .inside
    else if tokenAt s s.seq.pc = 0 then .padding
    else .token (tokenAt s s.seq.pc)

/-- TOKEN (R27): the token's entry is the unit that issues, from its first repetition or, after TRET, the next one (R30); padding
issues nothing. Neither takes a cycle. -/
def execToken (rep : Fin 32) (index : Fin 512) (mark : Bool) (s : State) : Host.Outcome State Fault Refusal :=
  .next (if rep = 0 ∧ index = 0 ∧ mark = false then updSeq (fun q => { q with pc := nextFetch s q.pc, reps := 0 }) s
    else updSeq (fun q => { q with token := some ⟨index, rep, mark⟩ }) s)

/-- A token whose kind bit is 1 (R27): ILLEGAL_BUNDLE as a fetch failure, with the token in `tval` (R44). -/
def execIllegalToken (tok : BitVec 16) (s : State) : Host.Outcome State Fault Refusal :=
  .next (trapCycle ⟨cIllegalBundle, tvalIssue 0 0 0 tok.toNat, false⟩ s)

/-- An address inside a full bundle (R29, R44): ILLEGAL_BUNDLE as a fetch failure. -/
def insideTrap (s : State) : State := trapCycle ⟨cIllegalBundle, 0, false⟩ s

/-- Fetch past the code store (R29): TRANSLATION. -/
def pastEndTrap (s : State) : State := trapCycle (trapAt cTranslation .s s.seq.pc) s

/-! ### The words of a bundle -/

/-- The slots in ascending order (R12). -/
def allSlots : List Slot := [.s, .l, .v0, .v1, .f, .m, .d, .k]

/-- The operations of a bundle, in slot order. -/
def bundleOps (g : Granule) : List (Slot × Instr) := allSlots.map (fun sl => (sl, decodeWord sl (slotWord g (slotNo sl))))

/-- A CSR instruction's register and whether it writes it (R119). -/
def csrOf (i : Instr) : Option (Nat × Bool) :=
  match i with
  | .csrrw _ _ n => some (n.toNat, true)
  | .csrrwi _ _ n => some (n.toNat, true)
  | .csrrs _ r n => some (n.toNat, decide (r ≠ 0))
  | .csrrc _ r n => some (n.toNat, decide (r ≠ 0))
  | .csrrsi _ u n => some (n.toNat, decide (u ≠ 0))
  | .csrrci _ u n => some (n.toNat, decide (u ≠ 0))
  | _ => none

/-- A system-level operation (R33, R258). -/
def isSystemOp (i : Instr) : Bool :=
  match i with
  | .tret | .ctxsave _ | .ctxload _ | .dtinv | .dsnap _ => true
  | _ => false

/-- Whether a slot's word fails the decode step at a level (R44, check 1): no operation, a system-level operation at
program level (R31), or a CSR that the level does not have (R119). -/
def decodeFails (sys : Bool) (i : Instr) : Bool :=
  match i with
  | .unassignedOpcode _ _ => true
  | i => (isSystemOp i && !sys) || (match csrOf i with | some (n, w) => csrIllegal n w sys | none => false)

@[inherit_doc decodeFails]
def decodeBad (s : State) (i : Instr) : Bool := decodeFails (atSystem s) i

/-! ### Collisions (R45) -/

/-- The destinations that can collide: x0 never does (R45). -/
def clashing (i : Instr) : List Res := (resources i).filter (fun r => r != .x 0)

/-- The first pair of slots, in ascending order, that name one destination (R45). -/
def collision : List (Slot × Instr) → Option (Slot × Slot)
  | [] => none
  | a :: r =>
    match r.find? (fun b => (clashing a.2).any (fun x => (clashing b.2).contains x)) with
    | some b => some (a.1, b.1)
    | none => collision r

/-- Whether the duplicate rule fails (R43): V1 asks for it and V0 holds another word, or a NOP. -/
def dupBadPair (g : Granule) : Bool :=
  let w1 := slotWord g 3
  dupWord w1 && (slotWord g 2 != w1 - 1 || slotWord g 2 == 0)

/-- The first failure of a bundle's checks (R44): decode in slot order, then collisions, then the duplicate rule. -/
def bundleTrap (s : State) (g : Granule) : Option Trap :=
  let ops := bundleOps g
  match ops.find? (fun o => decodeBad s o.2) with
  | some o => some ⟨cIllegalOp, tvalIssue 1 (slotNo o.1) 0 (slotWord g (slotNo o.1)), false⟩
  | none => match collision ops with
    | some (a, b) => some ⟨cIllegalBundle, tvalIssue 2 (slotNo a) (slotNo b) (slotWord g (slotNo a)), false⟩
    | none => if dupBadPair g then some ⟨cIllegalBundle, tvalIssue 3 3 2 (slotWord g 3), false⟩ else none

end Sys2Proof.Machine
end

