-- ==== Sys2Proof/Machine/Matrix.lean ====
section
/-! DEFINITION. The matrix engine of slot M (R223 to R253): its words at issue, what its units do in each wall cycle, and the
completion of its operations. -/

namespace Sys2Proof.Machine

open Sys2Proof

/-! ### Buffers and tiles (R223 to R226) -/

/-- The `mflags` bits (R138). -/
def mSat : BitVec 3 := 1
def mExpovf : BitVec 3 := 2
def mRinexact : BitVec 3 := 4

/-- A pack factor as a number, the width of its slots, and its code (R224, R248). -/
def packNo (p : Pack) : Nat := match p with | .one => 1 | .two => 2 | .five => 5
def packBits (p : Pack) : Nat := match p with | .one => 10 | .two => 5 | .five => 2
def packField (p : Pack) : Nat := match p with | .one => 0 | .two => 1 | .five => 2

/-- Columns of a buffer (R224). -/
def bufCols (b : WBuf) : Nat := 128 * packNo b.pack

/-- The physical buffer that a name designates now (R226). -/
def physBuf (s : State) (w : Fin 2) : Fin 2 := if s.mat.map then 1 - w else w

/-- The weight in row k, column n of a buffer (R224). -/
def weight (b : WBuf) (k : Fin 256) (n : Nat) : Int :=
  let p := packNo b.pack
  let w := packBits b.pack
  signExt (bits (b.cells.get k).toNat (10 * (n / p) + w * (n % p)) w) w

/-- The exponent of group g, column n; the store has 256 columns (R224). -/
def groupExp (b : WBuf) (g : Fin 8) (n : Nat) : Int := if n < 256 then signExt (bits (b.exps.get g).toNat (8 * n) 8) 8 else 0

/-- Entry (i, n) of a tile of C columns; a clear one reads 0 (R225). -/
def tileEntry (t : Tile) (c i n : Nat) : BitVec 32 := (t.entries[i * c + n]?).getD 0

/-- A buffer changed in the engine. -/
def updBuf (i : Fin 2) (f : WBuf → WBuf) (m : Mat) : Mat := { m with bufs := m.bufs.set i.val (f (m.bufs.get i)) }

/-- A tile changed in the engine. -/
def updTile (z : Fin 2) (f : Tile → Tile) (m : Mat) : Mat := { m with tiles := m.tiles.set z.val (f (m.tiles.get z)) }

/-- Shadow numbers of a tile and of a physical buffer. -/
def tileShadow (z : Fin 2) : Fin 4 := Fin.ofNat 4 z.val
def bufShadow (b : Fin 2) : Fin 4 := Fin.ofNat 4 (2 + b.val)

/-- A tile is empty (R228). -/
def tileBusy (s : State) (z : Fin 2) : Bool := (s.mat.tiles.get z).busy

/-- A physical buffer is being loaded (R228). -/
def bufLoading (s : State) (b : Fin 2) : Bool := match s.mat.load with | some l => l.buf == b | none => false

/-- A physical buffer is read by an MMA that has not completed (R228). -/
def bufRead (s : State) (b : Fin 2) : Bool := match s.mat.mma with | some m => m.buf == b | none => false

/-! ### MMA (R231, R239 to R243) -/

/-- A mode's scale bytes follow the planes (R231). -/
def scaled' (m : MMode) : Bool := match m with | .block | .f4x => true | _ => false

/-- The shape rule of a mode (R240): whether a pack is allowed, and whether the tile is FP32. -/
def modePack (m : MMode) (p : Pack) : Bool := match m with | .t3 => p == .five | _ => p != .five

/-- Whether an MMA disagrees with the buffer or the tile (R240). -/
def mmaBad (t : Tile) (b : WBuf) (m : MMode) (rows : Nat) (acc : Bool) : Bool :=
  !modePack m b.pack || (acc && match t.shape with
    | some sh => sh != (rows, bufCols b, scaled' m)
    | none => false)

/-- MMA at issue (R229, R239, R240): the tile takes its shape and becomes empty; the array begins. -/
def mmaBody (o : MM) (s : State) : Issued :=
  let w := wordOfInstr s (.mma o)
  let b := physBuf s o.w
  let rows := o.rows.val + 1
  let planes := o.planes.val + 1
  let t := s.mat.tiles.get o.z
  let n := rows * planes * 32 + (if scaled' o.mode then 8 * rows else 0)
  firstHalt [stallIf t.busy, stallIf s.mat.mma.isSome, stallIf (bufLoading s b), stallIf (shadowFull (tileShadow o.z) s),
      stallIf (cntReadFull s .m o.h), recordHalt s 2, stallIf (hEmpty s o.h), xSource s .m w o.wt o.xa]
    (if mmaBad t (s.mat.bufs.get b) o.mode rows o.acc then .trap (trapWord cIllegalShape .m w)
     else
       let ea := (readX s o.xa).toNat
       checked .m (offPath (checkRange s o.h (readH s o.h) 32 winLocal kindsVec .read ea n)) (fun _ u =>
         let u := takeShadow (tileShadow o.z) (cntRead .m o.h u)
         let op : MmaOp := ⟨u.nextId, o.z, b, ea, o.h, rows, planes, o.mode, o.acc && t.shape.isSome, [], [], s.pipe.wall + 1, 0,
           s.pipe.issue, s.rcv.commits, atSystem s⟩
         .ok { updMat (fun m => { updTile o.z (fun t =>
           { t with shape := some (rows, bufCols (s.mat.bufs.get b), scaled' o.mode), busy := true }) m with mma := some op }) u
           with nextId := u.nextId + 1 }))

/-- Element k of activation row i from its planes (R231). -/
def activation (op : MmaOp) (i k : Nat) : Int :=
  signExt ((List.range op.planes).foldr (fun j r =>
    one (((op.read[i * op.planes + j]?).getD 0).getLsbD k) + 2 * r) 0) op.planes

/-- The scale byte of row i, group g. -/
def scaleByte (op : MmaOp) (i g : Nat) : Nat := ((((op.scales[i]?).getD [])[g]?).getD 0).toNat

/-- The sum of a group's products for row i, column n (R83). -/
def groupSum (op : MmaOp) (b : WBuf) (i g n : Nat) : Int :=
  ((List.range 32).map (fun j => activation op i (32 * g + j) * weight b (Fin.ofNat 256 (32 * g + j)) n)).sum

/-- One group of a block pass onto an FP32 entry (R83): its new code, and whether a finite entry became infinite. DESIGN CHOICE (77): a T
beyond the range of FP32 stays the finite value that the exact scaling gives, so an infinite entry stays as it is and never becomes a
NaN. -/
def addGroup (e : Int) (sum : Int) (acc : BitVec 32) : BitVec 32 × Bool :=
  let r := nearF f32 (decide (sum < 0)) sum.natAbs 0
  let t := match decodeF f32 r.1 with | .fin neg m x => Fp.fin neg m (x + e) | a => a
  let z := fpAdd f32 (decodeF f32 acc.toNat) t
  (BitVec.ofNat 32 z.1, (decodeF f32 acc.toNat).isFin && !(decodeF f32 z.1).isFin)

/-- One entry of one pass (R241): the new entry, and whether it clamped or overflowed. -/
def passEntry (op : MmaOp) (b : WBuf) (i n : Nat) (old : BitVec 32) : BitVec 32 × Bool :=
  if scaled' op.mode then
    (List.range 8).foldl (fun a g =>
      let s := scaleByte op i g
      let r := if s = 255 then addGroup 0 0 a.1
        else addGroup ((s : Int) - (match op.mode with | .f4x => 128 | _ => 127) + groupExp b (Fin.ofNat 8 g) n) (groupSum op b i g n) a.1
      (r.1, a.2 || r.2)) (old, false)
  else
    let p := ((List.range 8).map (fun g => groupSum op b i g n)).sum
    let c := clampInt (-2147483648) 2147483647 (signExt old.toNat 32 + p)
    (BitVec.ofNat 32 (wrapNat 32 c.1), c.2)

/-- The residue check of a pass (R243). -/
def residueOk (op : MmaOp) (b : WBuf) (cols : Nat) : Bool :=
  (List.range op.rows).all (fun i => (List.range 8).all (fun g =>
    (((List.range cols).map (fun n => groupSum op b i g n)).sum) % 127
      == (((List.range 32).map (fun j => activation op i (32 * g + j)
          * ((b.residue.get (Fin.ofNat 256 (32 * g + j))).toNat : Int))).sum) % 127))

/-- A saturating 32-bit count (R249). -/
def satCount (c : BitVec 32) (n : Nat) : BitVec 32 := BitVec.ofNat 32 (min (c.toNat + n) (2 ^ 32 - 1))

/-- What a completed MMA writes (R241, R249): the tile, the pending counts, and the flags. -/
def mmaWrite (op : MmaOp) (m : Mat) : Mat × BitVec 7 × BitVec 3 :=
  let b := m.bufs.get op.buf
  let c := bufCols b
  let t := m.tiles.get op.z
  let es := (List.range (op.rows * c)).map (fun x =>
    passEntry op b (x / c) (x % c) (if op.acc then tileEntry t c (x / c) (x % c) else 0))
  let hits := (es.filter (fun e => e.2)).length
  let bad := scaled' op.mode && (List.range op.rows).any (fun i => (List.range 8).any (fun g => scaleByte op i g == 255))
  let f : BitVec 3 := if hits = 0 then 0 else if scaled' op.mode then mExpovf else mSat
  ({ updTile op.z (fun _ => ⟨some (op.rows, c, scaled' op.mode), es.map (·.1), false⟩) m with
      mma := none
      pendSat := if scaled' op.mode then m.pendSat else satCount m.pendSat hits
      pendOvf := if scaled' op.mode then satCount m.pendOvf hits else m.pendOvf }, flagIf bad fInvalid, f)

/-- The MMA has read its last plane and its time is over. -/
def mmaDone (s : State) (z : Fin 2) : Option MmaOp :=
  match s.mat.mma with
  | some op => if op.z = z && decide (op.read.length = op.rows * op.planes) && decide (op.due ≤ s.pipe.wall) then some op else none
  | none => none

/-- An MMA completes (R228, R241, R243): the tile is written, and a failed residue check is a detected mismatch of slot M. -/
def execMmaComplete (z : Fin 2) (s : State) : Host.Outcome State Fault Refusal :=
  .next (match mmaDone s z with
  | none => s
  | some op =>
    let ok := residueOk op (s.mat.bufs.get op.buf) (bufCols (s.mat.bufs.get op.buf))
    let r := mmaWrite op s.mat
    let t := matDone op.commit (fun m => (match m.mma with | some x => x.id == op.id | none => false))
      (fun m => (mmaWrite op m).1) r.2.1 r.2.2 s
    if ok then t else mismatches [⟨.m, op.issued, op.commit, 0⟩] t)

/-- The array's part of a wall cycle (R231, R242): one plane granule, and with a row's first plane its scale bytes. A read that
loses its bank delays the pass (R161); the read leaves its counter with the last byte (R230). -/
def mmaStep (s : State) : State :=
  match s.mat.mma with
  | none => s
  | some op =>
    let n := op.read.length
    if op.rows * op.planes ≤ n || s.pipe.wall < op.due then s
    else
      let a := op.ea + 32 * n
      let scales := if scaled' op.mode && n % op.planes == 0 then keysAt (op.ea + op.rows * op.planes * 32 + 8 * (n / op.planes)) 8 else []
      match takeBanks [] (keysAt a 32 ++ scales) s with
      | none => updMat (fun m => { m with mma := some { op with waited := op.waited + 1 } }) s
      | some t =>
        let g := BitVec.ofNat 256 (leNat (memGetN s.mem a 32))
        let sc := if scales.isEmpty then op.scales else op.scales ++ [peekKeys s scales]
        let last := decide (n + 1 = op.rows * op.planes)
        let k := if op.sys then bits s.seq.handlerLatcon.toNat 44 4 + 1 else bits s.seq.latcon.toNat 44 4 + 1
        let t := updMat (fun m => { m with mma := some { op with read := op.read ++ [g], scales := sc, waited := 0
                                                                 due := if last then s.pipe.wall + k + 1 else op.due } }) t
        let t := if last then cntReadDone .m op.h t else t
        match badKey s (keysAt a 32 ++ scales) with
        | some (b, _) => consume .state .m b false op.sys op.commit t
        | none => t

/-! ### MZERO, MWSWAP (R238, R244) -/

/-- MZERO (R244). -/
def mzeroBody (z : Fin 2) (s : State) : Issued :=
  if tileBusy s z || shadowFull (tileShadow z) s then .stall
  else .ok (updMat (updTile z (fun _ => Tile.clear)) (takeShadow (tileShadow z) s))

/-- MWSWAP (R238): the map toggles at the end of the issue cycle. -/
def mwswapBody (s : State) : Issued := .ok (push (Flight.start s .m .map .unit 1) s)

/-! ### Weight loads (R232 to R237) -/

/-- Whether a resolved format is allowed with a pack (R233). -/
def fmtPackOk (f : Fmt) (p : Pack) : Bool :=
  match f, p with
  | .i4, _ | .t3p, _ | .page, .one | .page, .five | .i8, .one | .i8, .five | .n8, .one | .n8, .five | .i16, .one | .i16, .five => true
  | .bi4, .one | .bi4, .two | .bi8, .one | .f4x, .one | .f4x, .two | .f16, .one | .bf16, .one | .f32, .one => true
  | _, _ => false

/-- The last address of a handle's region for reads (R153); h15 covers every address. -/
def regionHi (h : Fin 16) (g : Granule) (parity : Bool) : Nat :=
  if h = 15 then 2 ^ 57 - 1 else readHalf g parity + hExtent g - 1

/-- Whether an address lies in a handle's region for reads. -/
def inRegion (h : Fin 16) (g : Granule) (parity : Bool) (a : Nat) : Bool :=
  h == 15 || (decide (readHalf g parity ≤ a) && decide (a < readHalf g parity + hExtent g))

/-- The first byte of a range that no seal of the tenant covers (R237). -/
def firstUnsealed (s : State) : Nat → Nat → Nat → Option Nat
  | 0, a, hi => if a ≤ hi then some a else none
  | n + 1, a, hi =>
    if hi < a then none
    else match sealOf s a with
      | none => some a
      | some l => firstUnsealed s n (l.base + l.size) hi

/-- The metadata address of the block that holds an address, by the page's own block length (R70, R71). -/
def pageMeta (pages : List Xlat) (f : Fmt) (a : Nat) : Option Nat :=
  (pages.find? (fun x => x.covers a)).bind (fun x => (blockLen (ptBlen x.w1.toNat)).map (fun n => metaOf x f n a))

/-- The metadata addresses of the blocks that a clipped load touches (R235): from the pages in global memory, behind the data in
a scratchpad window. -/
def loadMetas (pages : List Xlat) (f : Fmt) (lo n total : Nat) : List Nat :=
  if !isBlock f then []
  else if windowOf lo == .global then ((List.range ((n + 15) / 16)).filterMap (fun i => pageMeta pages f (lo + 16 * i))).eraseDups
  else
    let b := blockBytes f 32
    (List.range ((n + b - 1) / b)).map (fun i => lo + total + 2 * i)

/-- The checks of a load's metadata: in a page by its translation, in a window like the data (R71, R235). -/
def checkMetas (h : Fin 16) (g : Granule) (wins : Window → Bool) (kinds : List Nat) (lo : Nat) :
    List Nat → State → Except (Option (BitVec 8 × Nat)) State
  | [], s => .ok s
  | a :: r, s =>
    match (if windowOf lo == .global then translateRange .read 2 a (a + 2) s else checkRange s h g 2 wins kinds .read a 2) with
    | .error e => .error e
    | .ok (_, t) => checkMetas h g wins kinds lo r t

/-- A load's own faults of its format: the reserved code, a pairing that resolution made illegal, a block length that the
engine or any page it reaches refuses (R66, R70, R78, R233). -/
def loadFmtBad (pages : List Xlat) (f : Option Fmt) (p : Pack) : Bool :=
  match f with
  | none => true
  | some f => !fmtPackOk f p || (isBlock f && pages.any (fun x =>
      match blockLen (ptBlen x.w1.toNat) with | some 32 | some 64 => false | _ => true))

/-- MWLD and MWSTRM at issue (R229, R234, R237). -/
def loadBody (stream : Bool) (i : Instr) (o : MW) (s : State) : Issued :=
  let w := wordOfInstr s i
  let b := physBuf s o.w
  let g := readH s o.h
  let lo := (readX s o.xa).toNat
  let f := resolveFmt s o.fmt g lo
  let total := fmtBytes (f.getD .page) (128 * packNo o.pack * 256)
  let last := regionHi o.h g s.seq.parity
  let n := if last < lo then 1 else min total (last + 1 - lo)
  let wins := if stream then (fun w => w == Window.global) else winStore
  let kinds := if stream then [3] else kindsVec
  let align := if stream then 64 else 32
  let pages := pagesOf s (n / 65536 + 2) lo (lo + n)
  firstHalt [stallIf s.mat.load.isSome, stallIf (bufRead s b), stallIf (shadowFull (bufShadow b) s),
      stallIf (cntReadFull s .m o.h), stallIf (hEmpty s o.h), xSource s .m w o.wt o.xa]
    (if loadFmtBad pages f o.pack then .trap (trapAt cBadData .m lo)
     else checked .m (offPath (checkRange s o.h g align wins kinds .read lo n)) (fun _ t =>
       match (if stream then firstUnsealed s 66 lo (lo + n - 1) else none) with
       | some a => .trap (trapAt cPermission .m a)
       | none =>
         let fm := f.getD .page
         let metas := loadMetas pages fm lo n total
         checked .m (offPath <| (checkMetas o.h g wins kinds lo metas t).map (fun u => (([] : List Xlat), u))) (fun _ u =>
           let u := takeShadow (bufShadow b) (touch s.rcv.commits [.misc (3 + b.val)] (cntRead .m o.h u))
           let op : LoadOp := ⟨u.nextId, b, stream, lo, lo + n - 1, total, o.h, fm, o.pack, o.rnd, o.sat, o.strict, hGuarded g,
             pages, metas, [], [], s.pipe.wall + 1, 0, s.rcv.commits, atSystem s⟩
           .ok { updMat (fun m => { updBuf b (fun x => { x with loading := true }) m with load := some op }) u
             with nextId := u.nextId + 1 })))

/-- Bytes that a load reads. -/
def loadTotal (op : LoadOp) : Nat := op.hi + 1 - op.lo + 2 * op.metas.length

/-- The next piece of a load, of at most `most` bytes: up to the end of its line, or one block's metadata. -/
def loadPiece (most : Nat) (op : LoadOp) : Nat × Nat :=
  let n := op.hi + 1 - op.lo
  let d := op.read.length
  if d < n then (op.lo + d, min most (min (n - d) (64 - (op.lo + d) % 64))) else ((op.metas[(d - n) / 2]?).getD 0, 2)

/-- One piece read; a bad line is noted and reads as zeros (R236). None where its bank is taken. -/
def loadOne (mine : List Nat) (most : Nat) (s : State) (op : LoadOp) : Option (State × LoadOp) :=
  let p := loadPiece most op
  match engineReadOf mine .m op.h p.1 p.2 s with
  | .ok (some (bs, t)) => some (t, { op with read := op.read ++ bs, waited := 0 })
  | .ok none => none
  | .error e => some (s, { op with read := op.read ++ List.replicate p.2 0, lost := op.lost ++ [(p.1, e.1)], waited := 0 })

/-- The pieces of one wall cycle: up to `most` bytes, as far as the banks are free (R161, R227). -/
def loadSome : Nat → List Nat → Nat → State → LoadOp → State × LoadOp
  | 0, _, _, s, op => (s, op)
  | n + 1, mine, most, s, op =>
    if loadTotal op ≤ op.read.length || most = 0 then (s, op)
    else
      let p := loadPiece most op
      match loadOne mine most s op with
      | none => (s, if mine.isEmpty then { op with waited := op.waited + 1 } else op)
      | some r => loadSome n (mine ++ ownGranules s (keysAt p.1 p.2)) (most - p.2) r.1 r.2

/-- The loader's part of a wall cycle (R227): 256 bytes from the own banks, or a line that arrives from afar after a free time. The read
leaves its counter with the last byte (R230). -/
def loadStep (s : State) : State :=
  match s.mat.load with
  | none => s
  | some op =>
    if loadTotal op ≤ op.read.length || s.pipe.wall < op.due then s
    else
      let put := fun (r : State × LoadOp) (d : Nat) =>
        let ended := decide (loadTotal r.2 ≤ r.2.read.length)
        let t := updMat (fun m => { m with load := some { r.2 with due := if ended then r.1.pipe.wall + 9 else r.1.pipe.wall + d } }) r.1
        if ended then cntReadDone .m op.h t else t
      if isLocal op.lo then put (loadSome 132 [] 256 s op) 1
      else withToken (portKey (loadPiece 64 op).1 s) (fun s => let d := drawWait s; put ((loadOne [] 64 d.2 op).getD (d.2, op)) d.1) s

/-- The place of a block's metadata among those that a load reads (R235): of the block that holds an address; none where it reads none
of that block. -/
def metaPlace (op : LoadOp) (a : Nat) : Option Nat :=
  if windowOf op.lo == .global then (pageMeta op.pages op.fmt a).bind (fun m => op.metas.idxOf? m)
  else
    let k := (a - op.lo) / max 1 (blockBytes op.fmt 32)
    if k < op.metas.length then some k else none

/-- A byte that a load read, by its place. -/
def loadByte (op : LoadOp) (i : Nat) : Nat := ((op.read[i]?).getD 0).toNat

/-- Whether every byte of element e was read (R234). -/
def elemRead (op : LoadOp) (e : Nat) : Bool := decide (op.lo + (elemPlace op.fmt e).1 + (elemPlace op.fmt e).2 ≤ op.hi + 1)

/-- Element e of a load as its format decodes it; outside the clip it is 0 (R234). -/
def loadElem (op : LoadOp) (data e : Nat) : Decoded :=
  if !elemRead op e then ⟨.fin false 0 0, 0, false⟩
  else if isBlock op.fmt then
    let k := op.hi + 1 - op.lo + 2 * (metaPlace op (op.lo + (elemPlace op.fmt e).1)).getD 0
    decodeBlock op.fmt (bits data (e * fmtBits op.fmt) (fmtBits op.fmt)) (loadByte op k) (signExt (loadByte op (k + 1) % 32) 5)
  else decodePlain op.fmt data e

/-- Where a fault of a read piece is told (R236): for a lost translation the line's address. -/
def lostPlace (l : Nat × BitVec 8) : BitVec 8 × Nat := (l.2, if l.2 = cTranslation then l.1 / 64 * 64 else l.1)

/-- The first fault of a load in its element order (R236). -/
def loadFault (op : LoadOp) (data : Nat) : Option (BitVec 8 × Nat) :=
  if op.lost.isEmpty && !op.strict then none
  else (List.range (128 * packNo op.pack * 256)).findSome? (fun e =>
    if !elemRead op e then none
    else
      let p := elemPlace op.fmt e
      let a := op.lo + p.1
      let m := (op.metas[(metaPlace op a).getD 0]?).getD 0
      let line := fun (x y : Nat) => x / 64 == y / 64
      match op.lost.find? (fun l => line l.1 a || line l.1 (a + p.2 - 1)) with
      | some l => some (lostPlace l)
      | none =>
        match (if isBlock op.fmt then op.lost.find? (fun l => line l.1 m) else none) with
        | some l => some (lostPlace l)
        | none =>
          if op.strict && (loadElem op data e).bad then some (cBadData, if isBlock op.fmt then m else a) else none)

/-- A weight's cell slot and its flag (R234). -/
def cellOf (p : Pack) (sat : Bool) (v : Int) : Nat × BitVec 7 :=
  match p with
  | .one => if sat then let c := clampInt (-512) 511 v; (wrapNat 10 c.1, flagIf c.2 fSat) else (wrapNat 10 v, 0)
  | .two => (wrapNat 5 v, 0)
  | .five => let c := clampInt (-1) 1 v; (wrapNat 2 c.1, flagIf c.2 fSat)

/-- One group of a column (R78, R81, R233): its 32 weights, the group's exponent (none where the load read no metadata of its
block), and the flags. -/
def loadGroup (op : LoadOp) (data e : Nat) : List Int × Option Int × BitVec 7 :=
  let es : List Decoded := (List.range 32).map (fun j => loadElem op data (e + j))
  let fl : BitVec 7 := es.foldl (fun a d => a ||| d.flags) 0
  match floatOf op.fmt with
  | some _ =>
    let r := encodeBlock .bi8 op.rnd (es.map (fun d => d.val))
    (r.2.2.1.map (fun c => signExt c 8), some ((r.1 : Int) - 127), r.2.2.2)
  | none =>
    if isBlock op.fmt then
      let place := metaPlace op (op.lo + (elemPlace op.fmt e).1)
      let k := op.hi + 1 - op.lo + 2 * place.getD 0
      let sb := loadByte op k
      let x := signExt (loadByte op (k + 1) % 32) 5
      let bias : Int := if op.fmt = Fmt.f4x then 128 else 127
      ((List.range 32).map (fun j => if elemRead op (e + j) && sb != 255 then
          blockMantissa op.fmt (bits data ((e + j) * fmtBits op.fmt) (fmtBits op.fmt)) x else 0),
        if place.isSome then some (if sb = 255 then -127 else (sb : Int) - bias) else none, fl)
    else (es.map (fun d => match d.val with | .fin neg m _ => if neg then -(m : Int) else m | _ => 0), some 0, fl)

/-- A column of a load (R234): its 256 weights, the exponents of its groups, and its flags. -/
def loadColumn (op : LoadOp) (data n : Nat) : List Int × List (Option Int) × BitVec 7 :=
  let gs := (List.range 8).map (fun g => loadGroup op data (n * 256 + 32 * g))
  (gs.flatMap (·.1), gs.map (·.2.1), gs.foldl (fun a g => a ||| g.2.2) 0)

/-- The buffer that a completed load leaves, and its flags (R224, R234). The exponent of a group whose block gave no metadata is
not stated; it is a free value. -/
def loadBuf (s : State) (op : LoadOp) : WBuf × BitVec 7 :=
  let data := leNat op.read
  let c := 128 * packNo op.pack
  let cols := (List.range c).map (loadColumn op data)
  let w := packBits op.pack
  let slots := fun (k : Nat) => cols.map (fun x => cellOf op.pack op.sat ((x.1[k]?).getD 0))
  let p := packNo op.pack
  let rowBits := fun (k : Nat) => (slots k).zipIdx.foldr (fun x r => x.1.1 * 2 ^ (10 * (x.2 / p) + w * (x.2 % p)) + r) 0
  let sum := fun (k : Nat) => ((slots k).map (fun x => signExt x.1 w)).sum
  let eb := fun (g : Nat) => (cols.take 256).zipIdx.foldr (fun x r =>
    (match (x.1.2.1[g]?).getD none with
     | some e => if p = 5 then 0 else wrapNat 8 e
     | none => Config.choice (s.draws + 8 * x.2 + g) % 256) * 2 ^ (8 * x.2) + r) 0
  let fl := cols.foldl (fun a x => a ||| x.2.2) (0 : BitVec 7) |||
    ((List.range 256).foldl (fun a k => (slots k).foldl (fun a x => a ||| x.2) a) (0 : BitVec 7))
  ({ cells := Vector.ofFn (fun (k : Fin 256) => BitVec.ofNat 1280 (rowBits k.val))
     exps := Vector.ofFn (fun (g : Fin 8) => BitVec.ofNat 2048 (eb g.val))
     pack := op.pack, fmt := op.fmt, stream := op.stream, loading := false
     residue := Vector.ofFn (fun (k : Fin 256) => BitVec.ofNat 8 (sum k.val % 127).toNat) }, fl)

/-- A load ends (R234, R236): the buffer is filled, or cleared and the first fault raised. DESIGN CHOICE (82): after a fault no flag of the
elements decoded before it is set, since R234 lands flags when the load completes. -/
def loadEnd (op : LoadOp) (s : State) : State :=
  let holds := fun (m : Mat) => (match m.load with | some x => x.id == op.id | none => false)
  match loadFault op (leNat op.read) with
  | some e =>
    engineFault .m op.guarded op.sys op.commit e
      (matDone op.commit holds (fun m => { updBuf op.buf (fun _ => WBuf.clear) m with load := none }) 0 0 s)
  | none =>
    let b := loadBuf s op
    matDone op.commit holds (fun m => { updBuf op.buf (fun _ => b.1) m with load := none }) b.2 0 { s with draws := s.draws + 2048 }

/-- A load that has read its last byte and whose time is over. -/
def loadDone (s : State) (stream : Bool) (b : Fin 2) : Option LoadOp :=
  match s.mat.load with
  | some op => if op.buf = b && op.stream == stream && decide (loadTotal op ≤ op.read.length) && decide (op.due ≤ s.pipe.wall)
      then some op else none
  | none => none

/-- An MWLD into a physical buffer completes (R234). -/
def execMwldComplete (b : Fin 2) (s : State) : Host.Outcome State Fault Refusal :=
  .next (match loadDone s false b with | some op => loadEnd op s | none => s)

/-- An MWSTRM into a physical buffer completes: every block has been verified as it was read (R237). -/
def execMwstrmComplete (b : Fin 2) (s : State) : Host.Outcome State Fault Refusal :=
  .next (match loadDone s true b with | some op => loadEnd op s | none => s)

/-! ### MRET (R245 to R247) -/

/-- One retired entry (R246): its code and flags of `vflags` and `mflags`. -/
def retire (o : MR) (e : Int) (fp : Bool) (x : BitVec 32) : Nat × BitVec 7 × BitVec 3 :=
  let v := if fp then decodeF f32 x.toNat else fpOfInt (signExt x.toNat 32)
  let v := match v with | .fin neg m y => Fp.fin neg m (y + e) | a => a
  let r := narrowPlain o.fout o.rnd o.sat v
  (r.1, r.2 &&& ~~~fInexact, if r.2 &&& fInexact = 0 then 0 else mRinexact)

/-- MRET at issue (R229, R246): the entries are converted; the retire unit writes them from wall 16 on (R227). -/
def mretBody (o : MR) (s : State) : Issued :=
  let w := wordOfInstr s (.mret o)
  let t := s.mat.tiles.get o.z
  let e := (readX s o.xs).toInt
  firstHalt [stallIf t.busy, stallIf s.mat.ret.isSome, stallIf (shadowFull (tileShadow o.z) s), stallIf (cntWriteFull s .m o.h),
      recordHalt s 2, stallIf (hEmpty s o.h), xSource s .m w o.wt o.xa, xSource s .m w o.wt o.xs]
    (if e < -512 ∨ 511 < e then .trap (trapAt cBadData .m 0)
     else match t.shape with
       | none => .ok s
       | some (rows, cols, fp) =>
         let n := rows * cols
         let a := (readX s o.xa).toNat
         checked .m (checkRange s o.h (readH s o.h) 32 winStore kindsVec .write a (fmtBytes o.fout n)) (fun _ u =>
           let rs := (List.range n).map (fun x => retire o e fp (tileEntry t cols (x / cols) (x % cols)))
           let bs := leBytes (fmtBytes o.fout n) (packCodes o.fout (rs.map (·.1)))
           let u := takeShadow (tileShadow o.z) (cntWrite .m o.h u)
           let op : RetOp := ⟨u.nextId, o.z, a, o.h, fmtBytes o.fout 128, bs, rs.foldl (fun f r => f ||| r.2.1) 0,
             rs.foldl (fun f r => f ||| r.2.2) 0, s.pipe.wall + lat s 12, 0, s.rcv.commits, atSystem s⟩
           .ok { updMat (fun m => { updTile o.z (fun t => { t with busy := true }) m with ret := some op }) u
             with nextId := u.nextId + 1 }))

/-- The granules written in one wall cycle: each needs its bank, or room at the port. -/
def retireSome : Nat → State → RetOp → State × RetOp × Option (BitVec 8 × Nat)
  | 0, s, op => (s, op, none)
  | n + 1, s, op =>
    if op.bytes.isEmpty then (s, op, none)
    else
      let k := min op.bytes.length (32 - op.base % 32)
      match engineWrite .m op.h .m op.id op.sys op.commit op.base (op.bytes.take k) s with
      | .error e => (s, op, some e)
      | .ok none => (s, { op with waited := if isLocal op.base then op.waited + 1 else 0 }, none)
      | .ok (some t) => retireSome n t { op with base := op.base + k, bytes := op.bytes.drop k, waited := 0 }

/-- The retire unit's part of a wall cycle (R227, R247): 128 entries into the own banks, or two granules (64 bytes) toward the
port. A fault on the way stops it with its tile clear (R414). -/
def retireStep (s : State) : State :=
  match s.mat.ret with
  | none => s
  | some op =>
    if op.bytes.isEmpty || s.pipe.wall < op.due then s
    else
      let r := retireSome (if isLocal op.base then op.step / 32 else 2) s op
      match r.2.2 with
      | none => updMat (fun m => { m with ret := some r.2.1 }) r.1
      | some e => engineFault .m false op.sys op.commit e (updMat (fun m => { m with ret := some { r.2.1 with bytes := [] } }) r.1)

/-- An MRET completes (R228, R246, R247): the tile becomes clear, the flags land, and the write leaves the counts once nothing of
it is on the way. -/
def execMretComplete (z : Fin 2) (s : State) : Host.Outcome State Fault Refusal :=
  .next (match s.mat.ret with
  | none => s
  | some op =>
    if op.z = z && op.bytes.isEmpty && decide (op.due ≤ s.pipe.wall) then
      accSettle .m op.h op.id (matDone op.commit (fun m => (match m.ret with | some x => x.id == op.id | none => false))
        (fun m => { updTile z (fun _ => Tile.clear) m with ret := none }) op.vfl op.mfl s)
    else s)

/-! ### MSTAT (R248) -/

/-- The word of a tile. -/
def tileWord (t : Tile) : Nat :=
  (match t.shape with | some (r, c, fp) => r + 128 * c + (if fp then 0x20000 else 0) | none => 0) + (if t.busy then 0x40000 else 0)

/-- The word of a buffer. -/
def bufWord (b : WBuf) : Nat :=
  packField b.pack + 4 * fmtCode b.fmt + (if b.loading then 0x80 else 0) + (if b.stream then 0x100 else 0)

/-- A word of engine state. -/
def statWord (s : State) (sel : Nat) : Nat :=
  match sel with
  | 0 => tileWord (s.mat.tiles.get 0)
  | 1 => tileWord (s.mat.tiles.get 1)
  | 2 => bufWord (s.mat.bufs.get (physBuf s 0))
  | 3 => bufWord (s.mat.bufs.get (physBuf s 1))
  | _ => s.mat.comSat.toNat + 2 ^ 32 * s.mat.comOvf.toNat

/-- MSTAT (R248). -/
def mstatBody (xd : Fin 32) (sel : Fin 5) (s : State) : Issued :=
  firstHalt [destHalt s (.x xd), xRecordHalt s xd (lat s 0)] (.ok (postX .m xd (word (statWord s sel.val)) 0 s))

/-! ### The words -/

/-- MMA (R239). -/
def execMma (o : MM) (s : State) : Host.Outcome State Fault Refusal := issue .m (mmaBody o) s

/-- MZERO (R244). -/
def execMzero (z : Fin 2) (s : State) : Host.Outcome State Fault Refusal := issue .m (mzeroBody z) s

/-- MWLD (R232, R234). -/
def execMwld (o : MW) (s : State) : Host.Outcome State Fault Refusal := issue .m (loadBody false (.mwld o) o) s

/-- MWSTRM (R237). -/
def execMwstrm (o : MW) (s : State) : Host.Outcome State Fault Refusal := issue .m (loadBody true (.mwstrm o) o) s

/-- MWSWAP (R238). -/
def execMwswap (s : State) : Host.Outcome State Fault Refusal := issue .m mwswapBody s

/-- MRET (R245, R246). -/
def execMret (o : MR) (s : State) : Host.Outcome State Fault Refusal := issue .m (mretBody o) s

/-- MSTAT (R248). -/
def execMstat (xd : Fin 32) (sel : Fin 5) (s : State) : Host.Outcome State Fault Refusal := issue .m (mstatBody xd sel) s

end Sys2Proof.Machine
end

