-- ==== Sys2Proof/Machine/Context.lean ====
section
/-! DEFINITION. The context area, CTXSAVE and CTXLOAD (R146, R147), and pre-emption on the core (R148, R149, R336). -/

namespace Sys2Proof.Machine

open Sys2Proof

/-! ### Numbers and granules -/

/-- The number whose w-byte fields hold values in order. -/
def packW (w : Nat) (l : List Nat) : Nat := l.foldr (fun v r => v % 256 ^ w + r * 256 ^ w) 0

/-- A value placed at a byte offset. -/
def at' (off v : Nat) : Nat := v * 256 ^ off

/-- n granules of the area from a byte offset, holding a number. -/
def chunk (off n v : Nat) : List (Nat × Granule) :=
  (List.range n).map (fun i => (off / 32 + i, BitVec.ofNat 256 (v / 2 ^ (256 * i))))

/-- n granules from a byte offset, read back as a number. -/
def readChunk (f : Nat → Granule) (off n : Nat) : Nat :=
  (List.range n).foldr (fun i r => (f (off / 32 + i)).toNat + r * 2 ^ 256) 0

/-- A w-byte field at a byte offset. -/
def fieldAt (f : Nat → Granule) (off w : Nat) : Nat := bits (f (off / 32)).toNat (8 * (off % 32)) (8 * w)

/-! ### The image of a context (R146, R179, R252, R256) -/

/-- The pending barrier wait's word. -/
def barWord (s : State) : Nat :=
  match s.seq.barWait with
  | some b => 2 ^ 63 + b.gen.toNat * 2 ^ 16 + scopeCode b.scope * 2 ^ 9 + b.id.val
  | none => 0

/-- The results that take records, in issue order (R144). -/
def recordFlights (s : State) : List Flight := s.pipe.flight.filter (fun f => !f.sys && f.dest.recorded)

/-- Kind and number of a record (R146). -/
def recordKind (d : Dest) : Nat × Nat :=
  match d with
  | .x n => (1, n.val)
  | .v n => (2, n.val)
  | .vv n => (2, n.val)
  | .p n => (3, n.val)
  | .h n => (4, n.val)
  | .k n => (5, n.val)
  | .tile z => (6, z.val)
  | _ => (0, 0)

/-- Whether a result's value has come. -/
def valueHere (s : State) (f : Flight) : Bool := f.val.present && decide (f.due ≤ s.pipe.wall)

/-- The payload of a record. -/
def payload (v : FVal) : Nat :=
  match v with
  | .v b => b.toNat
  | .vv b _ => b.toNat
  | .p b => b.toNat
  | .h g => g.toNat
  | _ => 0

/-- The descriptor of record j (R146). -/
def recordDesc (s : State) (j : Nat) (f : Flight) : Nat :=
  let k := recordKind f.dest
  k.1 + at' 1 k.2 + at' 2 (one (!valueHere s f)) + at' 3 (slotNo f.slot) + at' 4 (if f.late then 0 else f.rem + 1)
    + at' 8 (match f.val with | .x w => if valueHere s f then w.toNat else 0 | _ => j) + at' 16 f.vfl.toNat

/-- The tiles of the program's MMA and MRET in flight, each of which takes a record of kind 6 (R250). -/
def recordTiles (s : State) : List (Fin 2) :=
  (s.mat.mma.toList.filter (fun m => !m.sys)).map (·.z) ++ (s.mat.ret.toList.filter (fun m => !m.sys)).map (·.z)

/-- The descriptor of such a record: pending, of slot M, with nothing left of a latency (R146, R250). -/
def tileDesc (z : Fin 2) : Nat := 6 + at' 1 z.val + at' 2 1 + at' 3 5

/-- A stream's 32 bytes (R256): a gather's saved position is its entry's first (R281). -/
def streamBytes (s : State) (gather : Bool) (t : Option Stream) : Nat :=
  match t with
  | some t => t.list + at' 8 t.count + at' 16 (if gather then t.entry else t.pos) + at' 24 t.ih.val + at' 25 t.dh.val
      + at' 26 t.queue.val + at' 27 1
  | none => at' 25 (if gather then s.cpy.gh.val else s.cpy.sh.val)

/-- A held command's operand values in field order (R256). -/
def operandBytes (c : DCmd) : Nat :=
  match c.kind with
  | .copy _ => c.src.toNat + at' 8 c.dst.toNat + at' 16 c.len
  | .coll _ _ id root n => c.dst.toNat + at' 8 (n + 2 ^ 32 * id + 2 ^ 41 * root)
  | _ => 0

/-- A nest level's 24 bytes (R256). -/
def levelBytes (l : Level') : Nat := packW 8 [l.count, wrapNat 64 l.ss, wrapNat 64 l.ds]

/-- A held command's 256 bytes (R256). -/
def heldCmdBytes (c : DCmd) : Nat :=
  c.word.toNat + at' 8 (operandBytes c) + at' 32 (packW 24 (c.nest.map levelBytes)) + at' 176 c.fill.toNat
    + at' 184 c.ds.toNat + at' 216 c.dd.toNat

/-- The commands that wait for their commit, oldest first. -/
def heldCmds (s : State) : List DCmd := s.cpy.cmds.filter (fun c => c.stage == .held)

/-- The header (R146). Flags: 1 forced, 2 z and w present, 4 a recovery save. -/
def headerBytes (s : State) (flags : Nat) (tpc : BitVec 21) : Nat :=
  0x31585443 + at' 4 1 + at' 6 flags + at' 7 s.seq.loops.length + at' 8 s.seq.tenant.toNat
    + at' 16 ((s.seq.ctx.map (·.imageId.toNat)).getD 0) + at' 24 tpc.toNat + at' 32 (csrRead s 0x803).toNat
    + at' 40 (min 64 (recordCount s)) + at' 41 s.out.heldBack.length + at' 48 (barWord s)

/-- Row k of a buffer, the eb rows, and the rows of a tile (R252). -/
def tileRow (t : Tile) (i : Nat) : Nat :=
  match t.shape with
  | some (_, c, _) => packW 4 (((t.entries.drop (i * c)).take c).map (·.toNat))
  | none => 0

/-- The sections of z, w and the exponent stores (R252): by logical names. -/
def matrixImage (s : State) : List (Nat × Granule) :=
  (List.range 2).flatMap (fun b =>
    let w := s.mat.bufs.get (physBuf s (Fin.ofNat 2 b))
    (List.range 8).flatMap (fun g => chunk (0x8000 + 0x800 * b + 256 * g) 8 (w.exps.toList.getD g 0).toNat)
      ++ (List.range 256).flatMap (fun k => chunk (0x150000 + 0xA000 * b + 160 * k) 5 (w.cells.toList.getD k 0).toNat))
  ++ (List.range 2).flatMap (fun z =>
    (List.range 64).flatMap (fun i => chunk (0x100000 + 0x28000 * z + 2560 * i) 80 (tileRow (s.mat.tiles.get (Fin.ofNat 2 z)) i)))

/-- Entries of a queue at their places of the ring (R146, R179). -/
def queueSlot (s : State) (q : Fin 4) (place : Nat) : Nat :=
  match (readQ s q)[(place + 4 - (s.regs.qix.get q).val) % 4]? with
  | some e => e.bytes.toNat
  | none => 0

/-- Every section of the context but the held-back list and the scratchpad's granules: granule numbers of the area with their
contents. -/
def imageOf (s : State) (flags : Nat) (tpc : BitVec 21) : List (Nat × Granule) :=
  let q := s.seq
  let fs := (recordFlights s).take 64
  let held := heldCmds s
  chunk 0 2 (headerBytes s flags tpc)
  ++ chunk 0x40 8 (packW 8 (0 :: (q.x.toList.tail.map (·.toNat))))
  ++ chunk 0x140 4 (packW 8 [q.vshape.toNat, q.vflags.toNat, q.mflags.toNat, q.latcon.toNat, q.cycle.toNat, q.instret.toNat,
      one q.gmode, q.tcause.toNat, q.tval.toNat])
  ++ chunk 0x1C0 6 (packW 8 (q.loops.flatMap (fun e => [e.index.toNat, e.count.toNat, e.start, e.stop])))
  ++ chunk 0x280 2 (packW 8 (s.regs.k.toList.map (·.toNat)))
  ++ chunk 0x300 16 (packW 32 (allHandles.map (fun h => (readH s h).toNat)))
  ++ chunk 0x500 8 (packW 16 ((q.held.take 16).map (fun f => f.code.toNat + at' 1 (slotNo f.slot) + at' 2 1 + at' 8 f.tval.toNat)))
  ++ chunk 0x800 16 (packW 64 (s.regs.pat.toList.map (·.toNat)))
  ++ chunk 0x1000 96 (packW 64 (s.regs.p.toList.map (·.toNat)))
  ++ (List.range 512).map (fun i => (0x100 + i, s.dict.get (Fin.ofNat 512 i)))
  ++ chunk 0x6000 64 (packW 32 (fs.zipIdx.map (fun f => recordDesc s f.2 f.1) ++ (recordTiles s).map tileDesc))
  ++ chunk 0x7000 48 (s.rcv.spadWritten.foldl (fun r g => if r.testBit g then r else r + 2 ^ g) 0)
  ++ chunk 0x7800 8 (packW 1 ((List.finRange 4).map (fun n => (readQ s n).length) ++ (List.finRange 4).map (fun n => (s.regs.qix.get n).val)))
  ++ chunk 0x7900 5 (packW 24 (s.cpy.nest.toList.map levelBytes) + at' 144 s.cpy.fill.toNat + at' 152 s.cpy.cfg.toNat)
  ++ chunk 0x79A0 1 (streamBytes s true s.cpy.gather)
  ++ chunk 0x79C0 1 (streamBytes s false s.cpy.scatter)
  ++ chunk 0x79E0 1 (s.cpy.events.length + at' 4 s.cpy.lost.toNat)
  ++ chunk 0x7A00 8 (packW 8 (s.cpy.events.map (·.toNat)))
  ++ chunk 0x7B00 8 ((held[0]?.map heldCmdBytes).getD 0)
  ++ chunk 0x7C00 2 (packW 8 ((List.range 5).map (statWord s) ++ [s.mat.pendSat.toNat + 2 ^ 32 * s.mat.pendOvf.toNat]))
  ++ chunk 0x7D00 8 ((held[1]?.map heldCmdBytes).getD 0)
  ++ (List.finRange 32).flatMap (fun n => chunk (0x10000 + 2048 * n.val) 64 (readV s n).toNat)
  ++ (List.finRange 4).flatMap (fun n => (List.range 4).flatMap (fun i => chunk (0x20000 + 8192 * n.val + 2048 * i) 64 (queueSlot s n i)))
  ++ fs.zipIdx.flatMap (fun f => match f.1.dest with
    | .v _ | .vv _ | .p _ | .h _ => chunk (0x40000 + 2048 * f.2) 64 (if valueHere s f.1 then payload f.1.val else 0)
    | _ => [])
  ++ (if flags / 2 % 2 = 1 then matrixImage s else [])

/-- The scratchpad granules that the save writes (R146). -/
def spadImage (s : State) : List (Nat × Granule) :=
  s.rcv.spadWritten.map (fun g => (0x4000 + g, BitVec.ofNat 256 (leNat (memGetN s.mem (32 * g) 32))))

/-- The held-back list's section: 32 bytes for each entry, whose layout the manual leaves open (assumption 13). -/
def heldImage (s : State) : List (Nat × Granule) × State :=
  ((List.range s.out.heldBack.length).map (fun i => (0x340 + i, Config.granule (s.draws + i))),
    { s with draws := s.draws + s.out.heldBack.length })

/-- Whether a committed effect waits for a scatter that a save stops (R105, R175, R281): its own increment, or a release of writes on path G
through its data handle. -/
def parked (s : State) (e : OutEntry) : Bool :=
  match s.cpy.scatter, e.body with
  | some t, .effect (.scatterInc n _ _ _ _) => n == t.id
  | some t, .effect (.relh items paths _) => inPaths paths .g && items.any (fun i => i.h == t.dh) && decide (t.id < e.acc)
  | _, _ => false

/-- What the area of a save holds beyond its bytes. -/
def asideOf (s : State) (area : Word) : Aside :=
  ⟨area, s.out.heldBack, s.out.pending.filter (parked s), s.pipe.flight.filter (fun f => !f.sys), heldCmds s, s.cpy.gather, s.cpy.scatter, s.seq.held.drop 16⟩

/-! ### Writing the area -/

/-- Granules that differ from what the core last wrote or loaded at the area (R146). -/
def changed (s : State) (area : Word) (l : List (Nat × Granule)) : List (Nat × Granule) :=
  if s.rcv.area = some area then l.filter (fun e => !s.rcv.image.contains e) else l

/-- Granules written on path D through h15 under one access (R146). None inside: a page migrates. -/
def writeGranules (sl : Slot) (acc : Nat) (area : Nat) : List (Nat × Granule) → State → Engine (Option State)
  | [], s => .ok (some s)
  | e :: r, s =>
    match engineSend .d 15 sl acc (atSystem s) s.rcv.commits (area + 32 * e.1) (leBytes 32 e.2.toNat) s with
    | .error x => .error x
    | .ok none => .ok none
    | .ok (some t) => writeGranules sl acc area r t

/-- The tracked image with granules replaced. -/
def trackImage (area : Word) (l : List (Nat × Granule)) (s : State) : State :=
  updRcv (fun r => { r with
    area := some area
    image := (if r.area = some area then r.image.filter (fun e => !l.any (fun x => x.1 == e.1)) else []) ++ l }) s

/-- A save's writes are sent; the next bundle waits until they are performed at pkg (R146). -/
def emitSave (sl : Slot) (flags : Nat) (tpc : BitVec 21) (area : Word) (s : State) : Engine (Option State) :=
  let h := heldImage s
  let l := imageOf s flags tpc ++ h.1 ++ spadImage s
  let n := fresh h.2
  match writeGranules sl n.1 area.toNat (changed s area l) (cntWrite .d 15 n.2) with
  | .error e => .error e
  | .ok none => .ok none
  | .ok (some t) =>
    let t := if accLeft t n.1 .pkg then t else cntWriteDone .d 15 t
    .ok (some (updRcv (fun r => { r with
      saveAcc := some n.1
      asides := asideOf s area :: r.asides.filter (fun a => a.area != area) }) (trackImage area l t)))

/-- Whether the save's writes are still awaited. -/
def saveWaits (s : State) : Bool := match s.rcv.saveAcc with | some a => accLeft s a .pkg | none => false

/-- Whether everything on its way out of the core has been performed, but for what waits for a scatter that a save has stopped. -/
def drained (s : State) : Bool :=
  s.out.port.isEmpty && s.out.paddock.isEmpty && s.out.pending.all (fun e => pausing s && parked s e) && s.out.leaving.isEmpty
    && s.out.refusals.isEmpty

/-- The counts are those of a save (R172): all 0. A DCOLL whose commit has not come is saved as a held command, so that its own counts
(R278) stop for the save and stand again as it is loaded: DEDUCED (91). -/
def countsIdle (s : State) : Bool :=
  allPaths.all (fun p => allHandles.all (fun h =>
    let n := if p = .c then (s.cpy.cmds.filter (fun c => uncommitted s c && c.hd == h && (match c.kind with | .coll _ _ _ _ _ => true | _ => false))).length else 0
    cntGet s p h == ⟨BitVec.ofNat 16 n, BitVec.ofNat 16 n, BitVec.ofNat 16 n, BitVec.ofNat 16 n⟩))

/-- What must come before a pre-emption's save (R172, R250, R252, R281, R412): every M operation complete, every command that has
started or whose entry has left complete, the streams stopped, what has left the core performed or refused, every count 0. -/
def saveReady (s : State) : Bool :=
  s.mat.mma.isNone && s.mat.load.isNone && s.mat.ret.isNone
    && s.cpy.cmds.all (uncommitted s)
    && (match s.cpy.gather with | some t => !t.open' | none => true)
    && (match s.cpy.scatter with | some t => !t.open' | none => true)
    && drained s && countsIdle s

/-- CTXSAVE (R146): under a forced pre-emption with z and w, once everything before the save is done. -/
def ctxsaveBody (rs1 : Fin 32) (s : State) : Issued :=
  let a := readX s rs1
  let forced := match s.seq.preempt with | some p => p.forced | none => false
  if xEmpty s rs1 then .stall
  else if forced && !saveReady s then .wait (updCyc (fun c => { c with haste := 0xFFFF }) s)
  else if a.toNat % 65536 ≠ 0 ∨ windowOf a.toNat ≠ .global then .trap (trapAt cMisaligned .s a.toNat)
  else match emitSave .s (if forced then 3 else 0) s.seq.tpc a s with
    | .error e => .trap (accessTrap .s e)
    | .ok none => .stall
    | .ok (some t) => .ok t

/-- CTXSAVE (R146). -/
def execCtxsave (rs1 : Fin 32) (s : State) : Host.Outcome State Fault Refusal :=
  issue .s (systemOnly .s (.ctxsave rs1) (ctxsaveBody rs1)) s

/-! ### Loading (R147) -/

/-- A loop entry read back. -/
def loadLoop (f : Nat → Granule) (i : Nat) : LoopEntry :=
  let o := 0x1C0 + 32 * i
  ⟨word (fieldAt f o 8), word (fieldAt f (o + 8) 8), fieldAt f (o + 16) 8, fieldAt f (o + 24) 8⟩

/-- A nest level read back. -/
def loadLevel (v : Nat) : Level' := ⟨bits v 0 64, signExt (bits v 64 64) 64, signExt (bits v 128 64) 64⟩

/-- The slot with a number. -/
def slotOfNo (n : Nat) : Slot :=
  match n with | 0 => .s | 1 => .l | 2 => .v0 | 3 => .v1 | 4 => .f | 5 => .m | 6 => .d | _ => .k

/-- Record j read back: its value where the record holds one, else what brings it; a value that came after the save is taken
(R306). `old` is the result as it was saved. -/
def loadRecord (f : Nat → Granule) (j : Nat) (old : Option Flight) (s : State) : Option Flight :=
  let o := 0x6000 + 32 * j
  let num := fieldAt f (o + 1) 1
  let k := fieldAt f (o + 4) 4
  let pay := readChunk f (0x40000 + 2048 * j) 64
  let r : Option (Dest × FVal) := match fieldAt f o 1 with
    | 1 => some (.x (Fin.ofNat 32 num), .x (word (fieldAt f (o + 8) 8)))
    | 2 => (match old.map (·.dest), old.map (·.val) with
      | some (Dest.vv n), some (FVal.vv _ c) => some (.vv n, .vv (BitVec.ofNat 16384 pay) c)
      | _, _ => some (.v (Fin.ofNat 32 num), .v (BitVec.ofNat 16384 pay)))
    | 3 => some (.p (Fin.ofNat 48 num), .p (BitVec.ofNat 512 pay))
    | 4 => some (.h (Fin.ofNat 16 num), .h (BitVec.ofNat 256 pay))
    | 5 => some (.k (Fin.ofNat 8 num), .x (word (fieldAt f (o + 8) 8)))
    -- kind 6 marks a tile, which is busy for as long as its operation is in the engine (R250)
    | _ => none
  r.map (fun d =>
    let pending := fieldAt f (o + 2) 1 == 1
    { Flight.start s (slotOfNo (fieldAt f (o + 3) 1)) d.1 d.2 1 with
      id := (old.map (·.id)).getD (s.nextId + j)
      val := if pending then (match old with | some g => g.val | none => .awaited .evpop) else d.2
      due := if pending then (old.map (·.due)).getD 0 else 0
      variable' := pending
      vfl := BitVec.ofNat 7 (fieldAt f (o + 16) 1)
      rem := k - 1
      late := k == 0
      fresh := false
      sys := false
      dup := old.bind (·.dup)
      shadow := old.bind (·.shadow) })

/-- A held command read back (R256): what its word and the save fix besides the captured values. -/
def loadCmd (f : Nat → Granule) (off : Nat) (c : DCmd) : DCmd :=
  let v := readChunk f off 8
  let a := word (bits v 64 64)
  let b := bits v 128 64
  { c with src := (match c.kind with | .copy _ => a | _ => c.src)
           dst := (match c.kind with | .copy _ => word b | .coll _ _ _ _ _ => a | _ => c.dst)
           len := (match c.kind with | .copy _ => bits v 192 64 | .coll _ _ _ _ _ => bits b 0 32 | _ => c.len)
           kind := (match c.kind with | .coll k sc _ _ _ => .coll k sc (bits b 32 9) (bits b 41 20) (bits b 0 32) | k => k)
           nest := (List.range 6).map (fun i => loadLevel (bits v (8 * (32 + 24 * i)) 192))
           fill := word (bits v (8 * 176) 64)
           ds := BitVec.ofNat 256 (bits v (8 * 184) 256)
           dd := BitVec.ofNat 256 (bits v (8 * 216) 256) }

/-- A stream read back (R256): it resumes at its saved position (R281). -/
def loadStream (f : Nat → Granule) (gather : Bool) (off : Nat) (s : State) (cfg : Nat) (fill : Word) (parity : Bool) (old : Option Stream) :
    Option Stream :=
  let v := (f (off / 32)).toNat
  if flag v (8 * 27) then
    let ih := Fin.ofNat 16 (bits v (8 * 24) 8)
    let dh := Fin.ofNat 16 (bits v (8 * 25) 8)
    let pos := bits v 128 64
    some { id := (old.map (·.id)).getD s.nextId, list := bits v 0 64, count := bits v 64 64, pos := pos, entry := pos, line := [],
           got := [], bytes := [], open' := gather, ih := ih, dh := dh, idesc := readH s ih, ddesc := readH s dh, esz := 2 ^ bits cfg 0 2,
           elems := bits cfg 2 10 + 1, queue := Fin.ofNat 4 (bits v (8 * 26) 8), fill := fill, parity := parity,
           dropped := (old.map (·.dropped)).getD 0, taken := (old.map (·.taken)).getD 0, written := (old.map (·.written)).getD 0,
           due := s.pipe.wall + 1, waited := 0, commit := s.rcv.commits, sys := false }
  else none

/-- A tile read back: its rows as its word shapes them, busy where the engine works on it. -/
def loadTile (f : Nat → Granule) (busy : Bool) (z : Nat) : Tile :=
  let w := fieldAt f (0x7C00 + 8 * z) 8
  let r := bits w 0 7
  let c := bits w 7 10
  if r = 0 then { Tile.clear with busy := busy }
  else ⟨some (r, c, flag w 17), (List.range r).flatMap (fun i =>
    let v := readChunk f (0x100000 + 0x28000 * z + 2560 * i) 80
    (List.range c).map (fun n => BitVec.ofNat 32 (bits v (32 * n) 32))), busy⟩

/-- The residue sum of a row of cells (R223, R243). -/
def rowResidue (p : Pack) (row : Nat) : BitVec 8 :=
  let n := packNo p
  let w := packBits p
  BitVec.ofNat 8 (((List.range (128 * n)).map (fun j => signExt (bits row (10 * (j / n) + w * (j % n)) w) w)).sum % 127).toNat

/-- A buffer read back, its residue sums computed from its cells (R223). -/
def bufAt (f : Nat → Granule) (b : Nat) : WBuf :=
  let w := fieldAt f (0x7C10 + 8 * b) 8
  let row := fun (k : Nat) => readChunk f (0x150000 + 0xA000 * b + 160 * k) 5
  { cells := Vector.ofFn (fun k : Fin 256 => BitVec.ofNat 1280 (row k.val))
    exps := Vector.ofFn (fun g : Fin 8 => BitVec.ofNat 2048 (readChunk f (0x8000 + 0x800 * b + 256 * g.val) 8))
    pack := (packOf (bits w 0 2)).getD .one
    fmt := (fmtOf (bits w 2 4)).getD .page
    stream := flag w 8
    loading := false
    residue := Vector.ofFn (fun k : Fin 256 => rowResidue ((packOf (bits w 0 2)).getD .one) (row k.val)) }

/-- The scratchpad read back: a granule whose bitmap bit is 0 is zeros (R147). -/
def loadSpad (f : Nat → Granule) (map : Nat) : Memory :=
  (List.range 12288).flatMap (fun g => if map.testBit g then
    ((leBytes 32 (f (0x4000 + g)).toNat).zipIdx.filter (fun b => b.1 != 0)).map (fun b => (32 * g + b.2, b.1)) else [])

/-- The context that an area holds, in the frozen program state (R147). `old` is what the save kept aside. -/
def loadContext (f : Nat → Granule) (area : Word) (s : State) : State :=
  let old : Aside := (s.rcv.asides.find? (fun a => a.area == area)).getD ⟨area, [], [], [], [], none, none, []⟩
  let recs := old.flights.filter (fun g => g.dest.recorded)
  let flags := fieldAt f 6 1
  let phase := fieldAt f 32 8
  let bar := fieldAt f 48 8
  let tpc := BitVec.ofNat 21 (fieldAt f 24 8)
  let map := readChunk f 0x7000 48
  let regs : Regs := { s.regs with
    k := Vector.ofFn (fun i : Fin 8 => word (fieldAt f (0x280 + 8 * i.val) 8))
    h := Vector.ofFn (fun i : Fin 16 => f (0x18 + i.val))
    pat := Vector.ofFn (fun i : Fin 8 => BitVec.ofNat 512 (readChunk f (0x800 + 64 * i.val) 2))
    p := Vector.ofFn (fun i : Fin 48 => BitVec.ofNat 512 (readChunk f (0x1000 + 64 * i.val) 2))
    v := Vector.ofFn (fun i : Fin 32 => BitVec.ofNat 16384 (readChunk f (0x10000 + 2048 * i.val) 64))
    qix := Vector.ofFn (fun i : Fin 4 => Fin.ofNat 4 (fieldAt f (0x7804 + i.val) 1))
    q := Vector.ofFn (fun i : Fin 4 => (List.range (min 4 (fieldAt f (0x7800 + i.val) 1))).map (fun j =>
      (⟨2048, BitVec.ofNat 16384 (readChunk f (0x20000 + 8192 * i.val + 2048 * ((fieldAt f (0x7804 + i.val) 1 + j) % 4)) 64)⟩ : QEntry))) }
  let q : Seq := { s.seq with
    tpc := tpc
    x := Vector.ofFn (fun i : Fin 32 => if i = 0 then 0 else word (fieldAt f (0x40 + 8 * i.val) 8))
    loops := (List.range (min 6 (fieldAt f 7 1))).map (loadLoop f)
    vshape := BitVec.ofNat 20 (fieldAt f 0x140 8)
    vflags := BitVec.ofNat 7 (fieldAt f 0x148 8)
    mflags := BitVec.ofNat 3 (fieldAt f 0x150 8)
    latcon := word (fieldAt f 0x158 8)
    cycle := word (fieldAt f 0x160 8)
    instret := word (fieldAt f 0x168 8)
    gmode := fieldAt f 0x170 8 % 2 == 1
    tcause := BitVec.ofNat 9 (fieldAt f 0x178 8)
    tval := BitVec.ofNat 60 (fieldAt f 0x180 8)
    phase := BitVec.ofNat 48 phase
    parity := flag phase 48
    held := ((List.range 16).filterMap (fun i =>
      let v := readChunk f (0x500 + 32 * (i / 2)) 1 / 2 ^ (128 * (i % 2))
      if bits v 16 8 = 1 then some (⟨BitVec.ofNat 8 v, word (bits v 64 64), slotOfNo (bits v 8 8), false⟩ : FaultRec) else none)) ++ old.faults
    barWait := if flag bar 63 then (scopeOf (bits bar 9 3)).map (fun sc =>
      ⟨sc, Fin.ofNat 512 (bits bar 0 9), BitVec.ofNat 32 (bits bar 16 32), false⟩) else none }
  let s1 : State := { s with regs := regs, seq := q }
  let cfg := fieldAt f 0x7998 8
  let fill := word (fieldAt f 0x7990 8)
  let parity := flag phase 48
  let lv := readChunk f 0x7900 5
  let cpy : Cpy := { s.cpy with
    nest := Vector.ofFn (fun i : Fin 6 => loadLevel (bits lv (192 * i.val) 192))
    fill := fill
    cfg := BitVec.ofNat 14 cfg
    gh := Fin.ofNat 16 (fieldAt f 0x79B9 1)
    sh := Fin.ofNat 16 (fieldAt f 0x79D9 1)
    gather := loadStream f true 0x79A0 s1 cfg fill parity old.gather
    scatter := loadStream f false 0x79C0 s1 cfg fill parity old.scatter
    events := (List.range (min 32 (fieldAt f 0x79E0 1))).map (fun i => word (fieldAt f (0x7A00 + 8 * i) 8))
    lost := BitVec.ofNat 32 (fieldAt f 0x79E4 4)
    cmds := s.cpy.cmds.filter (fun c => c.stage != .held) ++ (old.cmds.take 2).zipIdx.map (fun c =>
      { loadCmd f (if c.2 = 0 then 0x7B00 else 0x7D00) c.1 with commit := s.rcv.commits }) }
  let z := flags / 2 % 2 == 1
  let mat : Mat := { s.mat with
    tiles := Vector.ofFn (fun i : Fin 2 => if z then loadTile f (s.mat.tiles.get i).busy i.val else { Tile.clear with busy := (s.mat.tiles.get i).busy })
    bufs := Vector.ofFn (fun i : Fin 2 => { (if z then bufAt f i.val else WBuf.clear) with loading := (s.mat.bufs.get i).loading })
    map := false
    comSat := if z then BitVec.ofNat 32 (fieldAt f 0x7C20 4) else 0
    comOvf := if z then BitVec.ofNat 32 (fieldAt f 0x7C24 4) else 0
    pendSat := if z then BitVec.ofNat 32 (fieldAt f 0x7C28 4) else 0
    pendOvf := if z then BitVec.ofNat 32 (fieldAt f 0x7C2C 4) else 0 }
  let t : State := { s1 with
    cpy := cpy
    mat := mat
    dict := Vector.ofFn (fun i : Fin 512 => if i = 0 then 0x13 else f (0x100 + i.val))
    mem := withSpad (loadSpad f map) s.mem
    nextId := s.nextId + 65 }
  let fl := (List.range 64).filterMap (fun j => loadRecord f j recs[j]? s)
  let rest := old.flights.filter (fun g => !g.dest.recorded)
  let t := updPipe (fun p => { p with flight := p.flight.filter (·.sys) ++ fl ++ rest }) t
  let t := updOut (fun o => { o with
    heldBack := old.held.map (fun e => { e with commit := s.rcv.commits + 1 })
    pending := o.pending ++ old.pending.map (fun e => { e with commit := s.rcv.commits }) }) t
  let t := updOut (fun o => { o with cnt := recount t }) t
  updRcv (fun r => { r with spadWritten := (List.range 12288).filter (fun g => map.testBit g) }) t

/-- The contents of an area's granule through the translations of the load. -/
def areaGranule (s : State) (xs : List Xlat) (area : Nat) (g : Nat) : Granule :=
  BitVec.ofNat 256 (leNat (readHome (globalKey xs (area + 32 * g)) 32 s))

/-- The lines of a part of the area. -/
def partLines (off n : Nat) : List Nat := (List.range ((n + 63) / 64)).map (fun i => off + 64 * i)

/-- The lines of a saved context's sections but for its scratchpad, given the header (R146): z, w and the exponent stores where its flag
says so, the records and held-back entries that it counts. -/
def sectionLines (flags records held : Nat) : List Nat :=
  [(0x40, 256), (0x140, 128), (0x1C0, 192), (0x280, 64), (0x300, 512), (0x500, 256), (0x800, 512), (0x1000, 3072), (0x2000, 16384),
    (0x6000, 32 * records), (0x6800, 32 * held), (0x7000, 1536), (0x7800, 2048), (0x10000, 65536), (0x20000, 32768),
    (0x40000, 2048 * records)].flatMap (fun p => partLines p.1 p.2)
  ++ (if flags / 2 % 2 = 1 then [(0x8000, 4096), (0x100000, 0x50000), (0x150000, 0x14000)].flatMap (fun p => partLines p.1 p.2) else [])

/-- The lines of the scratchpad's saved granules. -/
def spadLines (map : Nat) : List Nat := (List.range 6144).filterMap (fun i => if bits map (2 * i) 2 = 0 then none else some (0x80000 + 64 * i))

/-- Lines of an area read by CTXLOAD, with the translations used so far: a page that does not translate, or a line that fails its MAC, is a
fault (R147). -/
def readArea (a : Nat) : List Nat → List Xlat → State → Except Trap (List Xlat × State)
  | [], xs, s => .ok (xs, s)
  | l :: r, xs, s =>
    if windowOf (a + l) != .global then .error (trapAt cTranslation .s (a + l))
    else
      let page : Except (Option (BitVec 8 × Nat)) (List Xlat × State) :=
        if xs.any (fun x => x.covers (a + l)) then .ok (xs, s)
        else (translateRange .read 1 (a + l) (a + l + 64) s).map (fun t => (xs ++ t.1, t.2))
      match page with
      | .error none => .error (trapAt cTranslation .s (a + l))
      | .error (some e) => .error (accessTrap .s e)
      | .ok (ys, t) => match lineBad t (a + l) (globalKey ys (a + l)) with
        | some b => .error (trapAt (badCause b) .s (a + l))
        | none => readArea a r ys t

/-- CTXLOAD's checks (R147): the header's first, then those of the sections that it names. Gives the lines read, their translations and the
state after the walks. DESIGN CHOICE (79): an address that is no multiple of 64 KiB is MISALIGNED, one outside global memory
TRANSLATION. -/
def openArea (area : Word) (s : State) : Except Trap (List Nat × List Xlat × State) :=
  let a := area.toNat
  if a % 65536 ≠ 0 then .error (trapAt cMisaligned .s a)
  else match readArea a [0] [] s with
    | .error e => .error e
    | .ok (xs, t) =>
      let f := areaGranule t xs a
      if fieldAt f 0 6 ≠ 0x131585443 then .error ⟨cIllegalOp, word (a % 2 ^ 60), false⟩
      else if fieldAt f 8 4 ≠ s.seq.tenant.toNat then .error (trapAt cPermission .s a)
      else
        let parts := sectionLines (fieldAt f 6 1) (min 64 (fieldAt f 40 1)) (min 64 (fieldAt f 41 1))
        match readArea a parts xs t with
        | .error e => .error e
        | .ok (ys, t) =>
          let spad := spadLines (readChunk (areaGranule t ys a) 0x7000 48)
          match readArea a spad ys t with
          | .error e => .error e
          | .ok (zs, t) => .ok (0 :: parts ++ spad, zs, t)

/-- CTXLOAD's effect, through the translations of its checks. -/
def fillContext (area : Word) (xs : List Xlat) (s : State) : State :=
  let f := areaGranule s xs area.toNat
  let u := loadContext f area s
  let l := (imageOf u (fieldAt f 6 1) u.seq.tpc ++ spadImage u).map (fun e => (e.1, f e.1))
  trackImage area l (updRcv (fun r => { r with area := none }) u)

/-- A context area loaded by the hub, which takes no tokens (R335, R363); each fault leaves the state unchanged. -/
def loadArea (area : Word) (s : State) : Except Trap State :=
  match openArea area s with
  | .error e => .error e
  | .ok (_, xs, t) => .ok (fillContext area xs t)

/-- CTXLOAD (R147); the lines of tier 0 that it reads take their tokens first (R363). -/
def execCtxload (rs1 : Fin 32) (s : State) : Host.Outcome State Fault Refusal :=
  issue .s (systemOnly .s (.ctxload rs1) (fun t =>
    if xEmpty t rs1 then .stall
    else match openArea (readX t rs1) t with
      | .error e => .trap e
      | .ok (ls, xs, u) => issueLines ((ls.map (fun l => globalKey xs ((readX t rs1).toNat + l))).countP isHbm)
          (fun v => .ok (fillContext (readX t rs1) xs v)) u)) s

/-! ### Yield points (R26, R148) -/

/-- Whether the next unit of the program is yield-marked, at its first repetition. -/
def nextMarked (s : State) : Bool :=
  decide (s.seq.reps = 0) && (match s.seq.token with
    | some u => !u.mark
    | none => (match fetch s with
      | .bundle g => !g.getLsbD 1
      | .token t => !flag t 1
      | _ => false))

/-- The operations of the next unit. -/
def nextOps (s : State) : List Instr :=
  match fetch s with
  | .bundle g => (bundleOps g).map (·.2)
  | .token t => (match decodeToken t with
    | .token _ i _ => (bundleOps (s.dict.get i)).map (·.2)
    | _ => [])
  | _ => []

/-- Whether an operation stalls its bundle as a wait of a yield point does (R148): WAITGE or a fence. -/
def waitsAt (s : State) (i : Instr) : Bool :=
  let t := openCycle s
  let stalls := fun (r : Issued) => match r with | .stall | .wait _ => true | _ => false
  match i with
  | .waitge a b => stalls (waitgeBody a b t)
  | .fence k o => stalls (fenceBody k o.scope o.paths o.hmask t)
  | .fenceS _ => stalls (fenceBody .sc .die 1 0xFFFF t)
  | .errfence p h => stalls (errfenceBody p h t)
  | _ => false

/-- Whether the next unit holds a NEXTITEM. -/
def nextTakes (s : State) : Bool := (nextOps s).any (fun i => match i with | .nextitem _ => true | _ => false)

/-- Whether the program stands at a yield point (R26, R148): before a marked unit that has not been held up by something else,
in a marked wait, or before a NEXTITEM. -/
def yieldPoint (s : State) : Bool :=
  match s.seq.barWait with
  | some b => b.mark
  | none =>
    (nextMarked s && (!s.pipe.tried || (nextOps s).any (waitsAt s)))
      || nextTakes s

/-! ### Pre-emption on the core (R148) -/

/-- The hub requests a pre-emption of the running context (R148). -/
def execPreemptRequest (area : Word) (s : State) : Host.Outcome State Fault Refusal :=
  .next (if s.seq.ctx.isSome && s.seq.preempt.isNone then
    updSeq (fun q => { q with preempt := some ⟨s.pipe.wall, area, 0, false⟩ }) s else s)

/-- A pending move of the context's launch is cancelled. -/
def cancelMove (s : State) : State :=
  updHub (fun h => { h with launches := h.launches.map (fun l =>
    if s.seq.ctx.any (fun c => c.launch == l.id) then { l with move := none } else l) }) s

/-- At a yield point after the request the core stops issue and will save without z and w (R148). In a rerun it does not land
(R304). One that lands at a NEXTITEM cancels a move that is pending there (R338). -/
def execVoluntaryPreempt (s : State) : Host.Outcome State Fault Refusal :=
  .next (match s.seq.preempt with
  | some p =>
    if !p.forced && s.seq.run == .running && !atSystem s && s.rcv.rerun.isNone && yieldPoint s then
      updRcv (fun r => { r with saveAcc := none }) (updSeq (fun q => { q with run := .saving false }) (if nextTakes s then cancelMove s else s))
    else s
  | none => s)

/-- No yield point within `yieldbound` (R148): the trap YIELD_OVERRUN, held while a handler runs. -/
def execYieldOverrun (s : State) : Host.Outcome State Fault Refusal :=
  .next (match s.seq.preempt with
  | some p =>
    if !p.forced && s.seq.run == .running && (s.seq.heldOverrun || decide (s.seq.yieldbound.toNat ≤ p.waited)) && s.rcv.rerun.isNone then
      if atSystem s then updSeq (fun q => { q with heldOverrun := true }) s
      else takeTrap ⟨cYieldOverrun, word ((s.pipe.wall - p.at') % 2 ^ 32), false⟩
        (updSeq (fun q => { q with preempt := some { p with forced := true }, heldOverrun := false }) s)
    else s
  | none => s)

/-- A saved context has left the core, which is free for another (R335): what was saved, and whether z and w are in it. Its streams and
held commands, and what waits for them, are in the save (R281). -/
def leaveSaved (forced : Bool) (s : State) : State :=
  let s := hubWaits s
  let area := (s.seq.preempt.map (·.area)).getD 0
  let l := (s.seq.ctx.map (·.launch)).getD 0
  let s := updHub (fun h => { h with saved := h.saved.filter (fun v => !(v.launch == l && v.core == pkgIndex s)) ++ [⟨l, pkgIndex s, area, forced, false, s.seq.item, s.seq.firstItem, s.out.grants⟩] }) s
  toPool [pkgIndex s] (updRcv (fun r => { r with saveAcc := none, ckpts := [] })
    (updPipe (fun p => { p with flight := [] })
      (updOut (fun o => { o with heldBack := [], pending := [] }) (updCpy (fun _ => Cpy.afterReset) (updSeq (fun q => { q with run := .idle, level := .program, ctx := none, preempt := none, heldOverrun := false, item := none, barWait := none }) s)))))

/-- One wall cycle of a pre-emption's save (R148): once everything before it is done the image leaves through the Paddock, and
once all of it has drained the core is free. A fault of the save is a deferred one of the program. -/
def saveStep (s : State) : State :=
  match s.seq.run with
  | .saving true => if drained s && countsIdle s && !saveWaits s then leaveSaved true s else hasten 0xFFFF s
  | .saving false =>
    if s.rcv.saveAcc.isSome then (if drained s && countsIdle s then leaveSaved false s else s)
    else if !saveReady s then hasten 0xFFFF s
    else match emitSave .d 0 (tpcOf s.seq.pc s.seq.reps) ((s.seq.preempt.map (·.area)).getD 0) s with
      | .ok (some t) => t
      | .ok none => s
      | .error e => engineFault .d false false s.rcv.commits e (updSeq (fun q => { q with run := .running }) s)
  | _ => s

/-! ### The background write-back (R336) -/

/-- The core's slot of its launch's context area (R321). -/
def slotAddrOf (s : State) : Option Word :=
  (ctxLaunch s).map (fun l => word (l.area.toNat + pkgIndex s * 0x200000))

/-- The granules that a write-back may write: of a register, the dictionary or the scratchpad, that differ from the slot's. -/
def staleGranules (s : State) (area : Word) : List (Nat × Granule) :=
  let l := (imageOf s 0 (tpcOf s.seq.pc s.seq.reps)).filter (fun e => decide (2 ≤ e.1) && decide (e.1 < 0x300) || decide (0x800 ≤ e.1 ∧ e.1 < 0x1000))
    ++ spadImage s
  changed s area l

/-- Whether the outbound port and the D engine are idle. -/
def backgroundIdle (s : State) : Bool :=
  s.out.port.isEmpty && s.cpy.cmds.all (fun c => c.stage == .held) && s.cpy.gather.isNone && s.cpy.scatter.isNone

/-- Whether the core holds a context that is not being saved: it writes back also while a handler runs, and while it drains or moves. -/
def betweenSaves (s : State) : Bool := match s.seq.run with | .running | .draining | .moving _ => true | _ => false

/-- The core writes one changed granule of its context to its slot (R336): it counts on no counter and is not folded. -/
def execBackgroundWriteback (granule : Nat) (s : State) : Host.Outcome State Fault Refusal :=
  .next (match slotAddrOf s with
  | none => s
  | some area =>
    if !backgroundIdle s || !betweenSaves s then s
    else match (staleGranules s area).find? (fun e => e.1 == granule) with
      | none => s
      | some e =>
        let n := fresh s
        (match writeGranules .d n.1 area.toNat [e] n.2 with
         | .ok (some t) => trackImage area [e] (updOut (fun o => { o with port := o.port.map (fun x => if x.acc == n.1 then { x with quiet := true } else x) }) t)
         | _ => s))

/-- The write-back of an idle cycle: which of the changed granules goes is free. -/
def writebackStep (s : State) : State :=
  match slotAddrOf s with
  | none => s
  | some area =>
    if !backgroundIdle s || !betweenSaves s then s
    else
      let l := staleGranules s area
      let d := drawChoice s
      match l[d.1 % max 1 l.length]? with
      | none => s
      | some e => (match execBackgroundWriteback e.1 d.2 with | .next t => t | _ => s)

end Sys2Proof.Machine
end

