-- ==== Sys2Proof/Machine/Outbound.lean ====
section
/-! DEFINITION. The way out of the core and back: the outbound port, the Paddock and the performing of what left it (R18, R93,
R95, R101 to R107, R169 to R171), barriers, stage queues and locks (R129, R177, R325), and the arrival of results (R48 to R50,
R142, R414). -/

namespace Sys2Proof.Machine

open Sys2Proof

/-! ### The outbound port (R18, R300, R363) -/

/-- Bytes held in the Paddock. -/
def paddockBytes (s : State) : Nat := (s.out.paddock.map (fun e => entrySize e.entry)).sum

/-- Lines of tier 0 for which an entry takes tokens (R363). -/
def entryTokens (s : State) (e : OutEntry) : Nat :=
  if !throttled s then 0
  else match e.body with
    | .store _ key _ => one (isHbm key)
    | .block _ key _ _ => if isHbm key then 64 else 0
    | .effect (.atomic _ key _ _ _ _ _) => one (isHbm key)
    | .effect (.copyInc _ _ key _ _) => one (isHbm key)
    | .effect (.scatterInc _ _ key _ _) => one (isHbm key)
    | _ => 0

/-- Whether an entry is a held-back effect. -/
def isEffect (e : OutEntry) : Bool := match e.body with | .effect _ => true | _ => false

/-- The first entry that the port can pass now, with what stands before it: an HBM request without its tokens waits, later HBM
requests and effects wait behind it, and other stores pass (R363). -/
def portPick (s : State) : List OutEntry → List OutEntry → Bool → Option (List OutEntry × OutEntry × List OutEntry)
  | _, [], _ => none
  | before, e :: r, blocked =>
    let n := entryTokens s e
    let short := decide (s.out.tokens + s.out.paid < n)
    if blocked && (decide (0 < n) || isEffect e) then portPick s (before ++ [e]) r true
    else if short then portPick s (before ++ [e]) r true
    else some (before, e, r)

/-- Whether the port has an HBM request that waits for a token. -/
def portShort (s : State) : Bool := s.out.port.any (fun e => decide (s.out.tokens + s.out.paid < entryTokens s e))

/-- Tokens taken for an entry. -/
def payTokens (n : Nat) (s : State) : State :=
  if n = 0 then s
  else updOut (fun o => { o with tokens := o.tokens - (n - o.paid), paid := 0, spent := o.spent || decide (o.tokens ≤ n - o.paid) }) s

/-- The counts of an access's entry that is performed at its scopes, in one case for each (R170, R171): a scatter counts each
entry, every other access once. -/
def leaveDie (e : OutEntry) (s : State) : State :=
  if e.quiet || isEffect e then s
  else if e.path = .g then cntWriteDie .g e.h s
  else if accBusy s e.acc || accLeft s e.acc .die || s.out.refusals.any (fun r => r.id == e.acc && r.cnt.isSome) then s
  else cntWriteDie e.path e.h s

def leaveHome (e : OutEntry) (s : State) : State :=
  if e.quiet || isEffect e then s
  else if e.path = .g then cntWriteHome .g e.h s
  else if accBusy s e.acc || accLeft s e.acc .pkg || s.out.refusals.any (fun r => r.id == e.acc && r.cnt.isSome) then s
  else cntWriteHome e.path e.h s

/-- Whether an entry belongs to a run of the rerun rule (R304). -/
def inRun (s : State) (k : RunKind) (e : OutEntry) : Bool :=
  match s.rcv.rerun with | some r => r.kind == k && decide (r.base ≤ e.commit) | none => false

/-- Clones and zero blocks are not in flight once they left: their bytes count in a dry run as any store's (R304, R305). -/
def dropBytes (e : OutEntry) : Nat := match e.body with | .effect _ => 0 | .block _ _ bs _ => bs.length | _ => entrySize e

/-- A store or effect passes the outbound port and enters the Paddock (R18, R300); in a dry run it is dropped there (R304). -/
def execPaddockEntry (s : State) : Host.Outcome State Fault Refusal :=
  .next (match portPick s [] s.out.port false with
  | none => s
  | some (before, e, after) =>
    if 64 < s.out.portUsed + entrySize e ∨ 32768 < paddockBytes s + entrySize e then s
    else
      let t := payTokens (entryTokens s e) (updOut (fun o => { o with port := before ++ after, portUsed := o.portUsed + entrySize e }) s)
      if inRun s .dry e then
        leaveHome e (leaveDie e (updRcv (fun r => { r with rerun := r.rerun.map (fun x => { x with dropped := x.dropped + dropBytes e }) }) t))
      else updOut (fun o => { o with paddock := o.paddock ++ [⟨e, s.pipe.wall⟩] }) t)

/-- Whether the oldest entry of the Paddock leaves now (R18): 512 cycles after it entered, unless a confirm run holds it. -/
def releaseDue (s : State) : Bool :=
  match s.out.paddock with
  | e :: _ => decide (e.entered + Config.paddockDelay ≤ s.pipe.wall) && !inRun s .confirm e.entry
  | [] => false

/-- The oldest entry leaves the Paddock (R18); when it reaches the die coherence point and its home is free. -/
def execPaddockRelease (s : State) : Host.Outcome State Fault Refusal :=
  .next (match s.out.paddock with
  | e :: r =>
    if releaseDue s then
      let a := drawWait s
      let b := drawWait a.2
      let t := updOut (fun o => { o with paddock := r
                                         leaving := o.leaving ++ [⟨e.entry, s.pipe.wall + a.1, s.pipe.wall + a.1 + b.1, false⟩] }) b.2
      match e.entry.body with
      | .effect (.held c _ _) => if t.cpy.cmds.any (fun x => x.id == c && (match x.kind with | .coll _ _ _ _ _ => true | _ => false)) then
          (match execAddintCopyStart c t with | .next u => u | _ => t) else t
      | _ => t
    else s
  | [] => s)

/-- A committed effect whose writes are performed leaves the pending list (R124). -/
def execPendingListRelease (n : Nat) (s : State) : Host.Outcome State Fault Refusal :=
  .next (match s.out.pending.find? (fun e => e.id == n) with
  | some e => if effectReady s e then
      updOut (fun o => { o with pending := o.pending.filter (fun x => x.id != n), port := o.port ++ [e] }) s else s
  | none => s)

/-! ### Performing released writes (R93, R95, R101, R169, R373) -/

/-- The released entries before one. -/
def earlier (s : State) (n : Nat) : List Leaving := s.out.leaving.takeWhile (fun e => e.entry.id != n)

/-- A released entry. -/
def leavingAt (s : State) (n : Nat) : Option Leaving := s.out.leaving.find? (fun e => e.entry.id == n)

/-- A released entry is gone. -/
def dropLeaving (n : Nat) (s : State) : State := updOut (fun o => { o with leaving := o.leaving.filter (fun e => e.entry.id != n) }) s

/-- The lines that an entry writes (R101). -/
def entryLines (e : OutEntry) : List Nat :=
  match e.body with
  | .store _ key bs => linesOf key bs.length
  | .unlock va bs => linesOf va bs.length
  | .block _ key _ _ => linesOf key 4096
  | .effect _ => []

/-- Whether a write may be performed at die scope: its time has come, earlier entries of its lines are performed there, and for
STUL every earlier entry (R101, R133). -/
def dieReady (s : State) (e : Leaving) : Bool :=
  decide (e.dueDie ≤ s.pipe.wall) && (earlier s e.entry.id).all (fun x =>
    match e.entry.body with
    | .unlock _ _ => x.atDie
    | _ => x.atDie || !(entryLines x.entry).any (fun l => (entryLines e.entry).contains l))

/-- Whether a write that is performed at die scope may be performed at its home. -/
def homeReady (s : State) (e : Leaving) : Bool :=
  e.atDie && decide (e.dueHome ≤ s.pipe.wall) && (earlier s e.entry.id).all (fun x =>
    !(entryLines x.entry).any (fun l => (entryLines e.entry).contains l))

/-- Whether the target of a die-window write refuses it (R169). -/
def refusedKey (s : State) (key : Nat) : Bool := match windowOf key with | .die n _ => !tagMatches s n | _ => false

/-- A refusal sets out for the core, unless its context was killed (R109, R169): the counts that leave, and the result that fills with 0, as
it arrives (R414). -/
def refuse (e : OutEntry) (a : Nat) (cnt : Option (Path × Fin 16)) (flight : Option Nat) (s : State) : State :=
  let d := drawWait s
  let f : FaultRec := ⟨cPermission, tvalAddr e.slot a, e.slot, e.sys⟩
  if s.seq.ctx.isNone then s else updOut (fun o => { o with refusals := o.refusals ++ [⟨e.acc, s.pipe.wall + d.1, f, cnt, flight⟩] }) d.2

/-- A write is dropped and its core told (R373, R411), unless its context was killed (R109). -/
def dropWrite (c : BitVec 8) (e : OutEntry) (a : Nat) (s : State) : State :=
  let s := noteFault c a s
  if s.seq.ctx.isNone then s else raiseDeferred ⟨c, tvalAddr e.slot (if c = cIntegrity then a / 64 * 64 else a), e.slot, e.sys⟩ s

/-- How a write to a tier fails: the CXL device is gone (R411), or a partial write meets a line that fails its checks (R373,
R374). -/
def writeFails (s : State) (key n : Nat) : Option (BitVec 8) :=
  if tierKey 1 0 ≤ key ∧ key < tierKey 2 0 ∧ cxlLost s = true then some cUncorrectable
  else if key % 64 = 0 ∧ n % 64 = 0 then none
  else match badKey s (linesOf key n) with
    | some (_, .integrity) => some cIntegrity
    | _ => none

/-- A store's bytes performed: in a bank, or at the die coherence point of a tier's line with its record (R95, R373). -/
def landStore (e : OutEntry) (va key : Nat) (bs : List Byte) (s : State) : State :=
  if key < tierBase then
    let k := landKey s key
    if k < Config.scratchBytes then writeKept k bs s else performWrite none key bs s
  else match writeFails s key bs.length with
    | some c => dropWrite c e va s
    | none => match recordWrite va key bs.length s with
      | some t => performWrite (some (e.path, e.commit)) key bs t
      | none => dropWrite cIntegrity e va s

/-- A whole crypto block performed (R354): a clone takes its source's record, shared at both ends (R373); a zero initialisation
sets the record to "reads as zero". -/
def landBlock (e : OutEntry) (key : Nat) (bs : List Byte) (src : Option CtrRec) (s : State) : State :=
  let b := blockOf key
  let t := performWrite (some (e.path, e.commit)) key bs s
  match src with
  | some r => if r.zero then setRec { r with block := b } t
      else setRec { r with block := b, shared := true } (setRec { recAt t r.block with shared := true } t)
  | none => setRec { recAt t b with zero := true } t

/-- A released write is performed at die scope, then at its home; a write to a bank is performed at every scope at once (R95,
R101). What the target refuses is dropped (R169). -/
def execStorePerform (n : Nat) (s : State) : Host.Outcome State Fault Refusal :=
  .next (match leavingAt s n with
  | none => s
  | some l =>
    let e := l.entry
    let bank := fun (a : Nat) (t : State) => leaveHome e (leaveDie e (dropLeaving n t)) |> fun u => if refusedKey s a then s else u
    match e.body with
    | .effect _ => s
    | .unlock va bs =>
      if !dieReady s l then s
      else if refusedKey s va then refuse e va (some (e.path, e.h)) none (dropLeaving n s)
      else
        let p := spadPlace s va
        bank va (clearLock p.1 p.2 (landStore e va va bs s))
    | .store va key bs =>
      if key < tierBase then
        (if !dieReady s l then s
         else if refusedKey s key then
           (if s.out.refusals.any (fun r => r.id == e.acc) && e.path != .g then dropLeaving n s
            else refuse e va (some (e.path, e.h)) none (dropLeaving n s))
         else bank key (landStore e va key bs s))
      else if l.atDie then
        (if homeReady s l then leaveHome e (dropLeaving n (reachHome key bs.length s)) else s)
      else if dieReady s l then
        leaveDie e (updOut (fun o => { o with leaving := o.leaving.map (fun x => if x.entry.id == n then { x with atDie := true } else x) })
          (landStore e va key bs s))
      else s
    | .block _ key bs src =>
      if l.atDie then (if homeReady s l then leaveHome e (dropLeaving n (reachHome key 4096 s)) else s)
      else if dieReady s l then
        leaveDie e (updOut (fun o => { o with leaving := o.leaving.map (fun x => if x.entry.id == n then { x with atDie := true } else x) })
          (landBlock e key bs src s))
      else s)

/-- A die-window refusal returns: the access leaves its counts, and the core raises a deferred PERMISSION (R169, R171). -/
def execTagRefusal (n : Nat) (s : State) : Host.Outcome State Fault Refusal :=
  .next (match s.out.refusals.find? (fun r => r.id == n && decide (r.due ≤ s.pipe.wall)) with
  | none => s
  | some r =>
    let t := updOut (fun o => { o with refusals := o.refusals.erase r }) s
    let t := match r.cnt with
      | some (p, h) => if p = .g then cntWriteDone p h t
        else if accBusy t n then t
        else
          let u := if accLeft t n .die then t else cntWriteDie p h t
          if accLeft t n .pkg then u else cntWriteHome p h u
      | none => t
    let t := match r.flight with | some f => deliver f (.x 0) t | none => t
    raiseDeferred r.fault t)

/-! ### Performing held-back effects (R102 to R107) -/

/-- Whether a key lies in a page whose copy has been made for a migration that has not switched to it yet (R111, R351). -/
def moving (s : State) (key : Nat) : Bool :=
  s.sys.migrations.any (fun m => m.copied && !m.switched
    && decide (tierKey (ptTier m.leaf0.toNat) (ptPa m.leaf0.toNat) ≤ key) && decide (key < tierKey (ptTier m.leaf0.toNat) (ptPa m.leaf0.toNat) + m.size))

/-- The keys that an effect acts on: of a trust operation, its blocks'. -/
def effectKeys (e : OutEntry) : List Nat :=
  match e.body with
  | .effect (.atomic _ key _ _ _ _ _) => [key]
  | .effect (.relh items _ _) => items.map (·.key)
  | .effect (.copyInc _ _ key _ _) => [key]
  | .effect (.scatterInc _ _ key _ _) => [key]
  | .effect (.trust _ _ _ _ _ keys _) => keys.map (4096 * ·)
  | _ => []

/-- Whether a released effect may be performed: its time has come, every earlier entry is performed at its scope (R102), and its page
is not between two copies (R111). -/
def effectDue (s : State) (n : Nat) (sc : Scope) : Bool :=
  match leavingAt s n with
  | some l => decide (l.dueHome ≤ s.pipe.wall) && (earlier s n).all (fun x => !scopeFar sc && x.atDie) && !(effectKeys l.entry).any (moving s)
  | none => false

/-- A value on its way to a result: it arrives after a free time (R50, R103). Checkpoints and a saved context that hold the
result get it as well (R298, R306). -/
def bring (id : Nat) (v : FVal) (s : State) : State :=
  let d := drawWait s
  let fill := fun (l : List Flight) => l.map (fun f => if f.id == id then { f with val := v, due := s.pipe.wall + d.1 } else f)
  updPipe (fun p => { p with flight := fill p.flight })
    (updRcv (fun r => { r with ckpts := r.ckpts.map (fun c => { c with flight := fill c.flight })
                               asides := r.asides.map (fun a => { a with flights := fill a.flights }) }) d.2)

/-- What a read-modify-write at its home meets: a bad line (R374, R308). -/
def homeBad (s : State) (va key n : Nat) : Option (BitVec 8) :=
  match rangeBad s va ((List.range n).map (fun i => landKey s (key + i))) with
  | some (_, b) => some (badCause b)
  | none => none

/-- n bytes replaced at their home in one step (R90, R103, R373): the old value sets out for the result, if one waits for it. A fault drops
the operation and is raised at the core, where the result fills with 0 as it is raised (R414). -/
def rmwHome (e : OutEntry) (va key n : Nat) (flight : Option Nat) (f : List Byte → List Byte) (s : State) : State :=
  let give := fun (k : Nat → State → State) (t : State) => match flight with | some x => k x t | none => t
  let fails := fun (c : BitVec 8) => give (fun x => deliver x (.x 0)) (dropWrite c e va s)
  if refusedKey s key then refuse e va none flight s
  else match homeBad s va key n with
    | some c => fails c
    | none =>
      let old := readHome key n s
      let k := landKey s key
      let sent := give (fun x => bring x (.x (wordOf (signExt (leNat old) (8 * n)))))
      if k < Config.scratchBytes then sent (writeKept k (f old) s)
      else match recordWrite va key n s with
        | some t => sent (writeHome (some (e.path, e.commit)) key (f old) t)
        | none => fails cIntegrity

/-- A progress counter raised by an amount, saturating (R104). -/
def counterUp (e : OutEntry) (a : Word) (key amount : Nat) (s : State) : State :=
  rmwHome e a.toNat key 8 none (fun bs => leBytes 8 (min (leNat bs + amount) (2 ^ 64 - 1))) s

/-- The increment of a copy or of a scatter stream is performed (R105, R275). -/
def execCounterIncrementPerform (n : Nat) (s : State) : Host.Outcome State Fault Refusal :=
  .next (match (leavingAt s n).map (·.entry) with
  | some e => (match e.body with
    | .effect (.copyInc _ a key amount sc) => if effectDue s n sc then counterUp e a key amount (dropLeaving n s) else s
    | .effect (.scatterInc _ a key amount sc) => if effectDue s n sc then counterUp e a key amount (dropLeaving n s) else s
    | _ => s)
  | none => s)

/-- The widest scope of a release's handles. -/
def widest (l : List RelItem) : Scope := l.foldl (fun sc i => widerScope sc i.scope) .core

/-- REL.H's entry is performed (R175): 1 is added to each counter, in ascending handle order. -/
def execRelHPerform (n : Nat) (s : State) : Host.Outcome State Fault Refusal :=
  .next (match (leavingAt s n).map (·.entry) with
  | some e => (match e.body with
    | .effect (.relh items _ _) =>
      if effectDue s n (widest items) then items.foldl (fun t i => counterUp e i.addr i.key 1 t) (dropLeaving n s) else s
    | _ => s)
  | none => s)

/-- An atomic's new value from the old one (R132); n is its bits. -/
def amoVal (op : AmoOp) (n : Nat) (old b c : Nat) : Nat :=
  let lt := decide (signExt old n < signExt b n)
  match op with
  | .add => (old + b) % 2 ^ n
  | .and => old &&& b
  | .or => old ||| b
  | .xor => old ^^^ b
  | .min => if lt then old else b
  | .max => if lt then b else old
  | .minn => min old b
  | .maxn => max old b
  | .swap => b
  | .cas => if old = c then b else old

/-- An atomic is performed at the home of its location (R103, R132); a result sets out for its register. -/
def execAtomicPerform (n : Nat) (s : State) : Host.Outcome State Fault Refusal :=
  .next (match (leavingAt s n).map (·.entry) with
  | some e => (match e.body with
    | .effect (.atomic a key op wide b c flight) =>
      if !effectDue s n .pkg then s
      else
        let w := if wide then 8 else 4
        rmwHome e a.toNat key w flight (fun bs => leBytes w (amoVal op (8 * w) (leNat bs) (b.toNat % 2 ^ (8 * w)) (c.toNat % 2 ^ (8 * w))))
          (dropLeaving n s)
    | _ => s)
  | none => s)

/-! ### Barriers (R129) -/

/-- A barrier stored. -/
def setBarrier (b : Barrier) (s : State) : State :=
  let same := fun (x : Barrier) => x.launch == b.launch && x.stage == b.stage && x.scope == b.scope && x.inst == b.inst && x.id == b.id
  updHub (fun h => { h with barriers := b :: h.barriers.filter (fun x => !same x) }) s

/-- A core's arrival (R129): a second one before completion counts toward the next generation. -/
def arriveAt (core : Nat) (sc : Scope) (id : Fin 512) (s : State) : State :=
  let b := barrierOf s core sc id
  setBarrier (if b.arrived.contains core then { b with next := b.next ++ [core] } else { b with arrived := b.arrived ++ [core] }) s

/-- A held-back barrier arrival is performed (R102, R129): this core's once it may be, another core's as its hub tells. At scope
pod an arrival needs every peer package that takes part to be admitted (R393). -/
def execBarrierArrival (core : Nat) (scope : Scope) (id : Fin 512) (s : State) : Host.Outcome State Fault Refusal :=
  .next (if core = pkgIndex s then
      (match s.out.leaving.find? (fun e => match e.entry.body with | .effect (.bar sc i) => sc == scope && i == id | _ => false) with
       | some l =>
         if !effectDue s l.entry.id scope then s
         else
           let peers := if scope = .pod then ((remoteCrew s).map packageOf).eraseDups else []
           if peers.any (fun p => !admitted s p) then
             raiseDeferred ⟨cPermission, tvalAddr .s 0, .s, l.entry.sys⟩ (dropLeaving l.entry.id s)
           else arriveAt core scope id (countSent peers 1 (dropLeaving l.entry.id s))
       | none => s)
    else if (crewOf s core).isSome then arriveAt core scope id s else s)

/-- Whether a stage move takes the core out of a barrier's crew: from its NEXTITEM on it takes no part in that crew's barriers.
DESIGN CHOICE (92). -/
def leaves (s : State) (b : Barrier) : Bool :=
  (match s.seq.run with | .moving _ => true | _ => false) && s.seq.ctx.any (fun c => c.launch == b.launch && c.stage == b.stage)

/-- The participants of a barrier: the crew of its stage in the scope instance, at scope pod with the stage's cores on other
packages (R129). -/
def barrierCrew (s : State) (b : Barrier) : List Nat :=
  match s.hub.launches.find? (fun l => l.id == b.launch) with
  | some l =>
    let crew := ((l.stages[b.stage]?.map (·.crew)).getD []).filter (fun c => c != pkgIndex s || !leaves s b)
    let far := match b.scope with | .pod => (l.remote.filter (fun r => r.1 == b.stage)).map (·.2) | _ => []
    (crew ++ far).filter (fun c => scopeInst c b.scope == b.inst)
  | none => [pkgIndex s]

/-- Whether a generation lies before another, both modulo 2^32. -/
def genPassed (mine now : BitVec 32) : Bool := mine != now && decide ((now - mine).toNat < 2 ^ 31)

/-- Whether a wait's generation has passed. -/
def waitOver (s : State) (w : BarWait) : Bool := genPassed w.gen (barrierOf s (pkgIndex s) w.scope w.id).gen

/-- The core's wait ends when its generation has passed: an acquire of everything (R129). -/
def endBarWait (s : State) : State :=
  let t := match s.seq.barWait with
    | some w => if waitOver s w then acquire w.scope 0x1F 0xFFFF (updSeq (fun q => { q with barWait := none }) s) else s
    | none => s
  match t.seq.handlerWait with
  | some w => if waitOver t w then acquire w.scope 0x1F 0xFFFF (updSeq (fun q => { q with handlerWait := none }) t) else t
  | none => t

/-- A generation completes when every participant has arrived (R129). -/
def execBarrierComplete (scope : Scope) (id : Fin 512) (s : State) : Host.Outcome State Fault Refusal :=
  let done := fun (b : Barrier) => b.scope == scope && b.id == id && !b.arrived.isEmpty && (barrierCrew s b).all (fun c => b.arrived.contains c)
  .next (endBarWait (updHub (fun h => { h with barriers := h.barriers.map (fun b =>
    if done b then { b with gen := b.gen + 1, arrived := b.next, next := [] } else b) }) s))

/-! ### Stage queues (R325) -/

/-- Bytes within one page of a virtual function written by the hub at pkg, under that function's key; a page that migrates makes them wait
(R111). -/
def hubStore (vf va : Nat) (bs : List Byte) (s : State) : State :=
  match s.hub.vfs.find? (fun v => v.vf == vf) with
  | none => s
  | some v =>
    match walkVf v s va with
    | .ok x =>
      let key := globalKey [x] va
      if ptFrozen x.w0.toNat then updSys (fun m => { m with stalled := m.stalled ++ [⟨vf, va, bs, none, none⟩] }) s
      else (match recordLines (v.slot.getD 0) (ptLpid x.w1.toNat, (va - x.va) / 4096) key bs.length (markDirty x s) with
       | some t => writeHome none key bs t
       | none => s)
    | .error _ => s

/-- A word of a launch's memory written by the hub. -/
def hubWrite (launch va v : Nat) (s : State) : State :=
  match s.hub.launches.find? (fun l => l.id == launch) with
  | some l => hubStore l.vf va (leBytes 8 v) s
  | none => s

/-- The stage that produces for a queue has ended. -/
def producerEnded (s : State) (launch q : Nat) : Bool :=
  match s.hub.launches.find? (fun l => l.id == launch) with
  | some l => l.stages.all (fun st => st.outq != some q || st.ended)
  | none => false

/-- The waiting core that the round robin serves next: the first at or after a point, else the lowest. -/
def nextTaker (start : Nat) (l : List Nat) : Option Nat :=
  let lo := fun (l : List Nat) => l.foldl (fun (m : Option Nat) c => match m with | some x => some (min x c) | none => some c) none
  match lo (l.filter (fun c => decide (start ≤ c))) with
  | some c => some c
  | none => lo l

/-- A value awaited by a saved context of this core (R306, R335): the hub puts it into the save, and remembers the slot. -/
def giveSaved (launch : Nat) (i : Option ItemSlot) (v : Word) (s : State) : State :=
  let mine := s.hub.saved.filter (fun e => e.launch == launch && e.core == pkgIndex s)
  let areas := mine.map (·.area)
  let fill := fun (f : Flight) => if f.val == .awaited .item then { f with val := .x v, variable' := false, acc := none } else f
  updHub (fun h => { h with saved := h.saved.map (fun e => if mine.contains e then { e with item := i } else e) })
    (updRcv (fun r => { r with asides := r.asides.map (fun a => if areas.contains a.area then { a with flights := a.flights.map fill } else a) }) s)

/-- An item handed to this core: its NEXTITEM's result, the slot that it holds from then on, and the memory of it for a
re-execution of that NEXTITEM (R298, R325). -/
def takeItem (launch : Nat) (i : Option ItemSlot) (v : Word) (s : State) : State :=
  if !s.seq.ctx.any (fun c => c.launch == launch) then giveSaved launch i v s
  else match s.pipe.flight.find? (fun f => f.val == .awaited .item) with
  | none => s
  | some f =>
    let has := fun (c : Ckpt) => c.flight.any (fun g => g.id == f.id)
    let first := (s.rcv.ckpts.filter has).foldl (fun (m : Option Nat) c => some (match m with | some x => min x c.commit | none => c.commit)) none
    let s := updRcv (fun r => { r with ckpts := r.ckpts.map (fun c => if has c then { c with seq := { c.seq with item := i } } else c) })
      (updSeq (fun q => { q with item := i }) s)
    let s := match i, first with
      | some x, some n => updOut (fun o => { o with handed := o.handed ++ [(n - 1, x)] }) s
      | _, _ => s
    bring f.id (.x v) s

/-- The hub hands the next published slot to a waiting core in round robin, or ends the stream (R325). -/
def execNextitemHandout (launch queue : Nat) (s : State) : Host.Outcome State Fault Refusal :=
  .next (match stageQueue s launch queue with
  | none => s
  | some q =>
    match nextTaker q.rr q.takers with
    | none => s
    | some c =>
      if q.taken < q.tail then
        let t := updQueue launch queue (fun k => { k with taken := k.taken + 1, takers := k.takers.filter (fun x => x != c), rr := c + 1 }) s
        if c = pkgIndex s then
          takeItem launch (some ⟨launch, queue, q.taken, word (slotAddr q q.taken)⟩) (word (slotAddr q q.taken)) t else t
      else if producerEnded s launch queue then
        let t := updQueue launch queue (fun k => { k with takers := k.takers.filter (fun x => x != c) }) s
        if c = pkgIndex s then takeItem launch none 0 t else t
      else s)

/-- The hub grants a free slot of the ring to the EMIT that asked first (R325); the core's grant is part of its checkpoints
(R131). -/
def execEmitGrant (launch queue : Nat) (s : State) : Host.Outcome State Fault Refusal :=
  .next (match stageQueue s launch queue with
  | none => s
  | some q =>
    match q.emitters with
    | [] => s
    | (_, c) :: r =>
      if q.granted - q.head < q.entries then
        let t := updQueue launch queue (fun k => { k with granted := k.granted + 1, emitters := r }) s
        if c = pkgIndex s then
          let g := (launch, queue, q.granted)
          updRcv (fun y => { y with ckpts := y.ckpts.map (fun k => { k with grants := k.grants ++ [g] }) })
            (updOut (fun o => { o with grants := o.grants ++ [g], emitWait := none }) t)
        else t
      else s)

/-- A count over contiguous slots, and the slots beyond. -/
def contiguous : Nat → Nat → List Nat → Nat × List Nat
  | 0, n, l => (n, l)
  | fuel + 1, n, l => if l.contains n then contiguous fuel (n + 1) (l.erase n) else (n, l)

/-- A publish is performed: the tail advances over published slots, and is written at pkg (R131, R325). -/
def publish (launch queue slot : Nat) (s : State) : State :=
  match stageQueue s launch queue with
  | none => s
  | some q =>
    let r := contiguous (q.published.length + 1) q.tail (q.published ++ [slot])
    hubWrite launch (q.base.toNat + 8) r.1 (updQueue launch queue (fun k => { k with tail := r.1, published := r.2 }) s)

/-- The held-back publish of this core, or another core's publish (R131). -/
def execEmitPublish (launch queue slot : Nat) (s : State) : Host.Outcome State Fault Refusal :=
  .next (match s.out.leaving.find? (fun e => match e.entry.body with
      | .effect (.emit l q n _) => l == launch && q == queue && n == slot | _ => false) with
  | some l => if effectDue s l.entry.id .pkg then publish launch queue slot (dropLeaving l.entry.id s) else s
  | none =>
    if (s.out.heldBack ++ s.out.pending ++ s.out.port ++ s.out.paddock.map (·.entry)).any (fun e => match e.body with
        | .effect (.emit l q n _) => l == launch && q == queue && n == slot | _ => false) then s
    else match stageQueue s launch queue with
      | some q => if slot < q.granted ∧ q.tail ≤ slot ∧ q.published.contains slot = false
          ∧ s.out.grants.contains (launch, queue, slot) = false then publish launch queue slot s else s
      | none => s)

/-- A release is performed: the head advances over released slots, and is written at pkg (R325). -/
def releaseSlot (launch queue slot : Nat) (s : State) : State :=
  match stageQueue s launch queue with
  | none => s
  | some q =>
    let r := contiguous (q.released.length + 1) q.head (q.released ++ [slot])
    hubWrite launch q.base.toNat r.1 (updQueue launch queue (fun k => { k with head := r.1, released := r.2 }) s)

/-- The held-back release of this core's item slot, or another core's release (R325). -/
def execItemRelease (launch queue slot : Nat) (s : State) : Host.Outcome State Fault Refusal :=
  .next (match s.out.leaving.find? (fun e => match e.entry.body with
      | .effect (.release l q n _) => l == launch && q == queue && n == slot | _ => false) with
  | some l => if effectDue s l.entry.id .pkg then releaseSlot launch queue slot (dropLeaving l.entry.id s) else s
  | none =>
    if (s.out.heldBack ++ s.out.pending ++ s.out.port ++ s.out.paddock.map (·.entry)).any (fun e => match e.body with
        | .effect (.release l q n _) => l == launch && q == queue && n == slot | _ => false) then s
    else match stageQueue s launch queue with
      | some q => if slot < q.taken ∧ q.head ≤ slot ∧ q.released.contains slot = false
          ∧ (match s.seq.item with | some i => i.launch == launch && i.queue == queue && i.slot == slot | none => false) = false then
          releaseSlot launch queue slot s else s
      | none => s)

/-! ### Locks (R133, R177) -/

/-- Requests queued at a bank. -/
def queuedAt (s : State) (core bank : Nat) : Nat :=
  (s.sys.lockWaits.filter (fun w => w.core == core && w.bank == bank && w.queued)).length

/-- Whether a lock bit is clear, or held by the same owner (R133). -/
def lockFree (s : State) (w : LockWait) : Bool :=
  s.sys.locks.all (fun l => !(l.core == w.core && l.bank == w.bank && l.bit == w.bit) || (l.ownerCtx == w.fromCtx && l.ownerCore == w.fromCore))

/-- An LDL gets its bit: the bit is set, and the doubleword goes to its register; later L-path accesses are ordered after it
(R133). A die-window target of another tenant refuses (R169). DESIGN CHOICE (78): a bit that its owner sets again stays set since the commit
in which it first set it, so that a rollback to a point between the two keeps it. -/
def giveLock (w : LockWait) (s : State) : State :=
  let s := updSys (fun m => { m with lockWaits := m.lockWaits.erase w }) s
  let own := decide (w.fromCore = dieIndex s)
  if own && !tagMatches s w.core then
    match s.pipe.flight.find? (fun f => w.flight == some f.id) with
    | some f =>
      let t := raiseDeferred ⟨cPermission, tvalAddr .s w.addr, .s, f.sys⟩ (deliver f.id (.x 0) s)
      (match f.acc with | some (p, h) => cntReadDone p h t | none => t)
    | none => s
  else
    let same := fun (l : LockBit) => l.core == w.core && l.bank == w.bank && l.bit == w.bit
    let first := ((s.pipe.flight.find? (fun f => w.flight == some f.id)).map (·.commit)).getD s.rcv.commits
    let stamp := match s.sys.locks.find? same with | some l => min l.commit first | none => first
    let mine : LockBit := ⟨w.core, w.bank, w.bit, w.fromCtx, w.fromCore, stamp⟩
    let others := s.sys.locks.filter (fun l => !(l.core == w.core && l.bank == w.bank && l.bit == w.bit))
    let s := updSys (fun m => { m with locks := mine :: others }) s
    match s.pipe.flight.find? (fun f => w.flight == some f.id) with
    | some f =>
      let v := word (leNat (readHome (landKey s w.addr) 8 s))
      let t := match f.acc with | some (p, h) => cntReadDone p h s | none => s
      acquire .die 1 0xFFFF (deliver f.id (.x v) t)
    | none => s

/-- A clear lock bit goes to the oldest request that waits for it at the bank (R177). -/
def execLockGrant (core bank bit : Nat) (s : State) : Host.Outcome State Fault Refusal :=
  .next (match s.sys.lockWaits.find? (fun w => w.core == core && w.bank == bank && w.bit == bit && w.queued) with
  | some w => if lockFree s w then giveLock w s else s
  | none => s)

/-- Requests that reach their bank join its queue of 8, or are tried again 32 cycles later (R177). -/
def execLdlRetry (s : State) : Host.Outcome State Fault Refusal :=
  .next (match s.sys.lockWaits.find? (fun w => !w.queued && decide (w.retryAt ≤ s.pipe.wall)) with
  | some w =>
    let w' := if queuedAt s w.core w.bank < 8 then { w with queued := true } else { w with retryAt := s.pipe.wall + 32 }
    updSys (fun m => { m with lockWaits := m.lockWaits.filter (fun x => x != w) ++ [w'] }) s
  | none => s)

/-! ### Results (R46 to R50, R414) -/

/-- The results of one issue cycle land (R48): what the landings bring to light follows. -/
def execResultLanding (s : State) : Host.Outcome State Fault Refusal :=
  let l := landing s
  .next (settle l.2.1 l.2.2 l.1)

/-- A result whose value has come reaches its destination, or waits for its landing cycle or for TRET (R49, R144). Every live
checkpoint and saved context that holds it gets it too (R298, R306). -/
def arriveWith (f : Flight) (v : FVal) (s : State) : State :=
  let g := { f with val := v, variable' := false, acc := none, due := 0 }
  let fill := fun (l : List Flight) => l.map (fun x => if x.id == f.id then { x with val := v, variable' := false, acc := none, due := 0 } else x)
  let t := updRcv (fun r => { r with ckpts := r.ckpts.map (fun c => { c with flight := fill c.flight })
                                     asides := r.asides.map (fun a => { a with flights := fill a.flights }) }) s
  if f.late && !frozen s f then
    let n := landNotes g
    settle n.1 n.2 (landOne g t)
  else updFlight f.id (fun _ => g) t

/-- A load that ends without its value fills its destination with 0 (R414), and its fault is raised. -/
def arriveFault (f : Flight) (r : ReadInfo) (e : BitVec 8 × Nat) (s : State) : State :=
  let s := arriveWith { f with dup := none, shadow := none } (zeroVal f.dest) (match f.acc with | some (p, h) => cntReadDone p h s | none => s)
  engineFault f.slot r.guarded f.sys f.commit e s

/-- A remote load's bytes arrive (R91, R92, R169, R374), once each of its lines of tier 0 has its token (R363). -/
def arriveLoad (f : Flight) (r : ReadInfo) (keys : List Nat) (sh : LoadShape) (s : State) : State :=
  match payLines (hbmLines keys) f.paid s with
  | (false, p, t) => updFlight f.id (fun f => { f with paid := p }) t
  | (true, _, s) =>
    if (match r.window with | some n => !tagMatches s n | none => false) then arriveFault f r (cPermission, r.va) s
    else match rangeBad s r.va (keys.map (landKey s)) with
      | some (i, b) => arriveFault f r (badCause b, r.va + i) s
      | none =>
        let b := readKeys r.path r.h keys s
        let t := match f.acc with | some (p, h) => cntReadDone p h b.2 | none => b.2
        arriveWith f (shapeVal sh b.1) t

/-- Whether a result can arrive now: a remote load whose time has come, or a value that has come and passed its landing cycle. A value
is there from the wall cycle after its last. While a bundle stalls, which stops contract time, a variable producer's value fills its
destination before its landing cycle too (R50, R51): DESIGN CHOICE (80). -/
def arrivable (s : State) (f : Flight) : Bool :=
  match f.val with
  | .load _ _ => decide (f.due ≤ s.pipe.wall) && outsideRead f
  | v => decide (f.due < s.pipe.wall) && v.present && (f.late || (f.variable' && s.pipe.tried)) && !frozen s f

/-- A late or variable result arrives (R49, R50). -/
def execResultArrival (n : Nat) (s : State) : Host.Outcome State Fault Refusal :=
  .next (match s.pipe.flight.find? (fun f => f.id == n && arrivable s f) with
  | none => s
  | some f =>
    match f.val, f.read with
    | .load cells sh, some r => arriveLoad f r (cells.map (·.1)) sh s
    | v, _ => if v.present then arriveWith { f with late := true } v s else s)

/-- A deferred fault is raised, or held while a handler runs; a held one is delivered, oldest first, once the program would
issue again (R142). -/
def execDeferredTrap (f : FaultRec) (s : State) : Host.Outcome State Fault Refusal :=
  .next (match s.seq.held with
  | g :: r => if g = f && !atSystem s then enterHandler ⟨f.code, f.tval, true⟩ (updSeq (fun q => { q with held := r }) s)
      else raiseDeferred f s
  | [] => raiseDeferred f s)

end Sys2Proof.Machine
end

