-- ==== Sys2Proof/Machine/Rng.lean ====
section
/-! DEFINITION. The random number generator (R368, R369): the noise source with its two continuous health tests, conditioning,
the generator, and the consecutive-failure count. -/

namespace Sys2Proof.Machine

open Sys2Proof

/-- The health tests before their first sample. -/
def Health.start : Health := ⟨none, 0, 0, 0, 0, false⟩

/-- One sample under both tests (R368): 32 identical ones in a row, or 410 of the first sample in a window of 1,024, fail. -/
def healthStep (b : Byte) (h : Health) : Health :=
  let run := if h.last = some b then h.runLen + 1 else 1
  let hits := if h.place = 0 then 1 else if b = h.first then h.hits + 1 else h.hits
  { last := some b, runLen := run, first := if h.place = 0 then b else h.first, hits := hits, place := (h.place + 1) % 1024
    tripped := h.tripped || decide (32 ≤ run) || decide (410 ≤ hits) }

/-- n samples of the source from a number on. -/
def noiseBytes (from' n : Nat) : List Byte := (List.range n).map (fun i => Config.noise (from' + i))

/-- The source produces n samples, all watched by the tests (R368). -/
def watchNoise (n : Nat) (s : State) : State :=
  updTrust (fun t => { t with samples := t.samples + n, health := (noiseBytes t.samples n).foldl (fun h b => healthStep b h) t.health }) s

/-- 1,024 fresh samples after a failure (R369): a pass clears the count and reseeds the generator, a failure raises the count
and calls for another retest, until the third makes the generator FAULT. -/
def retestOnce (s : State) : State :=
  let t := watchNoise 1024 (updTrust (fun t => { t with health := Health.start }) s)
  if t.trust.health.tripped then
    updTrust (fun u => { u with failures := u.failures + 1, fault := u.fault || decide (3 ≤ u.failures + 1)
                                retesting := decide (u.failures + 1 < 3) }) t
  else updTrust (fun u => { u with rng := shake256 64 (noiseBytes s.trust.samples 1024), failures := 0, retesting := false, sinceSeed := 0 }) t

/-- A retest that runs is awaited to its outcome (R369): at most three steps of the count. -/
def settleRng (s : State) : State :=
  (List.range 3).foldl (fun t _ => if t.trust.retesting && !t.trust.fault then retestOnce t else t) s

/-- The source runs from boot stage 1 until reset (R368): a free number of samples come in a wall cycle. -/
def noiseTick (s : State) : State :=
  if s.links.stage = 0 then s
  else
    let d := drawChoice s
    watchNoise d.1 d.2

/-- A draw of n bytes (R368, R369): every sample that the source produced since the last seed must have passed both tests. A draw that
fails starts a retest. -/
def draw (n : Nat) (s : State) : Option (List Byte) × State :=
  let s := settleRng s
  if s.trust.fault then (none, s)
  else if s.trust.health.tripped then
    (none, updTrust (fun u => { u with failures := u.failures + 1, fault := decide (3 ≤ u.failures + 1), retesting := true }) s)
  else
    (some (shake256 n (s.trust.rng ++ [1])),
      updTrust (fun u => { u with rng := shake256 64 (u.rng ++ [2]), sinceSeed := u.sinceSeed + 1 }) s)

/-- RNG_RETEST (R369): one step of the count while a retest runs. -/
def execRngRetest (s : State) : Host.Outcome State Fault Refusal :=
  .next (if s.trust.retesting && !s.trust.fault then retestOnce s else s)

/-- RNG_RESEED (R368): every 2^20 requests, 1,024 samples that passed become the new state; samples that failed leave the state
for the next draw to find. -/
def execRngReseed (s : State) : Host.Outcome State Fault Refusal :=
  .next (if 2 ^ 20 ≤ s.trust.sinceSeed ∧ s.trust.fault = false ∧ s.trust.retesting = false then
      let t := watchNoise 1024 s
      if t.trust.health.tripped then t
      else updTrust (fun u => { u with rng := shake256 64 (noiseBytes s.trust.samples 1024), sinceSeed := 0 }) t
    else s)

/-- HEALTH (R365): the generator's state, 0 or 1, and its failure count (R390). -/
def execHealth (s : State) : Host.Outcome State Fault Refusal :=
  .next (updTrust (fun t => { t with replies := t.replies ++ [⟨0, "HEALTH", 0, [BitVec.ofNat 8 (one t.fault), BitVec.ofNat 8 t.failures]⟩] }) s)

end Sys2Proof.Machine
end

