-- ==== Sys2Proof/Machine/Contain.lean ====
section
/-! DEFINITION. Event records of the hub (R320, R399), fault containment (R109, R110, R337, R338), the scrub of memory (R365,
R386), what a migration leaves when it is given up (R352), and key slots bound and revoked (R367). -/

namespace Sys2Proof.Machine

open Sys2Proof

/-! ### Functions, queues and launches -/

/-- A virtual function's record. -/
def vfAt (s : State) (n : Nat) : Option Vf := s.hub.vfs.find? (fun v => v.vf == n)

/-- A virtual function changed. -/
def updVf (n : Nat) (f : Vf → Vf) (s : State) : State :=
  updHub (fun h => { h with vfs := h.vfs.map (fun v => if v.vf == n then f v else v) }) s

/-- A launch. -/
def launchAt (s : State) (n : Nat) : Option Launch := s.hub.launches.find? (fun l => l.id == n)

/-- A launch changed. -/
def updLaunch (n : Nat) (f : Launch → Launch) (s : State) : State :=
  updHub (fun h => { h with launches := h.launches.map (fun l => if l.id == n then f l else l) }) s

/-- A reply to the host (function + 1), to Yard (0) or to a peer package (2000 + index). -/
def reply (dest : Nat) (kind : String) (status : Nat) (data : List Byte) (s : State) : State :=
  updTrust (fun t => { t with replies := t.replies ++ [⟨dest, kind, status, data⟩] }) s

/-! ### Event records (R320, R399) -/

/-- The 32 bytes of a record (R320). -/
def evBytes (r : EvRec) : List Byte :=
  [r.code, 0] ++ leBytes 2 r.queue ++ leBytes 4 0 ++ leBytes 8 r.subject.toNat ++ leBytes 8 r.value.toNat ++ leBytes 8 0

/-- The record count that a ctl register names (R399). -/
def ringCount (v : Vf) : Nat := 2 ^ bits v.ringCtl.toNat 0 5

/-- A record reaches the ring of a function (R399): the hub writes it into host memory, advances the tail and signals vector 0;
on a full or disabled ring it is lost. Host addresses are those of tier 10 (assumption 14). -/
def ringPost (vf : Nat) (r : EvRec) (s : State) : State :=
  match vfAt s vf with
  | none => s
  | some v =>
    if flag v.ringCtl.toNat 8 && decide ((v.ringTail - v.ringHead).toNat < ringCount v) then
      let t := updVf vf (fun v => { v with ringTail := v.ringTail + 1, msix := v.msix + 1 }) s
      setMem (memPutN t.mem (tierKey 2 (v.ringBase.toNat + 32 * (v.ringTail.toNat % ringCount v))) (evBytes r)) t
    else updVf vf (fun v => { v with ringLost := satAdd64 v.ringLost 1 }) s

/-- A record is posted; while the host link is down it waits (R411). -/
def post (vf : Nat) (r : EvRec) (s : State) : State :=
  if s.links.pcie then ringPost vf r s else updHub (fun h => { h with posts := h.posts ++ [(vf, r)] }) s

/-! ### Leaves of page tables -/

/-- A function's cached translations of a range are dropped package-wide (R350, R384). -/
def dropTlb (vf va n : Nat) (s : State) : State :=
  updSys (fun m => { m with tlb := m.tlb.filter (fun x => x.vf != vf || decide (x.va + x.size ≤ va) || decide (va + n ≤ x.va)) }) s

/-- The sealed bit of a leaf set or cleared at the home (R345, R384, R385). -/
def setSealed (x : Xlat) (b : Bool) (s : State) : State :=
  let w := (entryWords s x.leafAddr).2
  setMem (memPutN s.mem (x.leafAddr + 8) (leBytes 8 (if b then w ||| 0x200 else (if flag w 9 then w - 0x200 else w)))) s

/-- The virtual addresses of the 64 KiB units of a range. -/
def unitsIn (base n : Nat) : List Nat := (List.range ((n + 65535) / 65536)).map (fun i => base + 65536 * i)

/-- The leaves of the pages of a range, through a function's root. -/
def leavesIn (v : Vf) (s : State) (base n : Nat) : List Xlat :=
  ((unitsIn base n).filterMap (fun a => (walkVf v s a).toOption)).eraseDups

/-- The sealed bits of a range's pages are cleared. -/
def unsealPages (v : Vf) (base n : Nat) (s : State) : State := (leavesIn v s base n).foldl (fun t x => setSealed x false t) s

/-- Bytes of a seal's tree area (R377, R379): the pages that 64 bytes a block fill. -/
def treeArea (size : Nat) : Nat := (64 * (size / 4096) + 65535) / 65536 * 65536

/-- A seal is removed, and its pages are no longer sealed (R385, R386). -/
def removeSeal (v : Vf) (l : Seal) (s : State) : State :=
  updTrust (fun t => { t with seals := t.seals.filter (fun x => x != l) })
    (unsealPages v l.aux (treeArea l.size) (unsealPages v l.base l.size s))

/-! ### Scrub (R365, R386) -/

/-- A block returns to the zero state under its slot's current epoch, its major counter kept (R386). -/
def zeroRec (s : State) (r : CtrRec) : CtrRec :=
  { r with zero := true, epoch := (keySlot s r.slot).ce, shared := false, minor := 0 }

/-- Whether a write of a killed context, or of the background write-back, goes to a block. -/
def quietIn (b : Nat) (e : OutEntry) : Bool :=
  let mine := fun (k : Nat) => decide (k / 4096 = b)
  e.quiet && ((effectKeys e).any mine || (match e.body with | .store _ k _ | .block _ k _ _ => mine k | _ => false))

/-- Tack scrubs a block: every later read of it returns zeros. What a kill left on its way there is dropped, so that nothing lands
after the scrub (R109, steps 5 and 6). -/
def scrubBlock (b : Nat) (s : State) : State :=
  let t := setRec (zeroRec s (recAt s b)) s
  let mine := fun (k : Nat) => decide (k / 4096 = b)
  let t := mapOld (fun _ l => l.filter (fun o => !mine o.unit)) (updOut (fun o => { o with leaving := o.leaving.filter (fun l => !quietIn b l.entry) }) t)
  setMem (memClear t.mem (4096 * b) 4096) (updSys (fun m => { m with bad := m.bad.filter (fun x => !mine x.1) }) t)

/-- Whether n bytes from a key overlap a page of memory. -/
def hits (key n base size : Nat) : Bool := decide (key < base + size) && decide (base < key + n)

/-- Whether an entry on its way out acts on a page. -/
def OutEntry.hitsPage (e : OutEntry) (base size : Nat) : Bool :=
  match e.body with
  | .store _ k bs => hits k bs.length base size
  | .unlock _ _ => false
  | .block _ k _ _ => hits k 4096 base size
  | .effect (.trust _ _ _ _ _ keys _) => keys.any (fun b => hits (4096 * b) 4096 base size)
  | .effect _ => (effectKeys e).any (fun k => hits k 8 base size)

/-- The key of the page that a leaf names. -/
def pageKey (tier dpa : Nat) : Nat := tierKey tier dpa

/-- The migration's old copy. -/
def Migration.source (m : Migration) : Nat := pageKey (ptTier m.leaf0.toNat) (ptPa m.leaf0.toNat)

/-- The migration's target. -/
def Migration.target (m : Migration) : Nat := pageKey m.tier m.dpa

/-- The blocks that hold a block's bytes: itself, and its copy at the target of a migration (R352). -/
def copiesOf (s : State) (b : Nat) : List Nat :=
  b :: (s.sys.migrations.filter (fun m => m.copied && !m.switched && hits (4096 * b) 4096 m.source m.size)).map (fun m =>
    (4096 * b - m.source + m.target) / 4096)

/-- Tack scrubs a range of a function's addresses: the seals that reach into it go with it, and both copies of a page that migrates
(R352). -/
def scrubRange (v : Vf) (base n : Nat) (s : State) : State :=
  let hit := s.trust.seals.filter (fun l => l.tag.toNat == v.vf && decide (l.base < base + n) && decide (base < l.base + l.size))
  let s := hit.foldl (fun t l => removeSeal v l t) s
  (List.range (n / 4096)).foldl (fun t i => match walkVf v t (base + 4096 * i) with
    | .ok x => (copiesOf t (globalKey [x] (base + 4096 * i) / 4096)).foldl (fun t b => scrubBlock b t) t
    | .error _ => t) s

/-- Every page of a function under a key slot is scrubbed (R367): the blocks that are live under the slot, and the seals of the
function. -/
def scrubSlot (v : Vf) (n : Nat) (s : State) : State :=
  let s := (s.trust.seals.filter (fun l => l.tag.toNat == v.vf)).foldl (fun t l => removeSeal v l t) s
  ((s.sys.recs.filter (fun r => !r.zero && r.slot == n)).map (·.block)).foldl (fun t b => scrubBlock b t) s

/-! ### Pages that migrate, and who waits for them (R111, R351, R352) -/

/-- Bytes within one page that an agent other than the core and the hub writes at a virtual address of a function, under that function's
key: the page is dirty from then on (R353), and one that migrates makes the write wait (R111). -/
def otherStore (vf va : Nat) (bs : List Byte) (near : Scope) (s : State) : State :=
  match vfAt s vf with
  | none => s
  | some v => match walkVf v s va with
    | .error _ => s
    | .ok x =>
      if ptFrozen x.w0.toNat then updSys (fun m => { m with stalled := m.stalled ++ [⟨vf, va, bs, none, some near⟩] }) s
      else
        let key := globalKey [x] va
        match recordLines (v.slot.getD 0) (ptLpid x.w1.toNat, (va - x.va) / 4096) key bs.length (markDirty x s) with
        | some t => writeTier none near (scopeFar near) key bs t
        | none => s

/-- A counter of a function that the hub raises at its home, saturating (R104, R317). -/
def hubAdd (vf va amount : Nat) (s : State) : State :=
  match vfAt s vf with
  | none => s
  | some v => match walkVf v s va with
    | .error _ => s
    | .ok x =>
      if ptFrozen x.w0.toNat then updSys (fun m => { m with stalled := m.stalled ++ [⟨vf, va, [], some amount, none⟩] }) s
      else hubStore vf va (leBytes 8 (min (leNat (readHome (globalKey [x] va) 8 s) + amount) (2 ^ 64 - 1))) s

/-- A write that waited for a page is made anew. -/
def performStalled (x : Stalled) (s : State) : State :=
  match x.amount, x.near with
  | some n, _ => hubAdd x.vf x.va n s
  | none, some near => otherStore x.vf x.va x.bytes near s
  | none, none => hubStore x.vf x.va x.bytes s

/-- The writes that waited are made, in their order; one whose page is still frozen waits on. -/
def thaw (s : State) : State := s.sys.stalled.foldl (fun t x => performStalled x t) (updSys (fun m => { m with stalled := [] }) s)

/-- A page's blocks leave a place: they read as zero there (R351, R386). Blocks without a record are in that state already. -/
def releaseBlocks (base size : Nat) (s : State) : State :=
  ((s.sys.recs.filter (fun r => hits (4096 * r.block) 4096 base size)).map (·.block)).foldl (fun t b => scrubBlock b t) s

/-- The leaf's word 0 with its migration mark cleared. -/
def unfreeze (leafAddr : Nat) (s : State) : State :=
  let w := (entryWords s leafAddr).1
  setMem (memPutN s.mem leafAddr (leBytes 8 (if flag w 6 then w - 0x40 else w))) s

/-- A migration is given up before its switch (R352): the leaf is unfrozen, the target copy is released, and waiting writes go on. -/
def abandonMigration (m : Migration) (s : State) : State :=
  let t := updSys (fun y => { y with migrations := y.migrations.filter (fun x => x != m) }) s
  thaw ((if m.copied then releaseBlocks m.target m.size else id) (dropTlb m.vf m.va m.size (unfreeze m.leafAddr t)))

/-- A kill abandons the migrations of a function's pages that have not switched; one that has switched completes (R352). -/
def abandonMigrations (vf : Nat) (s : State) : State :=
  (s.sys.migrations.filter (fun m => m.vf == vf && !m.switched)).foldl (fun t m => abandonMigration m t) s

/-! ### Context kill (R109, R110, R282, R337) -/

/-- What had left the Paddock at a kill is performed or dropped, each on its own (R109, step 5). -/
def dropReleased : List Leaving → State → List Leaving × State
  | [], s => ([], s)
  | e :: r, s =>
    let d := drawChoice s
    let t := dropReleased r d.2
    if d.1 % 2 = 0 then ({ e with entry := { e.entry with quiet := true } } :: t.1, t.2) else t

/-- The core without a context, as a kill or the end of a kernel leaves it: the machine registers of the core's own state are
as at the start of a context (R110, R223, R253, R255); the handler's address and the yield bound stay. -/
def bareSeq (s : State) : Seq := { Seq.afterReset with yieldbound := s.seq.yieldbound, tvec := s.seq.tvec }

/-- The context of this core is killed (R109, steps 1 to 5) and the core's state cleared (R110). -/
def killCore (launch : Nat) (s : State) : State :=
  let l := dropReleased s.out.leaving s
  let s := l.2
  { s with
    seq := bareSeq s
    regs := Regs.afterReset
    mat := Mat.afterReset
    cpy := Cpy.afterReset
    pipe := { s.pipe with
      flight := [], busyV0 := 0, busyV1 := 0, busyF := 0, busyDiv := 0, cpyRead := 0, cpyWrite := 0, stall := 0, upset := false
      found := s.pipe.found.map (fun _ => []) }
    out := { Out.afterReset with portUsed := s.out.portUsed, tokens := s.out.tokens, spent := s.out.spent, leaving := l.1 }
    rcv := { Rec.afterReset with commits := s.rcv.commits, errlog := s.rcv.errlog, retiredCount := s.rcv.retiredCount, asides := s.rcv.asides }
    dict := Vector.replicate 512 0x13
    ubrov := none
    mem := withSpad [] s.mem
    sys := { s.sys with locks := s.sys.locks.filter (fun l => l.ownerCtx != launch)
                        lockWaits := s.sys.lockWaits.filter (fun w => w.fromCtx != launch) }
    trust := { s.trust with done := s.trust.done.filter (fun d => d.launch != launch) }
    cyc := none }

/-- The other cores of a launch do steps 1 to 4 of R109 in a free time each (R340). -/
def stopOthers (l : Launch) (s : State) : State :=
  ((l.stages.flatMap (·.crew)).filter (fun c => c != pkgIndex s)).foldl (fun t c =>
    let d := drawWait t
    updHub (fun h => { h with stopping := h.stopping ++ [(c, l.id, t.pipe.wall + d.1)] }) d.2) s

/-- Whether a launch can be killed. -/
def killable (l : Launch) : Bool := l.state == .submitted || l.state == .running

/-- Fault containment (R337): every core of the launch follows R109; the lock bits of its contexts are clear, saved ones too (R133); its
collectives are cancelled, and migrations of its function's pages given up (R352); queues and counters stay; event 0x08 tells the cause, and
the launch keeps the core and its trap causes (R135, R141). -/
def killLaunch (launch cause : Nat) (info : Nat × Nat × Nat) (s : State) : State :=
  match launchAt s launch with
  | none => s
  | some l =>
    if !killable l then s
    else
      let s := if s.seq.ctx.any (fun c => c.launch == launch) then killCore launch s
        else updTrust (fun t => { t with done := t.done.filter (fun d => d.launch != launch) })
          (updSys (fun m => { m with
            locks := m.locks.filter (fun b => b.ownerCtx != launch), lockWaits := m.lockWaits.filter (fun w => w.fromCtx != launch) }) s)
      let s := abandonMigrations l.vf (stopOthers l (updHub (fun h => { h with colls := h.colls.filter (fun c => c.launch != launch) }) s))
      let areas := (s.hub.saved.filter (fun v => v.launch == launch)).map (·.area)
      let s := updRcv (fun r => { r with asides := r.asides.filter (fun a => !areas.contains a.area) }) s
      let s := updHub (fun h => { h with saved := h.saved.filter (fun v => v.launch != launch) })
        (updLaunch launch (fun l => { l with state := .killed, killInfo := some (cause, info), move := none, pair := none, streak := 0 }) s)
      post l.vf ⟨0x08, l.queue, l.record, word (cause + 256 * s.id.package.toNat)⟩ s

/-- Yard requests a kill (R338): cause 5. -/
def execYardKill (launch : Nat) (s : State) : Host.Outcome State Fault Refusal := .next (killLaunch launch 5 (pkgIndex s, 0, 0) s)

/-- The hub contains what stopped this core: a double trap or an END at system level (R135, R141). -/
def containStopped (s : State) : State :=
  match s.seq.run, s.seq.ctx with
  | .stopped cause a b, some c => killLaunch c.launch cause (pkgIndex s, a, b) s
  | _, _ => s

/-- A launch's slots of its context and recovery areas on the cores that ran it, and its load area unless another launch of the
function uses it (R110), as ranges. -/
def killedRanges (s : State) (l : Launch) : List (Nat × Nat) :=
  let slots : Nat → List (Nat × Nat) := fun a => l.ran.map (fun c => (a + c * 0x200000, 0x200000))
  let shared := s.hub.launches.any (fun x => x.id != l.id && x.vf == l.vf && x.load == l.load && killable x)
  slots l.area.toNat ++ (if l.recovery = 0 then [] else slots l.recovery.toNat) ++ (if shared then [] else [(l.load.toNat, l.loadSize.toNat)])

/-- SCRUB_CTX (R109, step 6, R110, R365). -/
def execScrubCtx (launch : Nat) (s : State) : Host.Outcome State Fault Refusal :=
  .next (if s.links.shed then reply 0 "SCRUB_CTX" 0xFF [] s
  else match launchAt s launch with
  | some l =>
    if l.state ≠ .killed then reply 0 "SCRUB_CTX" 0xFF [] s
    else
      let t := match vfAt s l.vf with
        | some v => (killedRanges s l).foldl (fun t r => scrubRange v r.1 r.2 t) s
        | none => s
      reply 0 "SCRUB_CTX" 0 [] (updLaunch launch (fun l => { l with state := .scrubbing }) t)
  | none => reply 0 "SCRUB_CTX" 0xFF [] s)

/-- SCRUB_PAGES (R365): pages of a function that Yard returns to its pool. -/
def execScrubPages (vf : Nat) (base : Word) (size : Nat) (s : State) : Host.Outcome State Fault Refusal :=
  .next (if s.links.shed then reply 0 "SCRUB_PAGES" 0xFF [] s
  else match vfAt s vf with
  | some v =>
    if base.toNat % 4096 ≠ 0 ∨ size % 4096 ≠ 0 then reply 0 "SCRUB_PAGES" 0xFF [] s
    else reply 0 "SCRUB_PAGES" 0 [] (scrubRange v base.toNat size s)
  | none => reply 0 "SCRUB_PAGES" 0xFF [] s)

/-! ### Key slots (R366, R367) -/

/-- Numbers of the EMPTY slots. -/
def emptySlots (s : State) : List Nat := (List.range 4096).filter (fun n => (keySlot s n).state == .empty)

/-- Bind (R367): an EMPTY slot, which one is free, gets a fresh secret and becomes LIVE for the function; a draw that fails
leaves the function without one. The tenant tag of a function is its number (assumption 15). -/
def bindSlot (vf : Nat) (s : State) : State :=
  let l := emptySlots s
  let c := drawChoice s
  match l[c.1 % max 1 l.length]?, draw 32 c.2 with
  | some n, (some k, t) =>
    updVf vf (fun v => { v with slot := some n }) (updSlot n (fun _ => ⟨n, .live, k, List.replicate 32 0, false, 0, BitVec.ofNat 16 vf⟩) t)
  | _, (_, t) => updVf vf (fun v => { v with slot := none }) t

/-- Accepted launches of a function that have not started are rejected with status 0x15 (R367), or discarded without an event by
a function-level reset (R400). -/
def dropSubmitted (vf : Nat) (event : Bool) (s : State) : State :=
  (s.hub.launches.filter (fun l => l.vf == vf && l.state == .submitted)).foldl (fun t l =>
    let u := updLaunch l.id (fun l => { l with state := .gone }) t
    if event then post vf ⟨0x06, l.queue, l.record, 0x15⟩ u else u) s

/-- Every running launch of a function is killed. -/
def killVf (vf cause : Nat) (s : State) : State :=
  (s.hub.launches.filter (fun l => l.vf == vf && l.state == .running)).foldl (fun t l => killLaunch l.id cause (pkgIndex t, 0, 0) t) s

/-- A function's slot is REVOKED and its pages are scrubbed (R367); the slot is EMPTY again when the scrub completes. -/
def revokeSlot (vf : Nat) (s : State) : State :=
  match vfAt s vf with
  | some v => (match v.slot with
    | some n => scrubSlot v n (updVf vf (fun v => { v with slot := none }) (updSlot n (fun k => { k with state := .revoked }) (dropLinkKeys n s)))
    | none => s)
  | none => s

/-- Revoke with its kills (R367): cause 8, or 7 for a function-level reset. -/
def revoke (vf cause : Nat) (event : Bool) (s : State) : State :=
  revokeSlot vf (dropSubmitted vf event (killVf vf cause s))

end Sys2Proof.Machine
end

