-- ==== Sys2Proof/Machine/Image.lean ====
section
/-! DEFINITION. Nalos images (R55 to R61, R64): reading one from memory, the faults that reject it, the choice of a set, and
placing a stage's kernel on the core (R28, R47, R150, R324). -/

namespace Sys2Proof.Machine

open Sys2Proof

/-! ### Reading -/

/-- A size rounded up to 64 KiB. -/
def up64K (n : Nat) : Nat := (n + 65535) / 65536 * 65536

/-- A byte of a function's memory; 0 where no page maps it. -/
def vfByte (v : Vf) (s : State) (a : Nat) : Byte :=
  match walkVf v s a with | .ok x => peek s (globalKey [x] a) | .error _ => 0

/-- Bytes of a function's memory. -/
def vfBytes (v : Vf) (s : State) (a n : Nat) : List Byte := (List.range n).map (fun i => vfByte v s (a + i))

/-- An image: its little-endian field of w bytes at an offset. -/
abbrev Image := Nat → Nat → Nat

/-- The image at an address of a function's memory. -/
def imageAt (v : Vf) (s : State) (a : Word) : Image := fun off w => leNat (vfBytes v s (a.toNat + off) w)

/-- Section i of the table (R56). -/
def secAt (f : Image) (i : Nat) : Section :=
  let o := f 28 4 + 32 * i
  ⟨f o 4, f (o + 8) 8, f (o + 16) 8, f (o + 24) 4, f (o + 28) 4⟩

/-- The sections in table order; a table longer than 256 is cut. -/
def sectionsOf (f : Image) : List Section := (List.range (min 256 (f 8 4))).map (secAt f)

/-- The sections of a kind, with their indices. -/
def ofKind (l : List Section) (k : Nat) : List (Section × Nat) := l.zipIdx.filter (fun e => e.1.kind == k)

/-- Entries of n bytes in a section. -/
def entriesIn (x : Section) (n : Nat) : List Nat := (List.range (x.size / n)).map (fun i => x.offset + n * i)

/-! ### Faults of an image (R57) -/

/-- Item 1. -/
def badHeader (f : Image) : Bool := f 0 4 != 0x534C414E || f 4 2 != 1 || f 6 2 != 64

/-- Item 2: reserved fields of the header, the section table, and the handle, stage and queue tables. -/
def badReserved (f : Image) (l : List Section) : Bool :=
  decide (4 ≤ f 12 4) || f 26 2 != 0 || decide ((List.range 24).any (fun i => f (40 + i) 1 != 0))
  || (List.range l.length).any (fun i => f (f 28 4 + 32 * i + 4) 4 != 0)
  || l.any (fun x => x.gen != 0 && x.kind != 1 && x.kind != 4 && x.kind != 5)
  || (ofKind l 6).any (fun x => (entriesIn x.1 40).any (fun o => decide (2 ≤ f (o + 1) 1) || f (o + 2) 6 != 0))
  || (ofKind l 7).any (fun x => (entriesIn x.1 16).any (fun o => f (o + 13) 3 != 0))
  || (ofKind l 8).any (fun x => (entriesIn x.1 16).any (fun o => f (o + 8) 8 != 0))

/-- Item 3: overlapping or overlong sections; a section count, table offset, section offset or code size outside its values is
counted here (assumption 16). -/
def badGeometry (f : Image) (l : List Section) : Bool :=
  let stop := f 32 8
  f 8 4 == 0 || decide (256 < f 8 4) || f 28 4 % 32 != 0
  || l.any (fun x => x.offset % 32 != 0 || decide (stop < x.offset + x.size))
  || l.zipIdx.any (fun x => l.zipIdx.any (fun y => decide (x.2 < y.2) && decide (x.1.offset < y.1.offset + y.1.size)
      && decide (y.1.offset < x.1.offset + x.1.size)))
  || (ofKind l 1).any (fun x => x.1.size % 32 != 0 || decide (65536 < x.1.size))

/-- Item 4. -/
def badKind (l : List Section) : Bool := l.any (fun x => x.kind == 0 || decide (12 ≤ x.kind))

/-- The sections of a kind that serve code section i. -/
def serving (l : List Section) (k i : Nat) : List Section := ((ofKind l k).map (·.1)).filter (fun x => x.link == i)

/-- Item 5: each native set has one contract, with latencies 1 to 16 and bytes 2 and 15 zero. -/
def badContract (f : Image) (l : List Section) : Bool :=
  (ofKind l 1).any (fun c => match serving l 4 c.2 with
    | [x] => x.size != 16 || (List.range 16).any (fun i =>
        let b := f (x.offset + i) 1
        if i = 2 ∨ i = 15 then b != 0 else b == 0 || decide (16 < b))
    | _ => true)

/-- Whether an offset names a fetch unit of a code section (R120). -/
def unitIn (f : Image) (c : Section) (pc : Nat) : Bool :=
  decide (pc < c.size) && (if f (c.offset + pc / 32 * 32) 1 % 2 = 1 then pc % 32 == 0 else pc % 2 == 0)

/-- Item 6: entry points of native kernels, and record indices of Ubrov ones. -/
def badEntry (f : Image) (l : List Section) : Bool :=
  (ofKind l 5).any (fun t => (entriesIn t.1 32).any (fun o => match l[t.1.link]? with
    | some c => if c.kind = 1 then !unitIn f c (f o 4) else if c.kind = 2 then decide (c.size / 8 ≤ f o 4) else true
    | none => true))

/-- Item 7. -/
def badDict (f : Image) (l : List Section) : Bool :=
  (ofKind l 3).any (fun d => decide (511 * 32 < d.1.size) || (entriesIn d.1 32).any (fun o => f o 1 % 2 == 0))

/-- The data and read-only sections with their places in a load area, in section order (R321). -/
def placedFrom : Nat → List Section → List (Section × Nat)
  | _, [] => []
  | o, x :: r => if x.kind = 9 ∨ x.kind = 10 then (x, o) :: placedFrom (o + up64K x.size) r else placedFrom o r

/-- The load address of the data section that relative handles name: the first of kind 9, else of kind 10 (R56, R180). -/
def dataBase (l : List Section) (load : Nat) : Nat :=
  let p := placedFrom load l
  match p.find? (fun e => e.1.kind == 9) with
  | some e => e.2
  | none => match p with | e :: _ => e.2 | [] => load

/-- The descriptor of the handle-table entry at an offset, as it is preset (R56, R180). -/
def presetAt (f : Image) (l : List Section) (load o : Nat) : Granule :=
  BitVec.ofNat 256 (f (o + 8) 32 + (if f (o + 1) 1 % 2 = 1 then dataBase l load else 0))

/-- Item 8: R152 holds of each descriptor as it is preset (R180). -/
def badHandle (f : Image) (l : List Section) (load : Nat) : Bool :=
  (ofKind l 6).any (fun t => (entriesIn t.1 40).any (fun o => decide (15 ≤ f o 1) || !descriptorOk (presetAt f l load o)))

/-! ### Ubrov (R58, R60, R64) -/

/-- Whether Sarerbex accepts a record (R58): its word passes the decode check of R44 for a program. Every feature that a record can name is
present on the AX1 (R63). -/
def recordOk (r : Nat) : Bool :=
  let w := bits r 0 32
  bits r 59 2 == 0 && bits r 32 24 == 0 && (match recordSlot (bits r 61 3) with
    | none => false
    | some sl => (!flag r 57 || sl == .s || sl == .v0) && (sl != .s || w % 4 == 3) && (sl != .v0 || !dupWord w)
      && !decodeFails false (decodeWord sl w))

/-- Whether a Ubrov section translates (R60): its records, as many as the code store has fetch units at most, are accepted (assumption 86). -/
def ubrovOk (f : Image) (x : Section) : Bool := decide (x.size / 8 ≤ 32768) && (entriesIn x 8).all (fun o => recordOk (f o 8))

/-- The set that the loader selects on generation 1 (R61): a code section, whether it is native. -/
def selectSet (f : Image) (l : List Section) : Option (Section × Nat × Bool) :=
  let native := (ofKind l 1).filter (fun c => decide (c.1.gen ≤ 1))
  match native.find? (fun c => c.1.gen == 1) with
  | some c => some (c.1, c.2, true)
  | none => match native with
    | c :: _ => some (c.1, c.2, true)
    | [] => match (ofKind l 2).find? (fun c => ubrovOk f c.1) with
      | some c => some (c.1, c.2, false)
      | none => none

/-- The kernel table's entries of a set. -/
def kernelsOf (l : List Section) (i : Nat) : List Nat := (serving l 5 i).flatMap (fun t => entriesIn t 32)

/-! ### Stages and queues (R323) -/

/-- A queue index of a stage table, none for 0xFFFF. -/
def queueIx (n : Nat) : Option Nat := if n = 0xFFFF then none else some n

/-- The stages of the image, by number; one stage when it has no table (R323). -/
def stagesOf (f : Image) (l : List Section) : List Stage :=
  match ofKind l 7 with
  | [] => [⟨0, 1, 1, 1, none, none, 0xFF, [], false, false⟩]
  | t :: _ => ((entriesIn t.1 16).mergeSort (fun a b => decide (f a 1 ≤ f b 1))).map (fun o =>
      ⟨f (o + 1) 1, f (o + 2) 2, f (o + 4) 2, f (o + 6) 2, queueIx (f (o + 8) 2), queueIx (f (o + 10) 2), BitVec.ofNat 8 (f (o + 12) 1),
        [], false, false⟩)

/-- Entry count and entry bytes of each queue of the image. -/
def queueShapes (f : Image) (l : List Section) : List (Nat × Nat) :=
  (ofKind l 8).flatMap (fun t => (entriesIn t.1 16).map (fun o => (f o 4, f (o + 4) 4)))

/-- A power of two. -/
def isPow2 (n : Nat) : Bool := decide (0 < n) && 2 ^ Nat.log2 n == n

/-- Whether a stage table is valid but for cycles (R323). -/
def stagesOk (f : Image) (l : List Section) (kernels : Nat) : Bool :=
  let st := stagesOf f l
  let qs := queueShapes f l
  let numbered := match ofKind l 7 with
    | [] => true
    | t :: r => r.isEmpty && ((entriesIn t.1 16).map (fun o => f o 1)).mergeSort (fun a b => decide (a ≤ b)) == List.range st.length
  numbered && decide (1 ≤ st.length) && decide (st.length ≤ 8)
  && st.all (fun x => decide (x.kernel < kernels) && decide (1 ≤ x.min) && decide (x.min ≤ x.init) && decide (x.init ≤ x.max)
      && decide (x.max ≤ 768) && x.dies != 0 && (x.inq.toList ++ x.outq.toList).all (fun q => decide (q < qs.length)))
  && qs.zipIdx.all (fun q => isPow2 q.1.1 && decide (2 ≤ q.1.1) && decide (q.1.1 ≤ 2 ^ 20) && q.1.2 % 32 == 0 && decide (32 ≤ q.1.2)
      && decide (q.1.2 ≤ 4096) && (st.filter (fun x => x.outq == some q.2)).length == 1 && (st.filter (fun x => x.inq == some q.2)).length == 1
      && st.all (fun x => !(x.inq == some q.2 && x.outq == some q.2)))

/-- The stage after n queues from a stage, while there is one. -/
def follow (st : List Stage) : Nat → Nat → Option Nat
  | 0, i => some i
  | n + 1, i => (st[i]?.bind (·.outq)).bind (fun q => (st.findIdx? (fun x => x.inq == some q)).bind (fun j => follow st n j))

/-- Whether the stages form a cycle: one goes on for more queues than there are stages. -/
def cyclic (st : List Stage) : Bool := (List.range st.length).any (fun i => (follow st (st.length + 1) i).isSome)

/-- The first fault of an image (R57) that is to be loaded at an address, as the status that a launch reports (R322). -/
def imageFault (f : Image) (load : Nat) : Option Nat :=
  let l := sectionsOf f
  let set := selectSet f l
  let kernels := match set with
    | some c => (kernelsOf l c.2.1).length
    | none => ((ofKind l 5).flatMap (fun t => entriesIn t.1 32)).length
  if badHeader f then some 1
  else if badReserved f l then some 2
  else if badGeometry f l then some 3
  else if badKind l then some 4
  else if badContract f l then some 5
  else if badEntry f l then some 6
  else if badDict f l then some 7
  else if badHandle f l load then some 8
  else if !stagesOk f l kernels then some 0x11
  else if cyclic (stagesOf f l) then some 0x12
  else if set.isNone then some 0x0A
  else none

/-! ### Placing sections and kernels (R324) -/

/-- The space that the sections take (R321). -/
def placedSize (l : List Section) : Nat := ((l.filter (fun x => x.kind == 9 || x.kind == 10)).map (fun x => up64K x.size)).sum

/-- The contract of a set as a value of `latcon` (R47). -/
def contractOf (f : Image) (l : List Section) (i : Nat) : Word :=
  match serving l 4 i with
  | x :: _ => word ((List.range 16).foldr (fun c r => (f (x.offset + c) 1 - 1) * 16 ^ c + r) 0)
  | [] => Config.latconReset

/-- The presets of a kernel (R150, R180). -/
def presets (f : Image) (l : List Section) (kernel load : Nat) : Vector Granule 16 :=
  let rows := ((ofKind l 6).flatMap (fun t => entriesIn t.1 40))
  let mine := (rows.drop (f (kernel + 8) 4)).take (f (kernel + 12) 4)
  mine.foldl (fun v o => v.set (Fin.ofNat 16 (f o 1)).val (presetAt f l load o)) Regs.afterReset.h

/-- What the loader puts on a core for a kernel: code, dictionary, the records of a Ubrov set, contract, entry and handles. -/
structure Placement where
  code : Vector Granule 2048
  dict : Vector Granule 512
  ubrov : Option (List Word)
  latcon : Word
  entry : Nat
  handles : Vector Granule 16

/-- The placement of kernel k of an image (R28, R47, R61). A Ubrov set's records run in its place under this generation's contract, record
i at fetch address 2 i (R59); the bytes that Sarerbex's translation puts into the code store and the dictionary are free (R60, assumption
86). -/
def placement (f : Image) (l : List Section) (k load : Nat) : Option Placement :=
  (selectSet f l).bind (fun c => ((kernelsOf l c.2.1)[k]?).map (fun o =>
    let h := presets f l o load
    if c.2.2 then
      let d := f (o + 4) 4
      let ds := match l[d]? with | some x => if x.kind = 3 then some x else none | none => none
      { code := Vector.ofFn (fun i : Fin 2048 => if 32 * i.val < c.1.size then BitVec.ofNat 256 (f (c.1.offset + 32 * i.val) 32) else 0)
        dict := Vector.ofFn (fun i : Fin 512 => match ds with
          | some x => if i.val = 0 ∨ x.size < 32 * i.val then 0x13 else BitVec.ofNat 256 (f (x.offset + 32 * (i.val - 1)) 32)
          | none => 0x13)
        ubrov := none
        latcon := contractOf f l c.2.1
        entry := f o 4
        handles := h }
    else
      let bs := leBytes c.1.size (f c.1.offset c.1.size)
      let id := word (f 16 8)
      let ver := f 24 4
      { code := Vector.ofFn (fun i : Fin 2048 => Config.ubrovCode bs id ver 1 i.val)
        dict := Vector.ofFn (fun i : Fin 512 => if i.val = 0 then 0x13 else Config.ubrovDict bs id ver 1 (f o 4) i.val)
        ubrov := some ((entriesIn c.1 8).map (fun o => word (f o 8)))
        latcon := Config.latconReset
        entry := 2 * f o 4
        handles := h }))

/-- The loader's placement for a stage of a launch. -/
def stagePlacement (s : State) (l : Launch) (stage : Nat) : Option Placement :=
  (vfAt s l.vf).bind (fun v => (l.stages[stage]?).bind (fun st => placement (imageAt v s l.image) l.sections st.kernel l.load.toNat))

/-- `tenant` for a function (R140, R367): its tag, its key slot, and conf for a locked interface. -/
def tenantOf (v : Vf) : BitVec 29 :=
  BitVec.ofNat 29 (v.vf % 65536 + 65536 * (v.slot.getD 0 % 4096) + 2 ^ 28 * one (v.tdisp == .locked || v.tdisp == .run))

/-- Results and units as a context finds them on a core: none in flight, every unit free. -/
def idlePipe (p : Pipe) : Pipe :=
  { p with flight := [], busyV0 := 0, busyV1 := 0, busyF := 0, busyDiv := 0, cpyRead := 0, cpyWrite := 0, tried := false, upset := false }

/-- The way out as a context finds it: nothing held back, every counter 0. -/
def idleOut (o : Out) : Out :=
  { o with
    heldBack := [], pending := [], cnt := Vector.replicate 80 ⟨0, 0, 0, 0⟩, handed := [], emitWait := none, failed := [], seen := [], issuePaid := 0 }

/-- Recovery as a context finds it: no checkpoint, no rerun. -/
def idleRcv (r : Rec) : Rec :=
  { r with
    ckpts := [], undoArmed := false, forceDue := false, forceWait := false, rerun := none, cancelled := none, saveAcc := none, settling := false
    retiring := none }

/-- A kernel starts on this core (R324, R329): every register, queue, predicate and CSR as at context start, with the kernel's
code, dictionary, presets and contract; the start takes a checkpoint (R19, R294). -/
def startKernel (l : Launch) (stage : Nat) (p : Placement) (events : List Word) (s : State) : State :=
  let tenant := (vfAt s l.vf).map tenantOf |>.getD 0
  let id := ((vfAt s l.vf).map (fun v => word (imageAt v s l.image 16 8))).getD 0
  let t : State := { s with
    seq := { bareSeq s with
      pc := p.entry % 65536
      run := .running
      latcon := p.latcon
      handlerLatcon := p.latcon
      tenant := tenant
      gmode := l.guarded
      ctx := some ⟨l.id, stage, l.vf, id⟩ }
    regs := { Regs.afterReset with h := p.handles }
    mat := Mat.afterReset
    cpy := { Cpy.afterReset with events := events }
    code := p.code
    dict := p.dict
    ubrov := p.ubrov
    pipe := idlePipe s.pipe
    out := { idleOut s.out with grants := [] }
    rcv := { idleRcv s.rcv with area := none, image := [] } }
  takeCkpt t

end Sys2Proof.Machine
end

