-- ==== Sys2Proof/Machine/Recovery.lean ====
section
/-! DEFINITION. Strike rollback (R299, R301, R302), checkpoints that stop being live (R294), the rerun rule's two runs and their
comparison (R304, R305), retirement (R306), and consumed errors (R308). -/

namespace Sys2Proof.Machine

open Sys2Proof

/-! ### Strike reports (R301, R302) -/

/-- Whether a retired core still drains, or saves its context for recovery (R306). -/
def recoverySaving (s : State) : Bool := s.seq.run == .retired && s.seq.ctx.isSome

/-- The cause of a kill that a retirement makes (R306, R338). -/
def retireCause (s : State) : Nat := if s.seq.gmode then 3 else 2

/-- CORE_RETIRED to Yard with its record (R306, R310); the core is out of service from then on. -/
def reportRetired (s : State) : State :=
  match s.rcv.retiring with
  | none => s
  | some (place, commits, entries, phase) =>
    let t := updRcv (fun r => { r with retiring := none, retiredCount := r.retiredCount + 1 }) (logErr 4 place commits entries phase (errAdd 5 1 s))
    reply 0 "CORE_RETIRED" 0x13 [] (updHub (fun h => { h with disabled := h.disabled ++ [pkgIndex s] }) t)

/-- A kill whose core stays retired (R306). -/
def killRetired (cause : Nat) (s : State) : State :=
  match s.seq.ctx with
  | some c => updSeq (fun q => { q with run := .retired }) (killLaunch c.launch cause (pkgIndex s, 0, 0) (reportRetired s))
  | none => s

/-- UPSET_REPORT (R301): the core returns to its latest commit at or before d − 480, whatever the zone; it takes up to 640 wall
cycles. In a recovery save, or in the drain before it, it turns the retirement into a kill (R306); without a context there is nothing to
return to. -/
def execUpsetReport (zone : Fin 16) (s : State) : Host.Outcome State Fault Refusal :=
  .next (if recoverySaving s then killRetired (retireCause s) s
  else if s.seq.ctx.isNone then s
  else match strikeTarget s with
    | none => s
    | some c =>
      let d := drawLatency 1 640 s
      let paused := updSeq (fun q => { q with preempt := q.preempt.map (fun p =>
        if saving s || p.forced then { p with at' := s.pipe.wall + d.1, waited := 0, forced := false } else p) }) d.2
      let t := restore c paused
      let t := updPipe (fun p => { p with stall := d.1 }) t
      let t := logErr 1 zone.val (s.rcv.commits - c.commit) (discarded c s) c.seq.phase (errAdd 0 1 t)
      match s.rcv.rerun with
      | some r => if c.commit ≤ r.base then startDry c t else t
      | none => t)

/-! ### Checkpoints (R294 to R296) -/

/-- CHECKPOINT_RELEASE: checkpoints that are no longer live go, and with them their undo entries and shadows. The forced commit for a
full log is armed again once the log is below its mark (R295). -/
def execCheckpointRelease (s : State) : Host.Outcome State Fault Refusal :=
  .next (if (live s).length < s.rcv.ckpts.length then
      let t := updRcv (fun r => { r with ckpts := live s }) s
      updRcv (fun r => { r with undoArmed := r.undoArmed && decide (3072 ≤ undoUsed t) }) t
    else s)

/-! ### Reruns (R304, R305) -/

/-- The checkpoint from which the runs start. -/
def rerunStart (s : State) (r : Rerun) : Option Ckpt := s.rcv.ckpts.find? (fun c => c.commit == r.base)

/-- DRY_RUN_END (R305): n, e, s and f are recorded, the core returns to C, and the confirm run starts. -/
def execDryRunEnd (s : State) : Host.Outcome State Fault Refusal :=
  .next (match s.rcv.rerun with
  | some r =>
    if r.kind ≠ .dry ∨ r.ended = false then s
    else match rerunStart s r with
      | none => s
      | some c =>
        let r' : Rerun := { r with kind := .confirm, dryN := s.pipe.issue - r.startIssue, dryAtCommit := r.endedAtCommit
                                   drySig := readK s 7, dryMis := r.mis, ended := false, endedAtCommit := false, mis := none }
        updRcv (fun k => { k with rerun := some r' }) (restore c s)
  | none => s)

/-- Whether the same KCHK failed in both runs at the same origin with equal signatures up to it (R289, R305). -/
def sameKchk (a b : Option Mismatch) : Bool :=
  match a, b with
  | some x, some y => x.slot == .k && x.word != 0 && x == y
  | _, _ => false

/-- The core is retired (R306): it stops issue, returns to C and lets what was sent before drain; what the report will say is kept. -/
def retireCore (place : Nat) (c : Ckpt) (s : State) : State :=
  updSeq (fun q => { q with run := .retired }) (updRcv (fun r => { r with
    rerun := none, retiring := some (place, s.rcv.commits - c.commit, discarded c s, c.seq.phase) }) (restore c s))

/-- CONFIRM_RUN_END (R305): the comparison. On agreement the held entries are released by R18; a KCHK that failed alike in both
runs raises CHECK_MISMATCH (R289); anything else retires the core. -/
def execConfirmRunEnd (s : State) : Host.Outcome State Fault Refusal :=
  .next (match s.rcv.rerun with
  | some r =>
    if r.kind ≠ .confirm ∨ r.ended = false then s
    else
      let phase := ((rerunStart s r).map (·.seq.phase)).getD s.seq.phase
      let agreed := logErr 3 0 0 0 phase (errAdd 4 1 (updRcv (fun k => { k with rerun := none }) s))
      let equal := decide (s.pipe.issue - r.startIssue = r.dryN) && r.endedAtCommit == r.dryAtCommit && readK s 7 == r.drySig
      if r.dryMis.isNone && r.mis.isNone && equal then agreed
      else if sameKchk r.dryMis r.mis then
        raiseDeferred ⟨cCheckMismatch, tvalWord .k ((r.mis.map (·.word.toNat)).getD 0), .k, false⟩ agreed
      else match rerunStart s r with
        | none => s
        | some c => retireCore (if r.dryMis.isNone && r.mis.isNone then 1 else if r.dryMis.isSome && r.mis.isSome then 3 else 2) c s
  | none => s)

/-- A retired core's slot of its launch's recovery area (R306). -/
def recoverySlot (s : State) : Word := ((ctxLaunch s).map (fun l => word (l.recovery.toNat + pkgIndex s * 0x200000))).getD 0

/-- Whether a retired core's context is saved for recovery (R306). -/
def recovers (s : State) : Bool := s.seq.gmode && (match ctxLaunch s with | some l => l.recovery != 0 | none => false)

/-- One wall cycle of a retirement (R306). Once what was sent before C has drained, CORE_RETIRED is reported; then the context is killed,
or it is written with z and w, and once all of it has drained the core has no context. A fault of the save makes it a kill. -/
def recoverySaveStep (s : State) : State :=
  if !recoverySaving s then s
  else if s.rcv.retiring.isSome then
    (if !drained s then s else if recovers s then reportRetired s else killRetired (retireCause s) s)
  else if s.rcv.saveAcc.isSome then
    (if drained s && countsIdle s && !saveWaits s then
      let l := (s.seq.ctx.map (·.launch)).getD 0
      let s := hubWaits s
      let s := updHub (fun h => { h with saved := h.saved.filter (fun v => !(v.launch == l && v.core == pkgIndex s))
        ++ [⟨l, pkgIndex s, recoverySlot s, true, true, s.seq.item, s.seq.firstItem, s.out.grants⟩] }) s
      updRcv (fun r => { r with saveAcc := none, ckpts := [] })
        (updPipe (fun p => { p with flight := [] }) (updSeq (fun q => { q with ctx := none, preempt := none, level := .program }) s))
     else s)
  else if !saveReady s then hasten 0xFFFF s
  else match emitSave .d 7 (tpcOf s.seq.pc s.seq.reps) (recoverySlot s) s with
    | .ok (some t) => t
    | .ok none => s
    | .error _ => killRetired 3 s

/-! ### Consumed errors (R308) -/

/-- The commits made before the operation issued that reads for a slot now (R308): the oldest one that runs in the M or the D engine, the
oldest read of slot L or S that is served, else the bundle that issues. -/
def readerCommit (sl : Slot) (s : State) : Nat :=
  let now := s.rcv.commits
  match sl with
  | .m => (s.mat.mma.toList.map (·.commit) ++ s.mat.load.toList.map (·.commit) ++ s.mat.ret.toList.map (·.commit)).foldl min now
  | .d => ((s.cpy.cmds.filter (fun c => c.stage == .started)).map (·.commit) ++ s.cpy.gather.toList.map (·.commit)
      ++ s.cpy.scatter.toList.map (·.commit)).foldl min now
  | sl => ((s.pipe.flight.filter (fun f => f.slot == sl && (match f.val with | .load _ _ => true | _ => false))).map (·.commit)).foldl min now

/-- UNCORRECTABLE_CONSUMED (R308): an operation of the running program reads a word or line that cannot be corrected. -/
def execUncorrectableConsumed (place : ErrWhere) (slot : Slot) (a : Nat) (h : Fin 16) (s : State) : Host.Outcome State Fault Refusal :=
  .next (if s.seq.ctx.isNone then s
    else consume place slot a (hGuarded (readH s h)) (atSystem s) (readerCommit slot s) (match place with | .globalLine => hbmCount a s | _ => s))

end Sys2Proof.Machine
end

