-- ==== Sys2Proof/Machine/TrustOps.lean ====
section
/-! DEFINITION. The six trust operations of slot S (R378 to R388): their checks at issue, their performing block by block once
they leave the Paddock, and their completion. -/

namespace Sys2Proof.Machine

open Sys2Proof

/-! ### At issue (R378, R379) -/

/-- The walk of a range's pages with the permissions an operation needs (R379); a sealed page is the operation's own business.
An error of none is a stall: a page that is to be written migrates. -/
def trustWalk (r w : Bool) : Nat → Nat → Nat → State → Except (Option (BitVec 8 × Nat)) (List Xlat × State)
  | 0, _, _, s => .ok ([], s)
  | fuel + 1, va, stop, s =>
    if stop ≤ va then .ok ([], s)
    else if !reachesGlobal va then .error (some (cTranslation, va))
    else match translate va s with
      | .error e => .error (some (e, faultPlace s e va))
      | .ok (x, t) =>
        let w0 := x.w0.toNat
        if (r && !ptR w0) || (w && !ptW w0) || ptTier w0 != 0 then .error (some (cPermission, va))
        else if w && ptFrozen w0 then .error none
        else match trustWalk r w fuel (x.va + x.size) stop (if w then markDirty x t else t) with
          | .error e => .error e
          | .ok (xs, u) => .ok (x :: xs, u)

/-- Whether an operation has a tree area. -/
def hasTree (op : TrustOp) : Bool := match op with | .seal | .unseal => true | _ => false

/-- Whether it reads or writes its range, for the page permissions (R379). -/
def rangeReads (op : TrustOp) : Bool := match op with | .krot | .mclrchk | .seal => true | _ => false
def rangeWrites (op : TrustOp) : Bool := match op with | .scrub | .unseal => true | _ => false

/-- Whether a request block is malformed (R379, check 4). -/
def badRequest (op : TrustOp) (base size aux : Nat) : Bool :=
  size == 0 || base % 4096 != 0 || size % 4096 != 0
  || (hasTree op && (base % 65536 != 0 || size % 65536 != 0 || aux % 65536 != 0
      || (decide (aux < base + size) && decide (base < aux + treeArea size))))

/-- The blocks of a range through captured translations. -/
def blocksOf (xs : List Xlat) (base n : Nat) : List Nat := (List.range (n / 4096)).map (fun i => blockOf (globalKey xs (base + 4096 * i)))

/-- The operation ends its phase as the last effect of the commit, and its status is awaited (R380). -/
def postTrust (op : TrustOp) (rd : Fin 32) (a base size aux : Nat) (keys : List Nat) (s : State) : Issued :=
  if rd = 0 then .ok (addLast (.trust op (word a) (word base) (word size) (word aux) keys none) (setCommit .commit s))
  else
    let u := push { Flight.start s .s (.x rd) (.awaited .trust) 1 with variable' := true } s
    .ok (addLast (.trust op (word a) (word base) (word size) (word aux) keys (some s.nextId)) (setCommit .commit u))

/-- An operation with a request block, checked in the order of R379. -/
def trustBody (op : TrustOp) (rd rs1 : Fin 32) (s : State) : Issued :=
  if xEmpty s rs1 || xEmpty s rd || xRecordsFull s rd 2 then .stall
  else
    let a := (readX s rs1).toNat
    let field := fun (i : Nat) => leNat (memGetN s.mem (a + 8 * i) 8)
    let base := field 0
    let size := field 1
    let aux := field 2
    if a % 64 ≠ 0 then .trap (trapAt cMisaligned .s a)
    else if windowOf a ≠ .spad then .trap (trapAt cTranslation .s a)
    else if !keyLive s then .trap ⟨cKey, word (ctxKey s), false⟩
    else if (badKey s ((List.range 32).map (a + ·))).isSome then .trap (lateTrap cUncorrectable a)
    else if badRequest op base size aux then .trap (trapAt cBadData .s a)
    else checked .s (trustWalk (rangeReads op) (rangeWrites op) (size / 65536 + 2) base (base + size) s) (fun xs t =>
      if hasTree op then
        checked .s (trustWalk false (op == .seal) (treeArea size / 65536 + 2) aux (aux + treeArea size) t) (fun ys u =>
          postTrust op rd a base size aux (blocksOf xs base size ++ blocksOf ys aux (treeArea size)) u)
      else postTrust op rd a base size aux (blocksOf xs base size) t)

/-- KGEN (R382): no request block. -/
def execKgen (rd : Fin 32) (s : State) : Host.Outcome State Fault Refusal :=
  issue .s (fun t =>
    if xEmpty t rd || xRecordsFull t rd 2 then .stall
    else if !keyLive t then .trap ⟨cKey, word (ctxKey t), false⟩
    else postTrust .kgen rd 0 0 0 0 [] t) s

/-- KROT (R383). -/
def execKrot (rd rs1 : Fin 32) (s : State) : Host.Outcome State Fault Refusal := issue .s (trustBody .krot rd rs1) s

/-- SEAL (R384). -/
def execSeal (rd rs1 : Fin 32) (s : State) : Host.Outcome State Fault Refusal := issue .s (trustBody .seal rd rs1) s

/-- UNSEAL (R385). -/
def execUnseal (rd rs1 : Fin 32) (s : State) : Host.Outcome State Fault Refusal := issue .s (trustBody .unseal rd rs1) s

/-- SCRUB (R386). -/
def execScrub (rd rs1 : Fin 32) (s : State) : Host.Outcome State Fault Refusal := issue .s (trustBody .scrub rd rs1) s

/-- MCLRCHK (R387). -/
def execMclrchk (rd rs1 : Fin 32) (s : State) : Host.Outcome State Fault Refusal := issue .s (trustBody .mclrchk rd rs1) s

/-! ### Performing (R380 to R387) -/

/-- What performing an operation gives: its status, bytes for the request block by offset, the fault that stopped it, the state. -/
structure Performed where
  status : Nat
  writes : List (Nat × List Byte)
  fault : Option (BitVec 8 × Nat)
  state : State

/-- An operation that ends with a status and nothing for its request block. -/
def ended (n : Nat) (s : State) : Performed := ⟨n, [], none, s⟩

/-- An operation stopped by a fault (R380): status 8. -/
def stopped (c : BitVec 8) (va : Nat) (s : State) : Performed := ⟨8, [], some (c, va), s⟩

/-- An entry m of a measurement log (R390). -/
def extendLog (l m : List Byte) : List Byte := shake256 64 (l ++ m)

/-- KGEN (R382); the die links move to keys of the new epoch (R394). -/
def performKgen (s : State) : Performed :=
  let n := ctxKey s
  let k := keySlot s n
  if s.trust.fault then ended 2 s
  else if 0 < oldBlocks s n k.ce then ended 3 s
  else match draw 32 s with
    | (none, t) => ended (if t.trust.fault && s.trust.retesting then 2 else 1) t
    | (some bs, t) =>
      ended 0 (renewLinkKeys n (updSlot n (fun k => { k with
        secret0 := if k.ce then bs else k.secret0
        secret1 := if k.ce then k.secret1 else bs
        ce := !k.ce
        nold := liveBlocks t n }) t))

/-- The first bad line of a block, by its offset. -/
def blockBad (s : State) (b : Nat) : Option (Nat × BadKind) :=
  (List.range 64).findSome? (fun j => (badAt s (4096 * b + 64 * j)).map (fun k => (64 * j, k)))

/-- KROT over blocks in ascending order (R383). -/
def performKrot : List (Nat × Nat) → State → Performed
  | [], s => ended 0 s
  | (b, va) :: r, s =>
    let rec' := recAt s b
    let ce := (keySlot s (ctxKey s)).ce
    if rec'.zero then performKrot r (setRec { rec' with epoch := ce } s)
    else if rec'.epoch = ce then performKrot r s
    else match blockBad s b with
      | some (o, k) => stopped (badCause k) (va + o) s
      | none => match bumpMajor rec' with
        | some n => performKrot r (setRec { n with epoch := ce, shared := false } s)
        | none => stopped cIntegrity va s

/-- The level above a level of hash nodes (R377). -/
def levelUp : List (List Byte) → List (List Byte)
  | a :: b :: r => pairHash a b :: levelUp r
  | l => l

/-- The levels of a hash tree from its leaves, the root's last. -/
def treeLevels : Nat → List (List Byte) → List (List (List Byte))
  | 0, l => [l]
  | n + 1, l => if l.length ≤ 1 then [l] else l :: treeLevels n (levelUp l)

/-- The tree's bytes written into its blocks (R384): ordinary writes with their records; whether each was performed. -/
def writeTree : List (Nat × Nat) → List Byte → State → Bool × State
  | [], _, s => (true, s)
  | (b, va) :: r, bs, s =>
    if bs.isEmpty then (true, s)
    else match recordWrite va (4096 * b) (min 4096 bs.length) s with
      | some t => writeTree r (bs.drop 4096) (writeHome none (4096 * b) (bs.take 4096) t)
      | none => (false, s)

/-- Whether a page of a range is sealed. -/
def anySealed (v : Vf) (s : State) (base n : Nat) : Bool := (leavesIn v s base n).any (fun x => ptSealed x.w1.toNat)

/-- Number pairs of a range's blocks and addresses. -/
def blockVas (keys : List Nat) (base : Nat) : List (Nat × Nat) := keys.zipIdx.map (fun b => (b.1, base + 4096 * b.2))

/-- SEAL (R384), at a moment when no write translated before is on its way to the range. A fault leaves the pages sealed: the
steps already done stay (R380). -/
def performSeal (v : Vf) (base size aux : Nat) (keys : List Nat) (s : State) : Performed :=
  let n := size / 4096
  let range := blockVas (keys.take n) base
  let tag := BitVec.ofNat 16 (ctxTag s)
  if anySealed v s base size || anySealed v s aux (treeArea size) then ended 6 s
  else if 4096 ≤ s.trust.seals.length ∨ 64 ≤ (s.trust.seals.filter (fun l => l.tag == tag)).length then ended 7 s
  else
    let pages := leavesIn v s base size ++ leavesIn v s aux (treeArea size)
    let t := dropTlb v.vf aux (treeArea size) (dropTlb v.vf base size (pages.foldl (fun t x => setSealed x true t) s))
    match range.findSome? (fun b => (blockBad t b.1).map (fun k => (b.2 + k.1, k.2))) with
    | some (va, k) => stopped (badCause k) va t
    | none =>
      let leaves := (range.zipIdx).map (fun b => leafHash b.2 (memGetN t.mem (4096 * b.1.1) 4096))
      let levels := treeLevels 64 leaves
      let root := (levels.getLast?.bind List.head?).getD []
      match writeTree (blockVas (keys.drop n) aux) (levels.flatten.flatten) t with
      | (false, t) => stopped cIntegrity aux t
      | (true, t) =>
        let t := updTrust (fun u => { u with seals := u.seals ++ [⟨tag, base, size, aux, root⟩] }) t
        let m := shake256 32 ((2 : Byte) :: leBytes 8 size ++ root)
        ⟨0, [(32, root)], none, updVf v.vf (fun v => { v with meas9 := extendLog v.meas9 m }) t⟩

/-- UNSEAL (R385). -/
def performUnseal (v : Vf) (base size aux : Nat) (s : State) : Performed :=
  match s.trust.seals.find? (fun l => l.tag.toNat == ctxTag s && l.base == base && l.size == size && l.aux == aux) with
  | none => ended 5 s
  | some l => ended 0 (dropTlb v.vf aux (treeArea size) (dropTlb v.vf base size (removeSeal v l s)))

/-- SCRUB (R386): each block returns to the zero state, and reads of it return zeros from then on. -/
def performScrub (v : Vf) (base size : Nat) (keys : List Nat) (s : State) : Performed :=
  if anySealed v s base size then ended 6 s
  else ended 0 (keys.foldl (fun t b =>
    let u := setRec { zeroRec t (recAt t b) with epoch := (keySlot t (ctxKey t)).ce } t
    let u := updSys (fun m => { m with bad := m.bad.filter (fun x => !decide (x.1 / 4096 = b)) }) u
    writeHome none (4096 * b) (List.replicate 4096 0) u) s)

/-- MCLRCHK (R387): the first block that is not clear, and the measurement, which is folded into the clear log. -/
def performMclrchk (v : Vf) (base size : Nat) (keys : List Nat) (s : State) : Performed :=
  let bad := (blockVas keys base).find? (fun b => !(recAt s b.1).zero || (match walkVf v s b.2 with | .ok x => ptSealed x.w1.toNat | .error _ => false))
  let status := if bad.isSome then 4 else 0
  let ascii : List Byte := [0x41, 0x58, 0x31, 0x2D, 0x4D, 0x43, 0x4C, 0x52]
  let m := shake256 32 (ascii ++ leBytes 2 (ctxTag s) ++ leBytes 8 base ++ leBytes 8 size ++ leBytes 1 status)
  ⟨status, [(16, leBytes 8 ((bad.map (·.2)).getD 0)), (32, m)], none, updVf v.vf (fun v => { v with meas8 := extendLog v.meas8 m }) s⟩

/-- An operation performed (R380 to R387). -/
def performTrust (op : TrustOp) (base size aux : Nat) (keys : List Nat) (s : State) : Performed :=
  match ctxVf s with
  | none => ended 8 s
  | some v =>
    match op with
    | .kgen => performKgen s
    | .krot => performKrot (blockVas keys base) s
    | .seal => performSeal v base size aux keys s
    | .unseal => performUnseal v base size aux s
    | .scrub => performScrub v base size keys s
    | .mclrchk => performMclrchk v base size keys s

/-- Whether a store on its way goes to one of the blocks. -/
def writesBlocks (s : State) (keys : List Nat) : Bool :=
  (s.out.port ++ s.out.paddock.map (·.entry) ++ s.out.leaving.map (·.entry)).any (fun e => match e.body with
    | .store _ k _ => keys.contains (blockOf k)
    | .block _ k _ _ => keys.contains (blockOf k)
    | _ => false)

/-- TRUST_OP_PERFORM (R380): once every earlier entry is performed at pkg. KGEN waits for a retest that runs (R369); SEAL and
UNSEAL wait for writes translated before the drop (R384, R385). -/
def execTrustOpPerform (n : Nat) (s : State) : Host.Outcome State Fault Refusal :=
  .next (match (leavingAt s n).map (·.entry) with
  | some e => (match e.body with
    | .effect (.trust op a base size aux keys flight) =>
      if !effectDue s n .pkg || (hasTree op && writesBlocks s keys) then s
      else
        let r := performTrust op base.toNat size.toNat aux.toNat keys (dropLeaving n s)
        let d := drawWait r.state
        let f : Option FaultRec := r.fault.map (fun x =>
          ⟨x.1, tvalAddr .s (if x.1 = cIntegrity then x.2 / 64 * 64 else x.2), .s, e.sys⟩)
        updTrust (fun t => { t with done := t.done ++ [⟨n, (s.seq.ctx.map (·.launch)).getD 0, flight, r.status, a.toNat, r.writes,
          if op = .kgen then [] else keys, f, s.pipe.wall + d.1⟩] }) d.2
    | _ => s)
  | none => s)

/-- TRUST_OP_COMPLETE (R380): the result bytes are in the bank, the status fills xd, and the range counts as written at pkg on
every path. A context that is switched out completes its operation when it runs again. -/
def execTrustOpComplete (n : Nat) (s : State) : Host.Outcome State Fault Refusal :=
  .next (match s.trust.done.find? (fun d => d.id == n && decide (d.due ≤ s.pipe.wall)) with
  | none => s
  | some d =>
    if s.seq.ctx.map (·.launch) ≠ some d.launch ∨ saving s = true then s
    else
      let t := updTrust (fun t => { t with done := t.done.filter (fun x => x.id != n) }) s
      let t := d.writes.foldl (fun t w => writeKept (d.block + w.1) w.2 t) t
      let t := mapOld (fun _ l => l.filter (fun o => !d.keys.contains (blockOf o.unit))) t
      let t := match d.flight with | some f => deliver f (.x (word d.status)) t | none => t
      match d.fault with | some f => raiseDeferred f (noteFault f.code (bits f.tval.toNat 0 57) t) | none => t)

end Sys2Proof.Machine
end

