-- ==== Sys2Proof/Machine/Queues.lean ====
section
/-! DEFINITION. Work queues and command rings (R314 to R320), launch records and their checks (R321 to R323, R413), and the host's
and Yard's registers (R319, R350, R398, R399). -/

namespace Sys2Proof.Machine

open Sys2Proof

/-! ### Queue registers (R316, R319) -/

/-- A work queue. -/
def queueAt (s : State) (n : Nat) : Option WQueue := s.hub.queues.find? (fun q => q.q == n)

/-- A queue changed. -/
def updWq (n : Nat) (f : WQueue → WQueue) (s : State) : State :=
  updHub (fun h => { h with queues := h.queues.map (fun q => if q.q == n then f q else q) }) s

/-- Host work that a lost host link holds up (R411). -/
def hostUp (s : State) : Bool := s.links.pcie && !s.links.shed

/-- QUEUE_DOORBELL (R319): the host writes the tail count; in OFF the write is ignored. -/
def execQueueDoorbell (queue : Nat) (tail : BitVec 32) (s : State) : Host.Outcome State Fault Refusal :=
  .next (updWq queue (fun q => if q.state = .off then q else { q with doorbell := tail }) s)

/-- Whether a function's queues may be enabled (R367, R391): it has a LIVE slot, and its interface is neither locked nor in error. -/
def mayEnable (s : State) (vf : Nat) : Bool :=
  match vfAt s vf with
  | some v => (v.tdisp == .unlocked || v.tdisp == .run) && (match v.slot with | some n => (keySlot s n).state == .live | none => false)
  | none => false

/-- A ctl write with enable set (R319): an OFF queue goes to RUN with head 0 and last none, where its function's queues may be enabled; one
that is on takes the size. A size outside 4 to 16 is ignored. -/
def enableQueue (queue size : Nat) (s : State) : State :=
  match queueAt s queue with
  | some q =>
    if size < 4 ∨ 16 < size then s
    else if q.state ≠ .off then updWq queue (fun q => { q with size := size }) s
    else if mayEnable s q.vf then updWq queue (fun q => { q with state := .run, head := 0, last := none, size := size }) s
    else s
  | none => s

/-- QUEUE_ENABLE (R319). -/
def execQueueEnable (queue size : Nat) (s : State) : Host.Outcome State Fault Refusal := .next (enableQueue queue size s)

/-- QUEUE_DISABLE (R319). -/
def execQueueDisable (queue : Nat) (s : State) : Host.Outcome State Fault Refusal :=
  .next (updWq queue (fun q => { q with state := .off }) s)

/-! ### Ring entries (R315 to R317) -/

/-- Whether the hub handles the entry at a queue's head now (R319). -/
def entryDue (q : WQueue) (s : State) : Bool := q.state != .off && q.head != q.doorbell && hostUp s

/-- An event record of a queue. -/
def postQueue (q : WQueue) (code : Byte) (subject value : Word) (s : State) : State := post q.vf ⟨code, q.q, subject, value⟩ s

/-- The next entry follows. -/
def headOn (q : WQueue) (s : State) : State := updWq q.q (fun q => { q with head := q.head + 1 }) s

/-- Whether an entry fails the replay test (R316). -/
def replayed (q : WQueue) (seq : Nat) : Bool :=
  decide (2 ^ 63 ≤ seq) || (match q.last with | some l => decide (seq ≤ l) | none => false)

/-- The replay drop (R316). -/
def replayDrop (q : WQueue) (seq : Nat) (s : State) : State :=
  postQueue q 0x01 (word seq) (match q.last with | some l => word l | none => BitVec.allOnes 64)
    (updWq q.q (fun q => { q with replay := satAdd64 q.replay 1 }) s)

/-- A verified entry that is no resync (R316): carried out in RUN when its seq is next. -/
def handleEntry (queue seq : Nat) (act : WQueue → State → State) (s : State) : State :=
  match queueAt s queue with
  | none => s
  | some q =>
    if !entryDue q s then s
    else
      let next := match q.last with | some l => l + 1 | none => 0
      headOn q (
        if replayed q seq then replayDrop q seq s
        else if q.state = .gap then updWq queue (fun q => { q with gapdrop := BitVec.ofNat 32 (min (q.gapdrop.toNat + 1) (2 ^ 32 - 1)) }) s
        else if seq ≠ next then
          postQueue q 0x03 (word seq) (word (q.last.getD (2 ^ 64 - 1))) (updWq queue (fun q => { q with state := .gap }) s)
        else
          let t := act q (updWq queue (fun q => { q with last := some seq }) s)
          if seq = 2 ^ 63 - 1 then postQueue q 0x05 (word (2 ^ 63 - 1)) 0 (updWq queue (fun q => { q with state := .spent }) t) else t)

/-- NO_OP (R317). -/
def execNoOp (queue seq : Nat) (s : State) : Host.Outcome State Fault Refusal := .next (handleEntry queue seq (fun _ t => t) s)

/-- RESYNC (R316). -/
def execResync (queue seq : Nat) (s : State) : Host.Outcome State Fault Refusal :=
  .next (match queueAt s queue with
  | none => s
  | some q =>
    if !entryDue q s then s
    else headOn q (if replayed q seq then replayDrop q seq s
      else postQueue q 0x04 (word seq) 0 (updWq queue (fun q => { q with last := some seq, state := .run }) s)))

/-- OTHER_TYPE_ENTRY (R317): consumed, with event 0x06 and status 0x10. A launch record address is not known, so the subject is
the seq (R320). -/
def execOtherTypeEntry (queue seq : Nat) (_kind : Byte) (s : State) : Host.Outcome State Fault Refusal :=
  .next (handleEntry queue seq (fun q t => postQueue q 0x06 (word seq) 0x10 t) s)

/-- TAG_FAILURE (R316): dropped in every state but OFF. -/
def execTagFailure (queue seq : Nat) (s : State) : Host.Outcome State Fault Refusal :=
  .next (match queueAt s queue with
  | none => s
  | some q =>
    if !entryDue q s then s
    else headOn q (postQueue q 0x02 (word seq) 0 (updWq queue (fun q => { q with authfail := satAdd64 q.authfail 1 }) s)))

/-! ### Counter adds (R317) -/

/-- COUNTER_ADD (R317): at once, or after every earlier launch of the queue. -/
def execCounterAdd (queue seq : Nat) (a addend : Word) (after : Bool) (s : State) : Host.Outcome State Fault Refusal :=
  .next (handleEntry queue seq (fun q t =>
    if after then updWq queue (fun q => { q with wait := q.wait ++ [(a, addend, t.hub.nextLaunch)] }) t
    else hubAdd q.vf a.toNat addend.toNat t) s)

/-- Whether every launch of a queue numbered below a bound has ended (R317). -/
def launchesEnded (s : State) (queue bound : Nat) : Bool :=
  s.hub.launches.all (fun l => l.queue != queue || decide (bound ≤ l.id) || !killable l)

/-- COUNTER_ADD_DEFERRED (R317). -/
def execCounterAddDeferred (queue : Nat) (s : State) : Host.Outcome State Fault Refusal :=
  .next (match queueAt s queue with
  | none => s
  | some q => match q.wait with
    | (a, addend, n) :: r =>
      if launchesEnded s queue n then hubAdd q.vf a.toNat addend.toNat (updWq queue (fun q => { q with wait := r }) s) else s
    | [] => s)

/-! ### Launch records (R321, R322, R413) -/

/-- Whether every page of a region translates with the permissions (R413). -/
def regionOk (v : Vf) (s : State) (base n : Nat) (write : Bool) : Bool :=
  n == 0 || ((List.range ((base + n - 1) / 65536 - base / 65536 + 1)).all (fun i =>
    let a := base / 65536 * 65536 + 65536 * i
    windowOf a == .global && (match walkVf v s a with
      | .ok x => ptR x.w0.toNat && (!write || (ptW x.w0.toNat && !ptSealed x.w1.toNat))
      | .error _ => false)))

/-- Dies of a function's partition. -/
def partDies (s : State) (vf : Nat) : List Nat :=
  match (vfAt s vf).bind (fun v => s.hub.parts.find? (fun p => p.first == v.part)) with
  | some p => (List.range p.size).map (fun i => p.first + i)
  | none => []

/-- Whether some stage's die mask holds a die. -/
def stageDie (st : List Stage) (d : Nat) : Bool := st.any (fun x => x.dies.getLsbD d)

/-- Whether the slots of an area are usable (R413). -/
def slotsOk (v : Vf) (s : State) (st : List Stage) (area : Nat) : Bool :=
  ((partDies s v.vf).filter (stageDie st)).all (fun d => (List.range 96).all (fun n => regionOk v s (area + (d * 96 + n) * 0x200000) 0x200000 true))

/-- The fields of a launch record (R321). -/
def recordFields (v : Vf) (s : State) (a : Word) : Nat → Nat → Nat := fun off w => leNat (vfBytes v s (a.toNat + off) w)

/-- The wait-before pairs in use. -/
def waitsOf (r : Nat → Nat → Nat) : List (Word × Word) :=
  ((List.range 4).map (fun i => (word (r (64 + 16 * i) 8), word (r (72 + 16 * i) 8)))).filter (fun w => w.1 != 0)

/-- Whether the record's fields hold values outside theirs (R321), or an address of step 2 fails (R322, R413). -/
def badRecord (v : Vf) (s : State) (a : Word) (f : Image) : Bool :=
  let r := recordFields v s a
  let l := sectionsOf f
  a.toNat % 64 != 0 || !regionOk v s a.toNat 256 false
  || r 0 4 != 0x31434E4C || r 4 2 != 1 || decide (8 ≤ r 6 1) || decide (2 ≤ r 7 1)
  || r 8 8 % 65536 != 0 || r 24 8 % 65536 != 0 || r 40 8 % 0x200000 != 0 || r 48 8 % 0x200000 != 0 || r 56 8 % 8 != 0
  || (List.range 4).any (fun i => r (64 + 16 * i) 8 % 8 != 0)
  || (List.range 8).any (fun i => r (128 + 8 * i) 8 % 64 != 0)
  || (List.range 64).any (fun i => r (192 + i) 1 != 0)
  || !regionOk v s (r 8 8) (r 16 8) false || r 16 8 != f 32 8
  || !regionOk v s (r 24 8) (r 32 8) true || decide (r 32 8 < placedSize l)
  || (r 56 8 != 0 && !regionOk v s (r 56 8) 8 true)
  || (waitsOf r).any (fun w => !regionOk v s w.1.toNat 8 false)

/-- The enabled cores of the partition's dies that the masks allow (R322). -/
def maskedCores (s : State) (vf : Nat) (st : List Stage) : Nat :=
  (((partDies s vf).filter (stageDie st)).map (fun d => ((List.range 96).filter (fun n => coreUsable s (d * 96 + n))).length)).sum

/-- Whether the context area, the recovery area or a queue base fails (R322, step 4). -/
def badAreas (v : Vf) (s : State) (a : Word) (f : Image) : Bool :=
  let r := recordFields v s a
  let l := sectionsOf f
  let st := stagesOf f l
  !slotsOk v s st (r 40 8) || (r 48 8 != 0 && !slotsOk v s st (r 48 8))
  || (queueShapes f l).zipIdx.any (fun q => !regionOk v s (r (128 + 8 * q.2) 8) (64 + q.1.1 * q.1.2) true)

/-- The status of a launch record, none when it is accepted (R322). -/
def launchStatus (s : State) (vf : Nat) (a : Word) : Option Nat :=
  match vfAt s vf with
  | none => some 0x15
  | some v =>
    if !(match v.slot with | some n => (keySlot s n).state == .live | none => false) then some 0x15
    else
      let r := recordFields v s a
      let f := imageAt v s (word (r 8 8))
      let st := stagesOf f (sectionsOf f)
      if badRecord v s a f then some 0x10
      else match imageFault f (r 24 8) with
        | some n => some n
        | none =>
          if badAreas v s a f then some 0x10
          else if maskedCores s vf st < (st.map (·.min)).sum then some 0x13
          else if r 7 1 = 1 ∧ r 48 8 = 0 then some 0x14
          else none

/-- A launch as its record and image give it (R321, R323). -/
def launchOf (v : Vf) (s : State) (queue : Nat) (a : Word) : Launch :=
  let r := recordFields v s a
  let f := imageAt v s (word (r 8 8))
  let l := sectionsOf f
  { id := s.hub.nextLaunch, queue := queue, vf := v.vf, record := a, priority := r 6 1, guarded := r 7 1 == 1
    image := word (r 8 8), imageSize := word (r 16 8), load := word (r 24 8), loadSize := word (r 32 8), area := word (r 40 8)
    recovery := word (r 48 8), completion := word (r 56 8), waits := waitsOf r, sections := l, stages := stagesOf f l
    queues := (queueShapes f l).zipIdx.map (fun q => ⟨word (r (128 + 8 * q.2) 8), q.1.1, q.1.2, 0, 0, 0, 0, [], [], [], [], 0⟩)
    state := .submitted, streak := 0, pair := none, move := none, ran := [], remote := [], killInfo := none }

/-- LAUNCH (R317, R322): the record is submitted and checked; the first failure is told in event 0x06. -/
def execLaunch (queue seq : Nat) (record : Word) (s : State) : Host.Outcome State Fault Refusal :=
  .next (handleEntry queue seq (fun q t => match launchStatus t q.vf record, vfAt t q.vf with
    | none, some v => updHub (fun h => { h with launches := h.launches ++ [launchOf v t queue record], nextLaunch := h.nextLaunch + 1 }) t
    | some n, _ => postQueue q 0x06 record (word n) t
    | none, none => t) s)

/-! ### Entries read from a ring (R314, R315, R319) -/

/-- The 128 bytes of the entry at a queue's head (R315, R319). -/
def ringEntry (q : WQueue) (s : State) : List Byte := memGetN s.mem (tierKey 2 (q.base.toNat + 128 * (q.head.toNat % 2 ^ q.size))) 128

/-- The key that protects a function's rings: that of its session, while one is active (R315, R389). -/
def ringKey (s : State) (vf : Nat) : Option (List Byte) := (s.trust.sessions.find? (fun x => x.fn == vf + 1 && x.active)).map (·.key)

/-- The body of an entry, where its tag verifies (R315): the IV is the queue number, the sequence number and two zero bytes, the
additional data the first 16 bytes. -/
def openEntry (s : State) (q : WQueue) (e : List Byte) : Option (List Byte) :=
  (ringKey s q.vf).bind (fun k => Config.gcmOpen k (leBytes 2 q.q ++ e.take 8 ++ [0, 0]) (e.take 16) ((e.drop 16).take 96) (e.drop 112))

/-- The hub handles the entry at a queue's head (R315 to R317). DESIGN CHOICE (93): bytes that R315 gives as 0 are not checked. -/
def handleHead (queue : Nat) (s : State) : Host.Outcome State Fault Refusal :=
  match queueAt s queue with
  | none => .next s
  | some q =>
    if !entryDue q s then .next s
    else
      let e := ringEntry q s
      let seq := leNat (e.take 8)
      match openEntry s q e with
      | none => execTagFailure queue seq s
      | some b =>
        let field := fun (i : Nat) => word (leNat ((b.drop i).take 8))
        match (e.getD 8 0).toNat with
        | 0x00 => execNoOp queue seq s
        | 0x01 => execLaunch queue seq (field 0) s
        | 0x02 => execCounterAdd queue seq (field 0) (field 8) (flag (field 16).toNat 0) s
        | 0x0F => execResync queue seq s
        | k => execOtherTypeEntry queue seq (BitVec.ofNat 8 k) s

/-! ### Event rings and other registers (R398, R399, R350, R360, R410) -/

/-- A ctl write with enable set (R399): head and tail become 0; a size outside 4 to 16 is ignored. -/
def enableRing (vf size : Nat) (s : State) : State :=
  if 4 ≤ size ∧ size ≤ 16 then updVf vf (fun v => { v with ringCtl := word (256 + size), ringHead := 0, ringTail := 0 }) s else s

/-- EVENT_RING_ENABLE (R399). -/
def execEventRingEnable (vf size : Nat) (s : State) : Host.Outcome State Fault Refusal := .next (enableRing vf size s)

/-- Whether a ctl value is accepted (R319, R399): no reserved bit, a size from 4 to 16. -/
def ctlOk (v : Nat) : Bool := decide (v < 512) && bits v 5 3 == 0 && decide (4 ≤ bits v 0 5) && decide (bits v 0 5 ≤ 16)

/-- Whether a context of a function is resident: on this core, or on another one by the crews of its running launches. -/
def vfResident (s : State) (vf : Nat) : Bool :=
  s.seq.ctx.any (fun c => c.vf == vf)
    || s.hub.launches.any (fun l => l.vf == vf && l.state == .running && l.stages.any (fun st => st.crew.any (fun c =>
        c != pkgIndex s && s.hub.saved.all (fun e => e.launch != l.id || e.core != c))))

/-- Whether Yard may change a function's partition binding or root (R350, R391). -/
def rootFree (s : State) (v : Vf) : Bool := !vfResident s v.vf && v.tdisp != .locked && v.tdisp != .run

/-- REGISTER_WRITE (R398): the registers that have no row of their own; a reserved bit set, an offset not named, or a read-only
register leaves everything as it was. -/
def execRegisterWrite (reg : HostReg) (v : Word) (s : State) : Host.Outcome State Fault Refusal :=
  .next (match reg with
  | .queueBase n => updWq n (fun q => if q.state = .off ∧ v.toNat % 4096 = 0 then { q with base := v } else q) s
  | .queueCtl n =>
    if !ctlOk v.toNat then s
    else if flag v.toNat 8 then enableQueue n (bits v.toNat 0 5) s
    else updWq n (fun q => { q with state := .off, size := bits v.toNat 0 5 }) s
  | .ringBase n => updVf n (fun f => if flag f.ringCtl.toNat 8 ∨ v.toNat % 4096 ≠ 0 then f else { f with ringBase := v }) s
  | .ringCtl n =>
    if !ctlOk v.toNat then s
    else if flag v.toNat 8 then enableRing n (bits v.toNat 0 5) s
    else updVf n (fun f => { f with ringCtl := v }) s
  | .ringHead n => updVf n (fun f => if v.toNat < 2 ^ 32 then { f with ringHead := v.setWidth 32 } else f) s
  | .root n => updVf n (fun f => if bits v.toNat 56 8 = 0 ∧ bits v.toNat 3 10 = 0 ∧ bits v.toNat 1 2 < 2 ∧ rootFree s f = true then
      { f with root := v } else f) s
  | .invva n => updVf n (fun f => if f.invBusy ∨ bits v.toNat 57 7 ≠ 0 ∨ bits v.toNat 0 16 ≠ 0 then f else { f with invva := v }) s
  | .quantum part entry => updHub (fun h => { h with parts := h.parts.map (fun p => if p.first = part ∧ entry < 256 then
      let e : Quantum := ⟨bits v.toNat 0 16, bits v.toNat 16 16, bits v.toNat 32 8, bits v.toNat 40 8, bits v.toNat 48 16, 0⟩
      { p with table := p.table.take entry ++ List.replicate (entry - p.table.length) ⟨0, 0, 0, 0, 0, 0⟩ ++ [e] ++ p.table.drop (entry + 1) }
      else p) }) s
  | .yieldbound => updSeq (fun q => { q with yieldbound := v.setWidth 32 }) s
  | .powerLimit => if 1000 ≤ v.toNat ∧ v.toNat ≤ 2600 then updLinks (fun l => { l with powerLimit := v.toNat }) s else s
  | .eyeThreshold stack => updSys (fun m => { m with thresholds := (stack, v) :: m.thresholds.filter (fun t => t.1 != stack) }) s
  | .readOnly _ => s)

/-! ### Translation invalidation (R349, R350) -/

/-- Everything of the core, and of contexts that were saved on it, that is on its way out. -/
def entriesOut (s : State) : List OutEntry :=
  s.out.heldBack ++ s.out.pending ++ s.out.port ++ s.out.paddock.map (·.entry) ++ s.out.leaving.map (·.entry)
    ++ s.rcv.asides.flatMap (fun a => a.held ++ a.pending)

/-- The accesses of the core that use one of some translations and are still on their way, by number (R350): loads, weight loads, and all
that has been translated and is not yet performed at pkg. -/
def accessesBy (xs : List Xlat) (s : State) : List Nat :=
  let page := fun (x : Xlat) => globalKey [x] x.va
  let on := fun (k : Nat) => xs.any (fun x => decide (page x ≤ k) && decide (k < page x + x.size))
  (s.pipe.flight.filter (fun f => match f.val with | .load l _ => l.any (fun c => on c.1) | _ => false)).map (·.id)
    ++ (s.mat.load.toList.filter (fun o => o.pages.any (fun x => xs.any (fun y => y.vf == x.vf && y.same x)))).map (·.id)
    ++ ((entriesOut s).filter (fun e => xs.any (fun x => e.hitsPage (page x) x.size))).map (·.id)

/-- The accesses that are still on their way. -/
def accessIds (s : State) : List Nat :=
  (s.pipe.flight.filter (fun f => match f.val with | .load _ _ => true | _ => false)).map (·.id) ++ s.mat.load.toList.map (·.id)
    ++ (entriesOut s).map (·.id)

/-- INVALIDATE (R350): a write of invctl drops the function's cached translations of the range; 0 means all. The accesses that used one of
them are noted. While busy, or with a reserved bit set, it is ignored. -/
def execInvalidate (vf : Nat) (len : BitVec 64) (s : State) : Host.Outcome State Fault Refusal :=
  .next (match vfAt s vf with
  | none => s
  | some v =>
    if v.invBusy ∨ 2 ^ 32 ≤ len.toNat then s
    else
      let lo := if len = 0 then 0 else v.invva.toNat
      let n := if len = 0 then 2 ^ 57 else 65536 * len.toNat
      let hit := s.sys.tlb.filter (fun x => x.vf == vf && decide (x.va < lo + n) && decide (lo < x.va + x.size))
      let used := if s.seq.ctx.any (fun c => c.vf == vf) then accessesBy hit s else []
      dropTlb vf lo n (updVf vf (fun v => { v with invlen := len.setWidth 32, invBusy := true, invIds := used }) s))

/-- INVALIDATE_DONE (R350): busy clears once what used a dropped translation is performed at pkg. -/
def execInvalidateDone (vf : Nat) (s : State) : Host.Outcome State Fault Refusal :=
  .next (match vfAt s vf with
  | some v => if v.invBusy ∧ v.invIds.any (fun n => (accessIds s).contains n) = false then
      updVf vf (fun v => { v with invBusy := false, invIds := [] }) s else s
  | none => s)

end Sys2Proof.Machine
end

