-- ==== Sys2Proof/Machine/MemorySystem.lean ====
section
/-! DEFINITION. The memory system's own work: migration of pages (R351, R352), refresh (R355, R356), eye monitors and lane repair
(R358, R359, R408), and bandwidth shares (R360 to R362). -/

namespace Sys2Proof.Machine

open Sys2Proof

/-! ### Migration (R351, R352) -/

/-- Whether a write that was translated to a page is still on its way to it, or not yet at its home (R351, step 1). An effect that is held
back, or waits for earlier writes, stalls and finds the new copy (R111). -/
def pageWritesOut (s : State) (base size : Nat) : Bool :=
  (s.out.port ++ s.out.paddock.map (·.entry) ++ s.out.leaving.map (·.entry)).any (fun e => e.hitsPage base size)
    || s.sys.old.any (fun u => !u.pkg && hits u.unit 8 base size)

/-- Whether a load translated to a page still lacks its value (R351, step 3). -/
def pageReadsOut (s : State) (base size : Nat) : Bool :=
  s.pipe.flight.any (fun f => match f.val with | .load l _ => l.any (fun c => c.2.isNone && hits c.1 1 base size) | _ => false)
    || s.mat.load.any (fun o => o.pages.any (fun x => hits (globalKey [x] x.va) x.size base size))

/-- MIGRATION_REQUEST (R351, step 1): the leaf is frozen and the page's translations are dropped. A page that is frozen answers
busy (R352); one that no leaf maps, or a target that its tier does not hold, answers a failure. -/
def execMigrationRequest (vf : Nat) (va : Word) (tier dpa : Nat) (s : State) : Host.Outcome State Fault Refusal :=
  .next (match vfAt s vf with
  | none => reply 0 "MIGRATE" 0xFF [] s
  | some v => match walkVf v s va.toNat with
    | .error _ => reply 0 "MIGRATE" 0xFF [] s
    | .ok x =>
      if ptFrozen x.w0.toNat then reply 0 "MIGRATE" 1 [] s
      else if 3 ≤ tier ∨ dpa % x.size ≠ 0 ∨ tierFits s tier dpa x.size = false
          ∨ hits (pageKey tier dpa) x.size (globalKey [x] x.va) x.size = true then reply 0 "MIGRATE" 0xFF [] s
      else
        let m : Migration := ⟨vf, x.va, x.leafAddr, x.w0 ||| 0x40, x.w1, tier, dpa, x.size, false, false⟩
        updSys (fun y => { y with migrations := y.migrations ++ [m] }) (dropTlb vf x.va x.size (orLeaf x 0x40 s)))

/-- The migration of a page that has not switched. -/
def migrationAt (s : State) (vf : Nat) (va : Word) : Option Migration :=
  s.sys.migrations.find? (fun m => m.vf == vf && m.va == va.toNat && !m.switched)

/-- Ciphertext, MACs and records of one copy to another place, as plaintext, bad lines and records (R351, step 2). -/
def copyPage (src dst size : Nat) (s : State) : State :=
  let cells := s.mem.filter (fun c => hits c.1 1 src size)
  let m := cells.foldl (fun m c => memPut m (c.1 - src + dst) c.2) (memClear s.mem dst size)
  let recs := (s.sys.recs.filter (fun r => hits (4096 * r.block) 4096 src size)).map (fun r => { r with block := (4096 * r.block - src + dst) / 4096 })
  let bad := (s.sys.bad.filter (fun b => hits b.1 1 src size)).map (fun b => (b.1 - src + dst, b.2))
  let t := updSys (fun y => { y with bad := bad ++ y.bad.filter (fun b => !hits b.1 1 dst size) }) (setMem m s)
  recs.foldl (fun t r => setRec r t) (releaseRecs dst size t)
where
  /-- The records of a range as they are before anything is written there. -/
  releaseRecs (dst size : Nat) (s : State) : State :=
    updSys (fun y => { y with recs := y.recs.filter (fun r => !hits (4096 * r.block) 4096 dst size) }) s

/-- MIGRATION_COPY (R351, step 2): once every earlier write to the page is performed. -/
def execMigrationCopy (vf : Nat) (va : Word) (s : State) : Host.Outcome State Fault Refusal :=
  .next (match migrationAt s vf va with
  | none => s
  | some m =>
    if m.copied || pageWritesOut s m.source m.size then s
    else updSys (fun y => { y with migrations := y.migrations.map (fun x => if x == m then { x with copied := true } else x) })
      (copyPage m.source m.target m.size s))

/-- A key moved with its page. -/
def moveKey (src dst size k : Nat) : Nat := if hits k 1 src size then k - src + dst else k

/-- An effect that was translated to the old copy and is performed after the switch (R111, R351). -/
def OutEntry.movePage (src dst size : Nat) (e : OutEntry) : OutEntry :=
  match e.body with
  | .effect (.atomic a k op w b c f) => { e with body := .effect (.atomic a (moveKey src dst size k) op w b c f) }
  | .effect (.relh l p h) => { e with body := .effect (.relh (l.map (fun i => { i with key := moveKey src dst size i.key })) p h) }
  | .effect (.copyInc c a k n sc) => { e with body := .effect (.copyInc c a (moveKey src dst size k) n sc) }
  | .effect (.scatterInc c a k n sc) => { e with body := .effect (.scatterInc c a (moveKey src dst size k) n sc) }
  | .effect (.trust op a b n x keys f) =>
    { e with body := .effect (.trust op a b n x (keys.map (fun k => moveKey src dst size (4096 * k) / 4096)) f) }
  | _ => e

/-- A change to everything that is on its way out: what is held back and waits, in checkpoints and saved contexts too, and what has been
released. -/
def mapEntries (f : OutEntry → OutEntry) (s : State) : State :=
  updRcv (fun r => { r with
      ckpts := r.ckpts.map (fun c => { c with heldBack := c.heldBack.map f })
      asides := r.asides.map (fun a => { a with held := a.held.map f, pending := a.pending.map f }) })
    (updOut (fun o => { o with
      heldBack := o.heldBack.map f
      pending := o.pending.map f
      port := o.port.map f
      paddock := o.paddock.map (fun e => { e with entry := f e.entry })
      leaving := o.leaving.map (fun e => { e with entry := f e.entry }) }) s)

/-- The software's fields of a leaf (R345). -/
def swFields (w0 w1 : Nat) : Nat × Nat := (w0 - w0 % 128 + w0 % 16, w1 - w1 / 512 % 2 * 512)

/-- The leaf names the new copy, and what is on its way to the page goes there: effects, the values that loads may still return, and the
writes that waited (R111, R351, step 3). -/
def switchPage (m : Migration) (w : Nat × Nat) (s : State) : State :=
  let moved := bits w.1 0 6 + bits w.1 56 8 * 2 ^ 56 + m.tier * 2 ^ 7 + m.dpa / 512 * 2 ^ 9
  let t := dropTlb m.vf m.va m.size (setMem (memPutN s.mem m.leafAddr (leBytes 8 moved)) s)
  let t := mapEntries (OutEntry.movePage m.source m.target m.size) t
  let t := mapOld (fun _ l => l.map (fun u => { u with unit := moveKey m.source m.target m.size u.unit })) t
  thaw (updSys (fun y => { y with migrations := y.migrations.map (fun x => if x == m then { x with switched := true } else x) }) t)

/-- A migration that has switched ends once every load translated to the old copy has its value: the old copy is released (R351, steps 3 and
4). -/
def releaseOld (m : Migration) (s : State) : State :=
  if pageReadsOut s m.source m.size then s
  else releaseBlocks m.source m.size (updSys (fun y => { y with migrations := y.migrations.filter (fun x => x != m) }) s)

/-- MIGRATION_SWITCH (R351, steps 3 and 4): the leaf is compared and swapped, the translations drop, the old copy is released.
Changed software fields fail it: the target copy is released and the entry stands (R352). -/
def execMigrationSwitch (vf : Nat) (va : Word) (s : State) : Host.Outcome State Fault Refusal :=
  .next (match migrationAt s vf va with
  | some m =>
    if !m.copied then s
    else
      let w := entryWords s m.leafAddr
      if swFields w.1 w.2 ≠ swFields m.leaf0.toNat m.leaf1.toNat then abandonMigration m s else switchPage m w s
  | none => match s.sys.migrations.find? (fun m => m.vf == vf && m.va == va.toNat && m.switched) with
    | some m => releaseOld m s
    | none => s)

/-! ### Refresh (R355, R356) -/

/-- A bank's record; one that is not listed owes nothing. -/
def bankAt (s : State) (stack chan pc bank : Nat) : Bank :=
  (s.sys.banks.find? (fun b => b.stack == stack && b.chan == chan && b.pc == pc && b.bank == bank)).getD ⟨stack, chan, pc, bank, 0, 0, 0⟩

/-- A bank's record written. -/
def setBank (b : Bank) (s : State) : State :=
  updSys (fun m => { m with banks := b :: m.banks.filter (fun x => !(x.stack == b.stack && x.chan == b.chan && x.pc == b.pc && x.bank == b.bank)) }) s

/-- Whether a bank exists (R341, R342). -/
def bankExists (stack chan pc bank : Nat) : Bool := decide (stack < 16) && decide (chan < 32) && decide (pc < 2) && decide (bank < 16)

/-- PER_BANK_REFRESH (R355): a refresh window of a bank. Its refresh falls due, and the controller issues a free number of those
owed: up to 8 may stay postponed. -/
def execPerBankRefresh (stack chan pc bank : Nat) (s : State) : Host.Outcome State Fault Refusal :=
  .next (if bankExists stack chan pc bank then
      let b := bankAt s stack chan pc bank
      let d := drawChoice s
      let left := d.1 % (min 8 (b.owed + 1) + 1)
      setBank { b with owed := left, refreshes := b.refreshes + (b.owed + 1 - left) } d.2
    else s)

/-- ACTIVATION_ALERT (R356): every owed refresh is issued, then the refresh-management command. -/
def execActivationAlert (stack chan pc bank : Nat) (s : State) : Host.Outcome State Fault Refusal :=
  .next (if bankExists stack chan pc bank then
      let b := bankAt s stack chan pc bank
      setBank { b with owed := 0, refreshes := b.refreshes + b.owed, mgmt := b.mgmt + 1 } s
    else s)

/-! ### Lanes (R358, R359, R408) -/

/-- A lane's record; one that is not listed has never fallen below its threshold. -/
def laneAt (s : State) (stack chan pc lane : Nat) : Lane :=
  (s.sys.lanes.find? (fun l => l.stack == stack && l.chan == chan && l.pc == pc && l.lane == lane)).getD ⟨stack, chan, pc, lane, 0, false⟩

/-- A lane's record written. -/
def setLane (l : Lane) (s : State) : State :=
  updSys (fun m => { m with lanes := l :: m.lanes.filter (fun x => !(x.stack == l.stack && x.chan == l.chan && x.pc == l.pc && x.lane == l.lane)) }) s

/-- The lines of a pseudo-channel that were written: those of the stack's blocks that do not read as zero (R342, R370). -/
def linesOfPc (s : State) (stack chan pc : Nat) : List Nat :=
  (s.sys.recs.filter (fun r => !r.zero && hits (4096 * r.block) 4096 (tierKey 0 (stack * 2 ^ 36)) (2 ^ 36))).map (fun r => 4096 * r.block + 128 * chan + 64 * pc)

/-- A pseudo-channel is out of service; with its third a stack is (R408). A stack that is still in use serves its lines from spare
rows; those written before are poisoned until they are rewritten (R411). -/
def disablePc (stack chan pc : Nat) (s : State) : State :=
  if s.sys.deadPc.contains (stack, chan, pc) then s
  else updSys (fun m =>
    let d := (stack, chan, pc) :: m.deadPc
    let l := (linesOfPc s stack chan pc).filter (fun k => !m.bad.any (fun b => b.1 == k))
    { m with deadPc := d
             bad := l.map (fun k => (k, .uncorrectable)) ++ m.bad
             deadStacks := if decide (3 ≤ (d.filter (fun x => x.1 == stack)).length) && !m.deadStacks.contains stack then stack :: m.deadStacks else m.deadStacks }) s

/-- CHANNEL_RETRAIN (R358, R359): a lane has fallen below its stack's threshold and its channel retrains, for at most 4 µs and
one channel of a stack at a time; `cleared` tells that the lane is above it again. A lane that stays below after three retrains in
a row moves to the spare at the next one; a second such lane of a pseudo-channel disables it. No stored value changes. -/
def execChannelRetrain (stack chan pc lane : Nat) (cleared : Bool) (s : State) : Host.Outcome State Fault Refusal :=
  .next (if !(decide (stack < 16) && decide (chan < 32) && decide (pc < 2))
      || s.sys.retraining.any (fun r => r.1 == stack && decide (s.pipe.ref < r.2.2)) then s
    else
      let d := drawLatency 0 6000 s
      let t := updSys (fun m => { m with
        retraining := (stack, chan, s.pipe.ref + d.1) :: m.retraining.filter (fun r => r.1 != stack)
        lanes := m.lanes.map (fun l => if l.stack == stack && l.chan == chan && decide (3 ≤ l.below) then { l with below := 0, repaired := true } else l) }) d.2
      let t := sharedErr 17 t
      let l := laneAt t stack chan pc lane
      if l.repaired then t
      else
        let n := if cleared then 0 else l.below + 1
        let t := setLane { l with below := n } t
        let second := t.sys.lanes.any (fun x => x.stack == stack && x.chan == chan && x.pc == pc && x.lane != lane && (x.repaired || decide (3 ≤ x.below)))
        if decide (3 ≤ n) && second then disablePc stack chan pc t else t)

/-! ### Bandwidth shares (R360 to R362) -/

/-- BUDGET_WRITE (R360). -/
def execBudgetWrite (v : Word) (s : State) : Host.Outcome State Fault Refusal :=
  .next (if 1 ≤ v.toNat ∧ v.toNat ≤ 524288 then updSys (fun m => { m with budget := v.toNat }) s else s)

/-- A share of the table: entry i's share and tag. -/
def shareAt (s : State) (i : Nat) : Nat × Nat :=
  match s.sys.shares.find? (fun e => e.1 == i) with | some e => e.2 | none => (0, 0)

/-- SHARE_WRITE (R360): ignored with a reserved bit, with a sum above 1,024, or with a tag that another nonzero share has. -/
def execShareWrite (i : Nat) (v : Word) (s : State) : Host.Outcome State Fault Refusal :=
  let share := bits v.toNat 16 11
  let tag := bits v.toNat 0 16
  let rest := s.sys.shares.filter (fun e => e.1 != i)
  .next (if 1024 ≤ i ∨ 2 ^ 27 ≤ v.toNat ∨ 1024 < share + (rest.map (fun e => e.2.1)).sum
      ∨ (share ≠ 0 ∧ rest.any (fun e => e.2.1 != 0 && e.2.2 == tag)) then s
    else updSys (fun m => { m with shares := (i, share, tag) :: rest }) s)

/-- The share of a tenant (R360). -/
def shareOf (s : State) (tag : Nat) : Nat :=
  match s.sys.shares.find? (fun e => e.2.1 != 0 && e.2.2 == tag) with | some e => e.2.1 | none => 0

/-- The other tenants' shares with demand at a boundary: which have it is free (assumption 1). -/
def otherDemand : List Nat → State → Nat × State
  | [], s => (0, s)
  | x :: r, s =>
    let d := drawChoice s
    let t := otherDemand r d.2
    (t.1 + (if d.1 % 2 = 0 then x else 0), t.2)

/-- Whether the core has demand (R362). -/
def hasDemand (s : State) : Bool := s.seq.ctx.isSome && (s.out.waiting || s.out.spent)

/-- The refill of this core (R361): the tenants with demand share the budget, its cores with demand share the tenant's part. How
many other cores of the tenant have demand, below and above this one, is free. -/
def refill (s : State) : Nat × State :=
  if !hasDemand s || !throttled s then (0, s)
  else
    let own := shareOf s (ctxTag s)
    let o := otherDemand ((s.sys.shares.filter (fun e => e.2.1 != 0 && e.2.2 != ctxTag s)).map (fun e => e.2.1)) s
    let lo := drawChoice o.2
    let hi := drawChoice lo.2
    let below := lo.1 % (pkgIndex s + 1)
    let n := below + 1 + hi.1 % (768 - pkgIndex s)
    let t := s.sys.budget * own / (own + o.1)
    (t / n + (if below < t % n then 1 else 0), hi.2)

/-- BANDWIDTH_BOUNDARY (R361): once in every 1,024 cycles of the reference timer; unused tokens are not carried. -/
def execBandwidthBoundary (s : State) : Host.Outcome State Fault Refusal :=
  .next (if s.sys.bwDone < s.pipe.ref / 1024 then
      let r := refill s
      updSys (fun m => { m with bwDone := s.pipe.ref / 1024 })
        (updOut (fun o => { o with tokens := r.1, spent := false, waiting := false }) r.2)
    else s)

end Sys2Proof.Machine
end

