-- ==== Sys2Proof/Machine/Hub.lean ====
section
/-! DEFINITION. The stage scheduler: launches that start and complete (R324, R326), rebalancing and stage moves (R327 to R329),
core allocation (R330), contexts resumed (R306, R335), partitions and slices (R332 to R335), and gangs (R339, R340). -/

namespace Sys2Proof.Machine

open Sys2Proof

/-! ### Partitions and cores -/

/-- A partition by its first die. -/
def partAt (s : State) (first : Nat) : Option Part := s.hub.parts.find? (fun p => p.first == first)

/-- A partition changed. -/
def updPart (first : Nat) (f : Part → Part) (s : State) : State :=
  updHub (fun h => { h with parts := h.parts.map (fun p => if p.first == first then f p else p) }) s

/-- The partition of a function. -/
def partOfVf (s : State) (vf : Nat) : Option Part := (vfAt s vf).bind (fun v => partAt s v.part)

/-- The function whose slice runs on a partition. -/
def runningVf (p : Part) : Option Nat := p.running.bind (fun i => (p.table[i]?).map (·.vf))

/-- Whether this core can be given to a context: it holds none, and nothing of an earlier one is on its way. -/
def coreReady (s : State) : Bool := s.seq.run == .idle && s.seq.ctx.isNone && drained s

/-- The free cores of a partition that can start a context. -/
def freeCores (s : State) (p : Part) : List Nat := p.pool.filter (fun c => coreUsable s c && (c != pkgIndex s || coreReady s))

/-- Whether a core's die lies in a mask. -/
def inMask (m : BitVec 8) (core : Nat) : Bool := m.getLsbD (core / 96)

/-! ### Routes between dies (R9, R402, R409) -/

/-- Whether the link of two dies is out of service. -/
def linkDown (s : State) (a b : Nat) : Bool := s.links.dieLinks.any (fun k => k.a == min a b && k.b == max a b && !k.up)

/-- Whether a link of a row between two columns is out of service. -/
def rowDown (s : State) (row c d : Nat) : Bool :=
  (List.range 3).any (fun i => decide (min c d ≤ i) && decide (i < max c d) && linkDown s (4 * row + i) (4 * row + i + 1))

/-- Whether the rows are crossed, in a column, without a link out of service. -/
def crossDown (s : State) (a b col : Nat) : Bool := a / 4 != b / 4 && linkDown s col (col + 4)

/-- Whether two compute dies reach each other: along the row first, else across the rows first (R402, R409). -/
def reaches (s : State) (a b : Nat) : Bool :=
  a == b || (!rowDown s (a / 4) (a % 4) (b % 4) && !crossDown s a b (b % 4))
    || (!crossDown s a b (a % 4) && !rowDown s (b / 4) (a % 4) (b % 4))

/-- Sets of at most n dies that reach each other, those with the lower dies first. -/
def dieSets (s : State) : Nat → List Nat → List (List Nat)
  | 0, _ => [[]]
  | _, [] => [[]]
  | n + 1, d :: r =>
    let near := r.filter (reaches s d)
    (dieSets s n near).map (fun t => d :: t) ++ (if near.length = r.length then [] else dieSets s n r)

/-- Whether a core's die and those of a launch's cores, but for one that it replaces, reach each other (R409). -/
def spans (s : State) (l : Launch) (old : Option Nat) (core : Nat) : Bool :=
  l.stages.all (fun st => st.crew.all (fun c => old == some c || reaches s (c / 96) (core / 96)))

/-- Cores taken from the pools. -/
def takeCores (l : List Nat) (s : State) : State :=
  updHub (fun h => { h with parts := h.parts.map (fun p => { p with pool := p.pool.filter (fun c => !l.contains c) }) }) s

/-- A stage of a launch changed. -/
def updStage (launch stage : Nat) (f : Stage → Stage) (s : State) : State :=
  updLaunch launch (fun l => { l with stages := modifyAt l.stages stage f }) s

/-- A core joins a stage's crew. -/
def joinCrew (launch stage core : Nat) (s : State) : State :=
  updLaunch launch (fun l => { l with
    stages := modifyAt l.stages stage (fun st => { st with crew := st.crew ++ [core] })
    ran := if l.ran.contains core then l.ran else l.ran ++ [core] }) s

/-! ### Kernels started and contexts resumed on this core -/

/-- This core starts a stage's kernel with a clean scratchpad (R147, R324). -/
def startHere (launch stage : Nat) (s : State) : State :=
  match launchAt s launch with
  | some l => (match stagePlacement s l stage with
    | some p => startKernel l stage p [] { s with mem := withSpad [] s.mem, rcv := { s.rcv with spadWritten := [] } }
    | none => s)
  | none => s

/-- A core of the package starts a stage's kernel; what another core then does is the environment's (assumption 1). -/
def startCore (launch stage core : Nat) (s : State) : State :=
  let t := joinCrew launch stage core (takeCores [core] s)
  if core = pkgIndex s then startHere launch stage t else t

/-- The hub resumes a saved context on this core (R335): CTXLOAD from its area, then TRET. A fault of the load stops the context
as one in a handler does (R141). -/
def resumeHere (l : Launch) (stage : Nat) (e : Saved) (s : State) : State :=
  match stagePlacement s l stage, vfAt s l.vf with
  | some p, some v =>
    let c : Ctx := ⟨l.id, stage, l.vf, word (imageAt v s l.image 16 8)⟩
    let t : State := { s with
      seq := { bareSeq s with run := .running, level := .system, tenant := tenantOf v, handlerLatcon := p.latcon, ctx := some c
                              item := e.item, firstItem := e.firstItem }
      regs := Regs.afterReset
      mat := Mat.afterReset
      cpy := Cpy.afterReset
      code := p.code
      ubrov := p.ubrov
      pipe := idlePipe s.pipe
      out := { idleOut s.out with grants := e.grants }
      rcv := idleRcv s.rcv }
    match loadArea e.area t with
    | .ok u => takeCkpt (leaveHandler u)
    | .error f => updSeq (fun q => { q with run := .stopped 1 f.code.toNat 0 }) t
  | _, _ => s

/-- The stage whose crew holds a core. -/
def stageOf (l : Launch) (core : Nat) : Option Nat :=
  (l.stages.zipIdx.find? (fun st => st.1.crew.contains core)).map (·.2)

/-- A saved context resumes on a core: the crew, the queues and the die window know it there (R306, R335). -/
def resumeOn (e : Saved) (core : Nat) (s : State) : State :=
  match launchAt s e.launch with
  | none => s
  | some l => match stageOf l e.core with
    | none => s
    | some st =>
      let swap := fun (c : Nat) => if c = e.core then core else c
      let t := updHub (fun h => { h with saved := h.saved.filter (fun x => x != e) }) (takeCores [core] s)
      let t := updLaunch l.id (fun l => { l with
        stages := modifyAt l.stages st (fun x => { x with crew := x.crew.map swap })
        queues := l.queues.map (fun q => { q with takers := q.takers.map swap })
        ran := if l.ran.contains core then l.ran else l.ran ++ [core] }) t
      let t := if core = e.core then t
        else updVf l.vf (fun v => { v with remap := (e.core, core) :: v.remap.filter (fun r => r.1 != e.core) }) t
      if core = pkgIndex s then resumeHere l st e t
      else updRcv (fun r => { r with asides := r.asides.filter (fun a => a.area != e.area) }) t

/-! ### Starting launches (R324, R330) -/

/-- Whether every wait-before counter has reached its target, read at its home (R104, R324). -/
def waitsMet (s : State) (l : Launch) : Bool :=
  match vfAt s l.vf with
  | some v => l.waits.all (fun w => decide (w.2.toNat ≤ leNat (vfBytes v s w.1.toNat 8)))
  | none => false

/-- Whether a launch is ready (R324). -/
def ready (s : State) (l : Launch) : Bool :=
  l.state == .submitted && waitsMet s l
    && s.hub.launches.all (fun x => x.queue != l.queue || decide (l.id ≤ x.id) || x.state != .submitted)

/-- The ready launches of the slice that runs on a partition. -/
def readyOn (s : State) (p : Part) : List Launch :=
  s.hub.launches.filter (fun l => ready s l && runningVf p == some l.vf && (vfAt s l.vf).any (fun v => v.part == p.first))

/-- How far a queue lies from the partition's pointer, the search wrapping at 65,536 (R330). -/
def fromPtr (p : Part) (q : Nat) : Nat := (q + 65536 - p.wqPtr) % 65536

/-- The launch that step 1 of R330 considers next: highest priority; then the first queue from the pointer; then the oldest. -/
def nextReady (s : State) (p : Part) : Option Launch :=
  let better := fun (a b : Launch) => decide (b.priority < a.priority)
    || (a.priority == b.priority && (decide (fromPtr p a.queue < fromPtr p b.queue)
        || (a.queue == b.queue && decide (a.id < b.id))))
  (readyOn s p).foldl (fun m l => match m with | some x => if better l x then some l else some x | none => some l) none

/-- All sublists of a list of masks with their demands: the sum of demands and the union of masks. -/
def demandSets : List (BitVec 8 × Nat) → List (BitVec 8 × Nat)
  | [] => [(0, 0)]
  | d :: r => demandSets r ++ (demandSets r).map (fun x => (x.1 ||| d.1, x.2 + d.2))

/-- Whether a list of cores can give every demand its number of cores from its mask: every set of demands finds enough cores in
the union of its masks. -/
def canGive (cores : List Nat) (l : List (BitVec 8 × Nat)) : Bool :=
  (demandSets l).all (fun d => decide (d.2 ≤ (cores.filter (inMask d.1)).length))

/-- The demands that remain after a stage has n cores. -/
def lessDemand (l : List (BitVec 8 × Nat)) (i : Nat) : List (BitVec 8 × Nat) := modifyAt l i (fun d => (d.1, d.2 - 1))

/-- Cores for one stage of a start, to n of them: each is a free choice among those that leave enough for what remains. -/
def fillStage (launch i : Nat) (mask : BitVec 8) : Nat → List (BitVec 8 × Nat) → List Nat → State → List (BitVec 8 × Nat) × List Nat × State
  | 0, l, cores, s => (l, cores, s)
  | n + 1, l, cores, s =>
    let rest := lessDemand l i
    let ok := cores.filter (fun c => inMask mask c && canGive (cores.filter (· != c)) rest)
    let d := drawChoice s
    match ok[d.1 % max 1 ok.length]? with
    | some c => fillStage launch i mask n rest (cores.filter (· != c)) (startCore launch i c d.2)
    | none => (l, cores, s)

/-- Every stage to its minimum in ascending order, then each toward init (R330, step 1). -/
def fillLaunch (l : Launch) (cores : List Nat) (s : State) : State :=
  let demand := l.stages.map (fun st => (st.dies, st.min))
  let a := l.stages.zipIdx.foldl (fun r st => fillStage l.id st.2 st.1.dies st.1.min r.1 r.2.1 r.2.2) (demand, cores, s)
  (l.stages.zipIdx.foldl (fun r st => fillStage l.id st.2 st.1.dies (st.1.init - st.1.min) r.1 r.2.1 r.2.2) a).2.2

/-- The sections of an image go to the load area (R321, R324, step 2), 64 bytes at a time. -/
def placeSections (v : Vf) (l : Launch) (s : State) : State :=
  (placedFrom l.load.toNat l.sections).foldl (fun t x =>
    (List.range ((x.1.size + 63) / 64)).foldl (fun t i =>
      hubStore l.vf (x.2 + 64 * i) (vfBytes v t (l.image.toNat + x.1.offset + 64 * i) (min 64 (x.1.size - 64 * i))) t) t) s

/-- The free cores that a launch can start on: those of dies that reach each other (R409), when they can give it its minima (R330). -/
def launchCores (s : State) (p : Part) (l : Launch) : Option (List Nat) :=
  let free := freeCores s p
  (dieSets s 8 ((List.range 8).filter (fun d => free.any (fun c => c / 96 == d)))).findSome? (fun t =>
    let cores := free.filter (fun c => t.contains (c / 96))
    if canGive cores (l.stages.map (fun st => (st.dies, st.min))) then some cores else none)

/-- The start of a launch that gets its cores (R324). Its key slot is checked again (R322). -/
def startLaunch (p : Part) (l : Launch) (s : State) : State :=
  match vfAt s l.vf with
  | none => s
  | some v =>
    if !(match v.slot with | some n => (keySlot s n).state == .live | none => false) then
      post l.vf ⟨0x06, l.queue, l.record, 0x15⟩ (updLaunch l.id (fun l => { l with state := .gone }) s)
    else
      let t := l.queues.foldl (fun t q => hubStore l.vf (q.base.toNat + 8) (leBytes 8 0) (hubStore l.vf q.base.toNat (leBytes 8 0) t)) s
      let t := placeSections v l t
      let t := updPart p.first (fun p => { p with wqPtr := (l.queue + 1) % 65536 }) (updLaunch l.id (fun l => { l with state := .running }) t)
      fillLaunch l ((launchCores s p l).getD []) t

/-- Whether the pool can give a launch its minima (R330). -/
def fits (s : State) (p : Part) (l : Launch) : Bool := (launchCores s p l).isSome

/-- The launch that starts now on a partition (R330, step 1): none when the one considered does not fit, or while a switch is in
progress (R335). -/
def startable (s : State) (p : Part) : Option Launch :=
  (nextReady s p).bind (fun l => if p.switching.isNone && fits s p l then some l else none)

/-- LAUNCH_START (R324): the launch that R330 considers next starts. -/
def execLaunchStart (launch : Nat) (s : State) : Host.Outcome State Fault Refusal :=
  .next (match (launchAt s launch).bind (fun l => partOfVf s l.vf) with
  | some p => (match startable s p with
    | some l => if l.id = launch then startLaunch p l s else s
    | none => s)
  | none => s)

/-! ### Pressures (R327, R328) -/

/-- A term of the pressure: 65,536 times how full a queue is, rounded down. -/
def fullness (l : Launch) (q : Option Nat) : Nat :=
  match q.bind (fun i => l.queues[i]?) with
  | some q => 65536 * (q.tail - q.head) / q.entries
  | none => 0

/-- The pressure of a stage (R327). -/
def pressure (l : Launch) (st : Stage) : Int := (fullness l st.inq : Int) - fullness l st.outq

/-- Whether a stage is frozen (R327): a barrier of its crew is incomplete, or a move into or out of it is in progress. -/
def frozenStage (s : State) (l : Launch) (i : Nat) : Bool :=
  barrierOpen s l.id i
    || (match s.seq.run, s.seq.ctx with
        | .moving to', some c => c.launch == l.id && (c.stage == i || to' == i)
        | _, _ => false)

/-- The stages that take part in rebalancing, with their numbers. -/
def openStages (s : State) (l : Launch) : List (Stage × Nat) :=
  l.stages.zipIdx.filter (fun st => !st.1.finishing && !st.1.ended && !frozenStage s l st.2)

/-- The stage with the least or greatest pressure; ties go to the lower index (R328). -/
def extreme (better : Int → Int → Bool) (l : Launch) (sts : List (Stage × Nat)) : Option (Stage × Nat) :=
  sts.foldl (fun m st => match m with
    | some x => if better (pressure l st.1) (pressure l x.1) then some st else some x
    | none => some st) none

/-- The pair of donor and receiver (R328). -/
def choosePair (s : State) (l : Launch) : Option (Nat × Nat) :=
  let o := openStages s l
  (extreme (fun a b => decide (a < b)) l (o.filter (fun st => decide (st.1.min < st.1.crew.length)))).bind (fun d =>
    (extreme (fun a b => decide (b < a)) l (o.filter (fun st => decide (st.1.crew.length < st.1.max) && d.1.crew.any (inMask st.1.dies)))).bind (fun r =>
      if d.2 ≠ r.2 ∧ 4096 ≤ pressure l r.1 - pressure l d.1 then some (d.2, r.2) else none))

/-- A launch at a boundary (R328): the streak of one pair, and the move that two in a row make pending. -/
def rebalance (s : State) (l : Launch) : Launch :=
  let pr := choosePair s l
  let n := if pr.isNone then 0 else if l.pair = pr then l.streak + 1 else 1
  { l with pair := pr, streak := n, move := if 2 ≤ n then pr else none }

/-! ### Core allocation (R330) -/

/-- Saved contexts of a partition that wait for a core after a retirement (R306). -/
def waitingSaved (s : State) (p : Part) : List Saved :=
  s.hub.saved.filter (fun e => e.recovery && p.switching.isNone
    && (launchAt s e.launch).any (fun l => runningVf p == some l.vf && l.state == .running))

/-- Saved contexts of the function whose slice runs, which resume as the slice begins (R335, step 4). -/
def waitingSlice (s : State) (p : Part) : List Saved :=
  s.hub.saved.filter (fun e => !e.recovery && p.switching.isNone
    && (launchAt s e.launch).any (fun l => runningVf p == some l.vf && l.state == .running))

/-- The mask of a saved context's stage. -/
def savedMask (s : State) (e : Saved) : BitVec 8 :=
  match launchAt s e.launch with
  | some l => (match (stageOf l e.core).bind (fun i => l.stages[i]?) with | some st => st.dies | none => 0)
  | none => 0

/-- The free cores on which a context that waits after a retirement may resume (R306, R409). -/
def coresFor (s : State) (p : Part) (e : Saved) : List Nat :=
  (freeCores s p).filter (fun c => inMask (savedMask s e) c && (launchAt s e.launch).any (fun l => spans s l (some e.core) c))

/-- Enabled cores of a partition in a mask, free or not. -/
def enabledIn (s : State) (p : Part) (m : BitVec 8) : List Nat :=
  ((List.range (96 * p.size)).map (96 * p.first + ·)).filter (fun c => coreUsable s c && inMask m c)

/-- One context that waits after a retirement: it resumes on a free core of its stage; where the partition has no enabled core in
the mask its launch is killed (R306, R338). -/
def resumeWaiting (p : Part) (e : Saved) (s : State) : State :=
  let m := savedMask s e
  if (enabledIn s p m).isEmpty then killLaunch e.launch 6 (e.core, 0, 0) s
  else
    let l := coresFor s ((partAt s p.first).getD p) e
    let d := drawChoice s
    match l[d.1 % max 1 l.length]? with
    | some c => resumeOn e c d.2
    | none => s

/-- Ready launches start while they fit (R330, step 1). -/
def startReady (first : Nat) : Nat → State → State
  | 0, s => s
  | n + 1, s => match partAt s first with
    | some p => (match startable s p with | some l => startReady first n (startLaunch p l s) | none => s)
    | none => s

/-- The running launches that may take cores in step 2 of R330, highest priority first, each with a stage for a core: the one
below max with the highest pressure. -/
def joinStage (s : State) (l : Launch) (core : Nat) : Option Nat :=
  (extreme (fun a b => decide (b < a)) l ((openStages s l).filter (fun st => decide (st.1.crew.length < st.1.max) && inMask st.1.dies core))).map (·.2)

/-- The joins that are possible now: launch, stage and core. -/
def joins (s : State) (p : Part) : List (Nat × Nat × Nat) :=
  let floor := (nextReady s p).map (·.priority)
  let l := s.hub.launches.filter (fun l => l.state == .running && runningVf p == some l.vf
    && p.switching.isNone && (match floor with | some n => decide (n < l.priority) | none => true))
  let all := l.flatMap (fun l => ((freeCores s p).filter (spans s l none)).filterMap (fun c => (joinStage s l c).map (fun st => (l.priority, l.id, st, c))))
  let top := all.foldl (fun m e => max m e.1) 0
  (all.filter (fun e => e.1 == top)).map (·.2)

/-- Free cores join running launches (R330, step 2); among equals the choice is free. -/
def joinCores (first : Nat) : Nat → State → State
  | 0, s => s
  | n + 1, s => match partAt s first with
    | some p =>
      let l := joins s p
      let d := drawChoice s
      (match l[d.1 % max 1 l.length]? with
       | some e => joinCores first n (startCore e.1 e.2.1 e.2.2 d.2)
       | none => s)
    | none => s

/-- Whether a saved context's core is free for it. -/
def mayReturn (s : State) (e : Saved) : Bool := (launchOn s e.core).isNone && (e.core != pkgIndex s || coreReady s)

/-- A saved context of the incoming function resumes (R335, step 4): on its core, else on a free core of the same die in its
stage's mask that no other context waits for; with none its launch is killed with cause 6. -/
def resumeSaved (first : Nat) (e : Saved) (s : State) : State :=
  if coreUsable s e.core then (if mayReturn s e then resumeOn e e.core s else s)
  else
    let l := ((partAt s first).map (freeCores s)).getD []
    let awaited := fun (c : Nat) => s.hub.saved.any (fun x => x != e && !x.recovery && x.core == c
      && (launchAt s x.launch).any (fun l => l.state == .running))
    let ok := l.filter (fun c => c / 96 == e.core / 96 && inMask (savedMask s e) c && !awaited c)
    let d := drawChoice s
    match ok[d.1 % max 1 ok.length]? with
    | some c => resumeOn e c d.2
    | none => killLaunch e.launch 6 (e.core, 0, 0) s

/-- The allocation of a partition's free cores (R330): contexts that its slice resumes and those that wait after a retirement, then
ready launches, then running ones. -/
def allocate (first : Nat) (s : State) : State :=
  match partAt s first with
  | some p =>
    let t := (waitingSlice s p).foldl (fun t e => resumeSaved first e t) s
    let t := (waitingSaved t p).foldl (fun t e => resumeWaiting p e t) t
    joinCores first (96 * p.size) (startReady first (t.hub.launches.length + 1) t)
  | none => s

/-- CORE_ALLOCATION (R330). -/
def execCoreAllocation (part : Nat) (s : State) : Host.Outcome State Fault Refusal := .next (allocate part s)

/-- REBALANCE_BOUNDARY (R327, R330): every running launch of a running slice is evaluated, but for one that is being switched out (R335,
step 5), and free cores are given out. -/
def execRebalanceBoundary (s : State) : Host.Outcome State Fault Refusal :=
  .next (if s.hub.rebalDone < s.pipe.ref / 4096 then
      let t := updHub (fun h => { h with
        rebalDone := s.pipe.ref / 4096
        launches := h.launches.map (fun l =>
          if l.state == .running && h.parts.any (fun p => p.switching.isNone && runningVf p == some l.vf) then rebalance s l else l) }) s
      (t.hub.parts.map (·.first)).foldl (fun t p => allocate p t) t
    else s)

/-- RECOVERY_RESUME (R306): a context that waits after a retirement resumes on a free core of its stage's mask. -/
def execRecoveryResume (launch core : Nat) (s : State) : Host.Outcome State Fault Refusal :=
  .next (match s.hub.saved.find? (fun e => e.launch == launch && e.recovery) with
  | some e =>
    (match (launchAt s launch).bind (fun l => partOfVf s l.vf) with
     | some p =>
       if (waitingSaved s p).contains e && (coresFor s p e).contains core then resumeOn e core s
       else if (waitingSaved s p).contains e && (enabledIn s p (savedMask s e)).isEmpty then killLaunch launch 6 (e.core, 0, 0) s
       else s
     | none => s)
  | none => s)

/-! ### Cores freed and moved (R135, R326, R329) -/

/-- A core leaves its launch's crew and returns to the pool; a finishing stage without cores has ended (R326). -/
def freeCore (launch core : Nat) (s : State) : State :=
  let t := updLaunch launch (fun l => { l with stages := l.stages.map (fun st => if st.crew.contains core then
    let c := st.crew.filter (· != core)
    { st with crew := c, ended := st.ended || (st.finishing && c.isEmpty) } else st) }) s
  let t := toPool [core] t
  match (launchAt t launch).bind (fun l => partOfVf t l.vf) with
  | some p => allocate p.first t
  | none => t

/-- Whether every engine of the core is empty (R135). -/
def enginesEmpty (s : State) : Bool :=
  s.mat.mma.isNone && s.mat.load.isNone && s.mat.ret.isNone && s.cpy.cmds.isEmpty && s.cpy.gather.isNone && s.cpy.scatter.isNone

/-- A stage is finishing from the issue of the first program-level END (R326). -/
def noteEnd (s : State) : State :=
  match s.seq.run, s.seq.ctx with
  | .draining, some c => updStage c.launch c.stage (fun st => { st with finishing := true }) s
  | _, _ => s

/-- A stage's move of a core completes (R328, R329): the crews change, the streak restarts. -/
def moveCrew (launch core from' to' : Nat) (s : State) : State :=
  updLaunch launch (fun l => { l with
    stages := modifyAt (modifyAt l.stages from' (fun st => { st with crew := st.crew.filter (· != core) })) to'
      (fun st => { st with crew := st.crew ++ [core] })
    streak := 0, pair := none, move := none }) s

/-- Record 0x10 of a stage move (R271, R329). -/
def moveRecord (old new' : Nat) : Word := recordOf 0x10 0 (16 * old + new')

/-- Whether the core has ended its kernel: its engines are empty, and all that it sent is performed (R135). -/
def kernelDone (s : State) : Bool := enginesEmpty s && drained s && s.seq.level == .program

/-- The core without its context, back in the pool (R135). -/
def leaveFree (launch : Nat) (s : State) : State :=
  freeCore launch (pkgIndex s) { s with
    seq := { bareSeq s with run := .idle }
    ubrov := none
    pipe := { s.pipe with flight := [] }
    rcv := { s.rcv with ckpts := [], rerun := none } }

/-- A core that its stage move takes to the receiver starts its kernel with the scratchpad kept (R329). A receiver that has become finishing
meanwhile gets no further core (R326): the core is then freed as after an END, DESIGN CHOICE (96). -/
def arriveAtStage (c : Ctx) (to' : Nat) (s : State) : State :=
  match launchAt s c.launch with
  | none => s
  | some l =>
    if (l.stages[to']?).all (fun st => st.finishing || st.ended) then
      leaveFree c.launch (updLaunch c.launch (fun l => { l with streak := 0, pair := none, move := none }) s)
    else
      let t := moveCrew c.launch (pkgIndex s) c.stage to' s
      match stagePlacement t l to' with
      | some p => updSeq (fun q => { q with preempt := s.seq.preempt, firstItem := s.seq.firstItem })
          (startKernel l to' p [moveRecord c.stage to'] t)
      | none => s

/-- This core, drained after an END, is freed; or, drained after the NEXTITEM of a stage move, starts the receiver's kernel, once no barrier
of either crew is incomplete (R129, R135, R329). -/
def handBack (s : State) : State :=
  match s.seq.run, s.seq.ctx with
  | .draining, some c => if kernelDone s then leaveFree c.launch s else s
  | .moving to', some c =>
    if kernelDone s && !barrierOpen s c.launch c.stage && !barrierOpen s c.launch to' then arriveAtStage c to' s else s
  | _, _ => s

/-- SCRUB_COMPLETE (R337, R367): of a function (its number), whose revoked slots become EMPTY, or of a killed launch (1,024 and
its number), whose cores return to the pool. A function that was unbound is then gone. -/
def execScrubComplete (target : Nat) (s : State) : Host.Outcome State Fault Refusal :=
  .next (if target < 1024 then
      let t := updTrust (fun u => { u with slots := u.slots.map (fun k =>
        if k.tag.toNat == target && k.state == .revoked then ⟨k.n, .empty, List.replicate 32 0, List.replicate 32 0, false, 0, 0⟩ else k) }) s
      let t := if (vfAt t target).all (·.assigned) then t else resetErr target t
      updHub (fun h => { h with vfs := h.vfs.filter (fun v => v.vf != target || v.assigned) }) t
    else match launchAt s (target - 1024) with
      | some l => if l.state = .scrubbing then
          (fun t => match partOfVf t l.vf with | some p => allocate p.first t | none => t) <| toPool (l.stages.flatMap (·.crew)) (updLaunch l.id (fun l => { l with state := .gone, stages := l.stages.map (fun st => { st with crew := [] }) }) s)
        else s
      | none => s)

/-- LAUNCH_COMPLETE (R326): every stage has ended; the completion counter is raised after every store, then event 0x07. -/
def execLaunchComplete (launch : Nat) (s : State) : Host.Outcome State Fault Refusal :=
  .next (match launchAt s launch with
  | some l =>
    if l.state == .running && l.stages.all (·.ended) then
      let t := if l.completion = 0 then s else hubAdd l.vf l.completion.toNat 1 s
      post l.vf ⟨0x07, l.queue, l.record, 0⟩ (updLaunch launch (fun l => { l with state := .completed, pair := none, move := none }) t)
    else s
  | none => s)

/-! ### Slices (R333 to R335) -/

/-- Reference cycles of a time in µs (R4). -/
def microseconds (n : Nat) : Nat := 1500 * n

/-- Whether an entry holds values within their ranges (R333). -/
def entryOk (e : Quantum) : Bool :=
  decide (e.vf < 1024) && decide (1 ≤ e.slice) && decide (e.slice < 65536) && decide (1 ≤ e.weight) && decide (e.weight ≤ 15)
    && decide (e.priority ≤ 3)

/-- Whether a function has work on a partition (R333). -/
def hasWork (s : State) (p : Part) (vf : Nat) : Bool :=
  (vfAt s vf).any (fun v => v.part == p.first)
    && s.hub.launches.any (fun l => l.vf == vf && (l.state == .running || ready s l))

/-- The entries that may be chosen at a slice boundary, by number (R334). -/
def eligible (s : State) (p : Part) : List (Quantum × Nat) :=
  p.table.zipIdx.filter (fun e => entryOk e.1 && e.1.gang == 0 && hasWork s p e.1.vf)

/-- The next entry in table order after a place, round the table. -/
def afterEntry (l : List (Quantum × Nat)) (i : Nat) : Option (Quantum × Nat) :=
  match l.find? (fun e => decide (i < e.2)) with
  | some e => some e
  | none => l.head?

/-- The choice of R334: the highest priority; within it each entry up to its weight of slices in a row; a slice that its charge
covers is skipped. -/
def pickSlice (l : List (Quantum × Nat)) : Nat → Part → Option Nat × Part
  | 0, p => (none, p)
  | n + 1, p =>
    let top := l.foldl (fun m e => max m e.1.priority) 0
    let cls := l.filter (fun e => e.1.priority == top)
    let turn := p.turns.get (Fin.ofNat 4 top)
    let next := match cls.find? (fun e => e.2 == turn.1 && decide (turn.2 < e.1.weight)) with
      | some e => some (e, turn.2 + 1)
      | none => (afterEntry cls turn.1).map (fun e => (e, 1))
    match next with
    | none => (none, p)
    | some (e, used) =>
      let p := { p with turns := p.turns.set (Fin.ofNat 4 top).val (e.2, used) }
      let owed := ((p.table[e.2]?).map (·.charge)).getD 0
      if microseconds e.1.slice ≤ owed then
        pickSlice l n { p with table := modifyAt p.table e.2 (fun q => { q with charge := q.charge - microseconds q.slice }) }
      else (some e.2, p)

/-- Enough tries for every charge to fall below its slice. -/
def sliceFuel (p : Part) : Nat := (p.table.map (fun e => e.charge / 1500 + 1)).sum * 16 + 1

/-- The launches of a function with their moves cancelled and their streaks at 0 (R335, step 5). -/
def cancelMoves (vf : Nat) (s : State) : State :=
  updHub (fun h => { h with launches := h.launches.map (fun l => if l.vf == vf then { l with move := none, pair := none, streak := 0 } else l) }) s

/-- A slice begins: it runs for its length less its charge, a gang's to the gang's end (R334, R339). -/
def beginSlice (first : Nat) (target : Option Nat) (s : State) : State :=
  match (partAt s first).bind (fun p => target.bind (fun i => (p.table[i]?).map (fun e => (i, e)))) with
  | none => updPart first (fun p => { p with running := none, switching := none }) s
  | some (i, e) =>
    let gangEnd := (s.hub.gangs.find? (fun g => g.gang == e.gang && g.active)).map (fun g => s.pipe.ref + (microseconds (g.start + g.slice) - s.links.podTime))
    let stop := match gangEnd with
      | some t => if e.gang = 0 then s.pipe.ref + (microseconds e.slice - e.charge) else t
      | none => s.pipe.ref + (microseconds e.slice - e.charge)
    allocate first (cancelMoves e.vf (updPart first (fun p => { p with
      running := some i, switching := none, sliceEnd := stop
      table := if e.gang = 0 then modifyAt p.table i (fun q => { q with charge := 0 }) else p.table }) s))

/-- A slice switch starts (R335, steps 1 and 5): pre-emption of every core of the outgoing function. -/
def startSwitch (first : Nat) (target : Option Nat) (s : State) : State :=
  match partAt s first with
  | none => s
  | some p =>
    match runningVf p with
    | none => beginSlice first target s
    | some vf =>
      let t := cancelMoves vf (updPart first (fun p => { p with switching := some (target, s.pipe.ref) }) s)
      if t.seq.ctx.any (fun c => c.vf == vf) && t.seq.preempt.isNone && (t.seq.run == .running || (match t.seq.run with | .moving _ => true | _ => false)) then
        updSeq (fun q => { q with preempt := some ⟨t.pipe.wall, (slotAddrOf t).getD 0, 0, false⟩ }) t
      else t

/-- Whether a slice boundary is due (R334): the slice's time is over, or its function has no work (a gang's is held all the same,
R339), or none runs and one has work. -/
def sliceOver (s : State) (p : Part) : Bool :=
  p.switching.isNone && (match p.running, runningVf p with
  | some i, some vf => decide (p.sliceEnd ≤ s.pipe.ref) || (((p.table[i]?).map (·.gang)).getD 0 == 0 && !hasWork s p vf)
  | some _, none => true
  | none, _ => !(eligible s p).isEmpty)

/-- SLICE_BOUNDARY (R334). An entry of the function that runs already goes on without a switch. -/
def execSliceBoundary (part : Nat) (s : State) : Host.Outcome State Fault Refusal :=
  .next (match partAt s part with
  | none => s
  | some p =>
    if !sliceOver s p then s
    else
      let c := pickSlice (eligible s p) (sliceFuel p) p
      let t := updPart part (fun _ => c.2) s
      let vf := c.1.bind (fun i => (p.table[i]?).map (·.vf))
      if (runningVf p).isNone || runningVf p == vf || !(s.hub.launches.any (fun l => runningVf p == some l.vf && l.state == .running)) then
        beginSlice part c.1 t
      else startSwitch part c.1 t)

/-- Whether every core of a function's running launches has saved or been freed, this core has drained (R335, step 3), and steps 1 to 4 of
its kills are done (R340). -/
def allSaved (s : State) (vf : Nat) : Bool :=
  s.hub.launches.all (fun l => l.vf != vf || l.state != .running
    || l.stages.all (fun st => st.crew.all (fun c => s.hub.saved.any (fun e => e.launch == l.id && e.core == c))))
  && !s.seq.ctx.any (fun c => c.vf == vf)
  && s.hub.stopping.all (fun e => decide (e.2.2 ≤ s.pipe.wall) || !(launchAt s e.2.1).any (fun l => l.vf == vf))

/-- PREEMPT_COMPLETE (R335, steps 3 and 4): the outgoing entry is charged, the incoming function's contexts resume. -/
def execPreemptComplete (part : Nat) (s : State) : Host.Outcome State Fault Refusal :=
  .next (match partAt s part with
  | none => s
  | some p => match p.switching, p.running with
    | some (target, q), some i =>
      if !(match runningVf p with | some vf => allSaved s vf | none => true) then s
      else
        let t := updPart part (fun p => { p with
          table := modifyAt p.table i (fun e => { e with charge := e.charge + (s.pipe.ref - q) })
          running := target, switching := none }) s
        beginSlice part target t
    | some (target, _), none => beginSlice part target s
    | none, _ => s)

/-! ### Partitions (R332) -/

/-- Whether a context is resident on a die: this core's, or one of a running launch's that is not saved. -/
def residentOn (s : State) (d : Nat) : Bool :=
  (s.seq.ctx.isSome && s.id.die.val == d)
    || s.hub.launches.any (fun l => l.state == .running && l.stages.any (fun st => st.crew.any (fun c =>
        c / 96 == d && c != pkgIndex s && !s.hub.saved.any (fun e => e.launch == l.id && e.core == c))))

/-- PARTITION_CHANGE (R332): the dies from `first` on, `count` of them, are divided into partitions of `size` dies. Ignored while
a context is resident on them, where the sizes do not fit, or where a function in CONFIG_LOCKED or RUN is bound to one of them (R391:
DESIGN CHOICE 106, also where its own partition would stay as it is). A partition that keeps its first die keeps its table. DESIGN CHOICE (94): a
function bound to a partition that is no more is bound to the new one that holds its old one's first die. -/
def execPartitionChange (first count size : Nat) (s : State) : Host.Outcome State Fault Refusal :=
  let last := first + count
  let inside := fun (p : Part) => decide (first ≤ p.first) && decide (p.first + p.size ≤ last)
  let apart := fun (p : Part) => decide (p.first + p.size ≤ first) || decide (last ≤ p.first)
  let fixed := fun (v : Vf) => (v.tdisp == .locked || v.tdisp == .run) && decide (first ≤ v.part) && decide (v.part < last)
  .next (if (size = 1 ∨ size = 2 ∨ size = 4 ∨ size = 8) ∧ 0 < count ∧ last ≤ 8 ∧ first % size = 0 ∧ count % size = 0
      ∧ s.hub.parts.all (fun p => inside p || apart p) = true
      ∧ (List.range count).all (fun i => !residentOn s (first + i)) = true
      ∧ s.hub.vfs.all (fun v => !fixed v) = true then
      let pool := (s.hub.parts.filter inside).flatMap (·.pool)
      let fresh' := (List.range (count / size)).map (fun i =>
        let f := first + size * i
        ({ first := f, size := size, pool := pool.filter (fun c => decide (f ≤ c / 96) && decide (c / 96 < f + size))
           table := match partAt s f with | some p => p.table | none => []
           running := none, turns := Vector.replicate 4 (0, 0), sliceEnd := 0, wqPtr := 0, switching := none } : Part))
      let holds := fun (d : Nat) => (fresh'.find? (fun p => decide (p.first ≤ d) && decide (d < p.first + p.size))).map (·.first)
      updHub (fun h => { h with
        parts := h.parts.filter apart ++ fresh'
        vfs := h.vfs.map (fun v => { v with part := (holds v.part).getD v.part }) }) s
    else s)

/-! ### Gangs (R339, R340) -/

/-- GANG_SLICE_TIMES (R339): the start and length of a gang's slice in µs of pod reference time. -/
def execGangSliceTimes (gang start slice : Nat) (s : State) : Host.Outcome State Fault Refusal :=
  .next (if 1 ≤ gang ∧ gang < 65536 then
      updHub (fun h => { h with gangs := h.gangs.filter (fun g => g.gang != gang) ++ [⟨gang, start, slice, false⟩] }) s else s)

/-- Whether this package sends a gang's times (R339): none of the peers that it has a handshake with has a lower index. DESIGN CHOICE (95): the
members of a gang are this package and those peers. -/
def leadsGang (s : State) : Bool := s.trust.peers.all (fun p => p.shake != .done || decide (s.id.package.toNat ≤ p.peer))

/-- The gangs whose slice this package may announce now: those of its quantum tables without a slice to come or under way. -/
def gangsToSend (s : State) : List (Nat × Nat) :=
  if !leadsGang s then []
  else ((s.hub.parts.flatMap (·.table)).filter (fun e => entryOk e && e.gang != 0
    && !s.hub.gangs.any (fun g => g.gang == e.gang && decide (s.links.podTime < microseconds (g.start + g.slice))))).map (fun e => (e.gang, e.slice))

/-- The hub of the member with the lowest index sends a gang slice's start T and end T + slice to the others, when it chooses to, at least
100 µs before T (R339). -/
def announceGang (gang slice : Nat) (s : State) : State :=
  let d := drawChoice s
  if d.1 % 2 = 0 then d.2
  else
    let w := drawWait d.2
    let start := s.links.podTime / 1500 + 100 + w.1
    let t := updHub (fun h => { h with gangs := h.gangs.filter (fun g => g.gang != gang) ++ [⟨gang, start, slice, false⟩] }) w.2
    (s.trust.peers.filter (fun p => p.shake == .done)).foldl (fun t p =>
      reply (2000 + p.peer) "GANG_SLICE" 0 (leBytes 8 start ++ leBytes 8 (start + slice)) t) t

/-- The entries of a gang, with their partitions. -/
def gangEntries (s : State) (gang : Nat) : List (Nat × Nat) :=
  s.hub.parts.filterMap (fun p => (p.table.zipIdx.find? (fun e => entryOk e.1 && e.1.gang == gang)).map (fun e => (p.first, e.2)))

/-- A partition turns to its gang entry: the running slice ends, or a switch in progress gets the gang as its target. -/
def turnToGang (first i : Nat) (s : State) : State :=
  match partAt s first with
  | none => s
  | some p => match p.switching with
    | some (_, q) => updPart first (fun p => { p with switching := some (some i, q) }) s
    | none =>
      if runningVf p == (p.table[i]?).map (·.vf) then beginSlice first (some i) s else startSwitch first (some i) s

/-- GANG_SLICE_START (R339): at its time each member ends its running slice and switches to the gang. -/
def execGangSliceStart (gang : Nat) (s : State) : Host.Outcome State Fault Refusal :=
  .next (match s.hub.gangs.find? (fun g => g.gang == gang && !g.active) with
  | some g =>
    if s.links.podTime < microseconds g.start then s
    else (gangEntries s gang).foldl (fun t e => turnToGang e.1 e.2 t)
      (updHub (fun h => { h with gangs := h.gangs.map (fun x => if x.gang == gang then { x with active := true } else x) }) s)
  | none => s)

/-- The launches of a function with a core that has not been pre-empted. -/
def lateLaunches (s : State) (vf : Nat) : List Nat :=
  (s.hub.launches.filter (fun l => l.vf == vf && l.state == .running
    && l.stages.any (fun st => st.crew.any (fun c => !s.hub.saved.any (fun e => e.launch == l.id && e.core == c))))).map (·.id)

/-- GANG_PREEMPT_TIMEOUT (R340): 50 µs after the gang's start, outgoing contexts that have not been pre-empted are killed. -/
def execGangPreemptTimeout (gang : Nat) (s : State) : Host.Outcome State Fault Refusal :=
  .next (match s.hub.gangs.find? (fun g => g.gang == gang && g.active) with
  | some g =>
    if s.links.podTime < microseconds (g.start + 50) then s
    else (gangEntries s gang).foldl (fun t e => match partAt t e.1 with
      | some p => (match p.switching, runningVf p with
        | some (some j, _), some vf =>
          if j = e.2 then (lateLaunches t vf).foldl (fun u l => killLaunch l 4 (pkgIndex u, 0, 0) u) t else t
        | _, _ => t)
      | none => t) s
  | none => s)

/-! ### The self-test (R306, R407) -/

/-- CORE_SELF_TEST (R407): a core without a context passes and is in service, or fails and is disabled. A retired core that passes
returns to service, but not after its third retirement since reset. -/
def execCoreSelfTest (core : Nat) (pass : Bool) (s : State) : Host.Outcome State Fault Refusal :=
  let own := decide (core = pkgIndex s)
  let busy := s.hub.launches.any (fun l => (l.state == .running || l.state == .killed || l.state == .scrubbing) && l.stages.any (fun st => st.crew.contains core))
    || (own && (s.seq.ctx.isSome || !drained s))
  .next (if 768 ≤ core ∨ busy = true ∨ s.links.stage < 3 then s
    else if pass && !(own && decide (3 ≤ s.rcv.retiredCount)) then
      let t := updHub (fun h => { h with disabled := h.disabled.filter (· != core) }) s
      let t := toPool [core] t
      if own && s.seq.run == .retired then updSeq (fun q => { q with run := .idle }) t else t
    else takeCores [core] (updHub (fun h => { h with disabled := if h.disabled.contains core then h.disabled else h.disabled ++ [core] }) s))

/-! ### What other cores do (assumption 1) -/

/-- The running launch that another core works for. -/
def launchOfCore (s : State) (core : Nat) : Option Launch :=
  if core = pkgIndex s then none else launchOn s core

/-- Another core's END: its stage is finishing (R326). -/
def otherEnd (core : Nat) (s : State) : State :=
  match launchOfCore s core with
  | some l => updLaunch l.id (fun l => { l with stages := l.stages.map (fun st => if st.crew.contains core then { st with finishing := true } else st) }) s
  | none => s

/-- Another core has drained after its END (R135). -/
def otherFreed (core : Nat) (s : State) : State :=
  match launchOfCore s core with
  | some l => if l.stages.any (fun st => st.crew.contains core && st.finishing) then freeCore l.id core s else s
  | none => s

/-- Another core completes its stage's pending move, where it may (R129, R326, R329), unless the own core's NEXTITEM came first. -/
def otherMoved (core : Nat) (s : State) : State :=
  match launchOfCore s core with
  | some l => (match l.move, stageOf l core with
    | some (d, r), some st =>
      if st = d ∧ moveOpen s l d r (core / 96) = true
          ∧ (match s.seq.run with | .moving _ => s.seq.ctx.all (fun c => c.launch != l.id) | _ => true) = true then
        moveCrew l.id core d r s else s
    | _, _ => s)
  | none => s

/-- Another core's context is saved, and the core is free (R335). -/
def otherSaved (core : Nat) (forced : Bool) (s : State) : State :=
  match launchOfCore s core with
  | some l =>
    toPool [core] (updHub (fun h => { h with
      saved := h.saved ++ [⟨l.id, core, word (l.area.toNat + core * 0x200000), forced, false, none, false, []⟩] }) s)
  | none => s

/-- Another core retires (R306): its context waits in the recovery area, or its launch is killed. -/
def otherRetired (core : Nat) (s : State) : State :=
  if core = pkgIndex s ∨ 768 ≤ core ∨ s.hub.disabled.contains core = true then s
  else
    let t := takeCores [core] (reply 0 "CORE_RETIRED" 0x13 [] (updHub (fun h => { h with disabled := h.disabled ++ [core] }) s))
    match launchOfCore s core with
    | some l =>
      if l.guarded && l.recovery != 0 then
        updHub (fun h => { h with saved := h.saved.filter (fun e => !(e.launch == l.id && e.core == core))
          ++ [⟨l.id, core, word (l.recovery.toNat + core * 0x200000), true, true, none, false, []⟩] }) t
      else killLaunch l.id (if l.guarded then 3 else 2) (core, 0, 0) t
    | none => t

/-- Cores of a stage on other packages of the pod (R129). -/
def setRemote (launch stage : Nat) (cores : List Nat) (s : State) : State :=
  updLaunch launch (fun l => { l with remote := l.remote.filter (fun r => r.1 != stage)
    ++ (cores.filter (fun c => decide (768 ≤ c) && decide (c / 768 - 1 ≠ s.id.package.toNat))).map (fun c => (stage, c)) }) s

/-- Yard gives a work queue to a function, or takes it back (R314); the queue is OFF with its registers at reset (R319). -/
def assignQueue (queue : Nat) (vf : Option Nat) (s : State) : State :=
  if 65536 ≤ queue then s
  else updHub (fun h => { h with queues := h.queues.filter (fun q => q.q != queue) ++ (match vf with
    | some v => [⟨queue, v, 0, 0, 0, 0, .off, none, 0, 0, 0, []⟩]
    | none => []) }) s

end Sys2Proof.Machine
end

