-- ==== Sys2Proof/Machine/Tack.lean ====
section
/-! DEFINITION. Tack's mailbox (R365, R395, R396, R404, R406), the functions that Yard assigns and unbinds (R367), the reset of a
function (R400), SPDM (R389, R390, R318, R393) and TDISP (R391). -/

namespace Sys2Proof.Machine

open Sys2Proof

/-! ### Measurements (R390) -/

/-- A log before its first entry. -/
def emptyLog : List Byte := List.replicate 64 0

/-- The image in use of Tack or of Yard: the one in the boot flash. -/
def imageInUse (s : State) (tack : Bool) : List Byte :=
  match s.trust.flash.find? (fun e => e.1 == tack) with
  | some e => e.2.2
  | none => Config.bootImage (if tack then 1 else 2)

/-- The partition map and the enable map (R390, R408), in a layout of the model's own (assumption 17). -/
def mapBytes (s : State) : List Byte :=
  s.hub.parts.flatMap (fun p => leBytes 1 p.first ++ leBytes 1 p.size)
    ++ s.hub.disabledDies.flatMap (leBytes 1) ++ s.hub.disabled.flatMap (leBytes 2)
    ++ s.sys.deadStacks.flatMap (leBytes 1) ++ s.sys.deadPc.flatMap (fun d => leBytes 1 d.1 ++ leBytes 1 d.2.1 ++ leBytes 1 d.2.2)

/-- A measurement changed. -/
def setMeas (i : Nat) (v : List Byte) (s : State) : State := updTrust (fun t => { t with meas := t.meas.set (Fin.ofNat 7 i).val v }) s

/-- Yard installs a system kernel for the core's context (R114): its granules stand in the code store from `granule` on, where the
loader has `tvec` point (R140), and a confidential tenant's log 7 is extended by its bytes (R390; assumption 23). -/
def installKernel (granule : Nat) (code : List Granule) (s : State) : State :=
  match s.seq.ctx with
  | none => s
  | some c =>
    let t := updSeq (fun q => { q with tvec := BitVec.ofNat 11 granule })
      { s with code := code.zipIdx.foldl (fun v x => v.setIfInBounds (granule + x.2) x.1) s.code }
    if bits s.seq.tenant.toNat 28 1 = 0 then t
    else updVf c.vf (fun v => { v with meas7 := extendLog v.meas7 (code.flatMap (fun g => leBytes 32 g.toNat)) }) t

/-- A function's TDISP state as a number (assumption 18). -/
def tdispCode (t : Tdisp) : Nat := match t with | .unlocked => 0 | .locked => 1 | .run => 2 | .error => 3

/-- The value of a measurement block as function fn sees it (R390): 0 is the physical function, n + 1 VF n. -/
def measurement (s : State) (fn i : Nat) : Option (List Byte) :=
  let vf := if fn = 0 then none else vfAt s (fn - 1)
  if s.links.shed then
    (if i = 1 ∨ i = 2 then some (s.trust.meas.get (Fin.ofNat 7 i))
     else if i = 6 then some [BitVec.ofNat 8 (one s.trust.fault), BitVec.ofNat 8 s.trust.failures]
     else if i = 10 then some (BitVec.ofNat 8 s.links.count :: s.links.reasons) else none)
  else match i with
  | 1 | 2 | 3 | 5 => some (s.trust.meas.get (Fin.ofNat 7 i))
  | 4 => some (s.trust.meas.get 4 ++ (match vf with | some v => leBytes 1 v.part ++ leBytes 1 (tdispCode v.tdisp) | none => []))
  | 6 => some [BitVec.ofNat 8 (one s.trust.fault), BitVec.ofNat 8 s.trust.failures]
  | 7 => vf.map (·.meas7)
  | 8 => vf.map (·.meas8)
  | 9 => vf.map (·.meas9)
  | _ => none

/-! ### The mailbox (R365) -/

/-- A request that Shed mode refuses (R406). -/
def mailbox (kind : String) (act : State → State) (s : State) : State := if s.links.shed then reply 0 kind 0xFF [] s else act s

/-- DEBUG_NONCE (R396): a drawn nonce replaces the last one; in FAULT the request is refused. -/
def execDebugNonce (s : State) : Host.Outcome State Fault Refusal :=
  .next (mailbox "DEBUG_NONCE" (fun s =>
    let s := updTrust (fun t => { t with nonce := none }) s
    match draw 32 s with
    | (some n, t) => reply 0 "DEBUG_NONCE" 0 n (updTrust (fun u => { u with nonce := some n }) t)
    | (none, t) => reply 0 "DEBUG_NONCE" 0xFF [] t) s)

/-- Whether an unlock record has its form (R396). -/
def unlockForm (r : List Byte) : Bool :=
  r.length == 178 && r.take 4 == [0x44, 0x42, 0x47, 0x31] && ((r[52]?) == some 1 || (r[52]?) == some 2)
    && ((r.drop 53).take 11).all (· == 0)

/-- Whether the condition of R395 for a level holds. -/
def debugAllowed (s : State) (level : Nat) : Bool :=
  level != 2 || s.hub.vfs.all (fun v => v.tdisp != .locked && v.tdisp != .run)

/-- DEBUG_UNLOCK (R395, R396): signature, serial, nonce, level and condition; the nonce is spent by its first use. The level only
rises. -/
def execDebugUnlock (record : List Byte) (s : State) : Host.Outcome State Fault Refusal :=
  .next (mailbox "DEBUG_UNLOCK" (fun s =>
    if !unlockForm record then reply 0 "DEBUG_UNLOCK" 0xFF [] s
    else
      let used := s.trust.nonce == some ((record.drop 20).take 32)
      let t := if used then updTrust (fun u => { u with nonce := none }) s else s
      let level := ((record[52]?).getD 0).toNat
      if used && Config.ed448Verify (record.take 64) (record.drop 64) && (record.drop 4).take 16 == Config.serial && debugAllowed s level then
        reply 0 "DEBUG_UNLOCK" 0 [] (updTrust (fun u => { u with debug := max u.debug level })
          (setMeas 5 (extendLog (s.trust.meas.get 5) (leBytes 1 level ++ shake256 64 record)) t))
      else reply 0 "DEBUG_UNLOCK" 1 [] t) s)

/-- FABRIC (R365): a handshake message passes to a peer's port; what arrives from one is HS1 to HS3 (R392). -/
def execFabric (peer : Nat) (msg : List Byte) (s : State) : Host.Outcome State Fault Refusal :=
  .next (mailbox "FABRIC" (fun s =>
    if s.trust.peers.any (fun p => p.peer == peer) then reply 0 "FABRIC" 0 [] (reply (2000 + peer) "FABRIC" 0 msg s)
    else reply 0 "FABRIC" 0xFF [] s) s)

/-- READY (R365, R404): the start is good, measurement 4 is fixed; refused after its first acceptance and before the stages are
done. -/
def execReady (s : State) : Host.Outcome State Fault Refusal :=
  .next (mailbox "READY" (fun s =>
    if s.links.readyDone || s.links.stage != 6 || s.links.holding.isSome then reply 0 "READY" 0xFF [] s
    else reply 0 "READY" 0 [] (setMeas 4 (mapBytes s) (updLinks (fun l => { l with readyDone := true, stage := 7, count := 0 }) s))) s)

/-- FW_UPDATE (R365, R406): an image that verifies and is not below the fused version goes to the flash, for the next reset. -/
def execFwUpdate (tack : Bool) (version : Nat) (image : List Byte) (s : State) : Host.Outcome State Fault Refusal :=
  .next (if Config.ed448Verify image [] && decide (Config.fusedVersion ≤ version) then
      reply 0 "FW_UPDATE" 0 [] (updTrust (fun t => { t with flash := (tack, version, image) :: t.flash.filter (fun e => e.1 != tack) }) s)
    else reply 0 "FW_UPDATE" 1 [] s)

/-- HOSTMETA (R371): the region for tier 10's metadata, once until reset. -/
def execHostmeta (base size : Nat) (s : State) : Host.Outcome State Fault Refusal :=
  .next (mailbox "HOSTMETA" (fun s =>
    if size = 0 ∨ 2 ^ 56 < base + size ∨ s.trust.hostmeta.isSome then reply 0 "HOSTMETA" 0xFF [] s
    else reply 0 "HOSTMETA" 0 [] (updTrust (fun t => { t with hostmeta := some (base, size) }) s)) s)

/-! ### Package reset (R404 to R406) -/

/-- The dies that the next start disables: the higher of two in service that cannot reach each other (R409). -/
def cutDies (s : State) : List Nat :=
  if s.links.stage < 3 then s.links.cut
  else (List.range 8).filter (fun b => !s.hub.disabledDies.contains b
    && (List.range b).any (fun a => !s.hub.disabledDies.contains a && !reaches s a b))

/-- What a reset of the package leaves: the state after reset, with what lies outside the package or in its flash kept: the start
record, the images, the repair record (R359), host memory, and the model's own clocks and inputs. -/
def packageReset (s : State) : State :=
  { State.reset with
    id := { s.id with pod := 0, package := 0 }
    pipe := { Pipe.afterReset with wall := s.pipe.wall, ref := s.pipe.ref, refFrac := s.pipe.refFrac, done := s.pipe.done }
    mem := s.mem.filter (fun c => decide (tierKey 2 0 ≤ c.1))
    sys := { MemSys.afterReset with lanes := s.sys.lanes, bwDone := s.pipe.ref / 1024 }
    hub := { Hub.afterReset with rebalDone := s.pipe.ref / 4096 }
    trust := { Trust.afterReset with flash := s.trust.flash }
    links := { Links.afterReset with count := s.links.count, reasons := s.links.reasons, resetAt := s.pipe.ref, cut := cutDies s }
    agenda := s.agenda
    draws := s.draws
    nextId := s.nextId }

/-- PACKAGE_RESET (R404): the host's conventional reset, or a return of power. -/
def execPackageReset (s : State) : Host.Outcome State Fault Refusal := .next (packageReset s)

/-- SHED_CLEAR (R406): in Shed mode the count becomes 0 and the package resets; elsewhere it is refused. -/
def execShedClear (s : State) : Host.Outcome State Fault Refusal :=
  .next (if s.links.shed then packageReset (updLinks (fun l => { l with count := 0 }) s) else reply 0 "SHED_CLEAR" 0xFF [] s)

/-! ### Functions (R367, R400) -/

/-- A function as Yard assigns it. -/
def newVf (vf part : Nat) : Vf where
  vf := vf
  part := part
  slot := none
  tdisp := .unlocked
  root := 0
  invva := 0
  invlen := 0
  invBusy := false
  invIds := []
  ringBase := 0
  ringCtl := 0
  ringHead := 0
  ringTail := 0
  ringLost := 0
  msix := 0
  err := Vector.replicate 16 0
  meas7 := emptyLog
  meas8 := emptyLog
  meas9 := emptyLog
  allowed := []
  assigned := true
  barred := false
  remap := []

/-- VF_ASSIGN (R367): a partition and an assignment slot. A function that has its slot already is not assigned twice; one whose lock failed
for want of a draw has none until STOP_INTERFACE. -/
def execVfAssign (vf part : Nat) (s : State) : Host.Outcome State Fault Refusal :=
  .next (if 1024 ≤ vf ∨ s.links.shed = true ∨ (partAt s part).isNone then s
    else match vfAt s vf with
      | some v =>
        if v.assigned && (v.slot.isSome || v.barred) then s
        else if v.assigned then bindSlot vf s
        else bindSlot vf (updHub (fun h => { h with vfs := h.vfs.filter (fun x => x.vf != vf) ++ [newVf vf part] }) (resetErr vf s))
      | none => bindSlot vf (updHub (fun h => { h with vfs := h.vfs ++ [newVf vf part] }) s))

/-- Every queue of a function OFF. -/
def queuesOff (vf : Nat) (s : State) : State :=
  updHub (fun h => { h with queues := h.queues.map (fun q => if q.vf == vf then { q with state := .off } else q) }) s

/-- UNBIND (R367). -/
def execUnbind (vf : Nat) (s : State) : Host.Outcome State Fault Refusal :=
  .next (match vfAt s vf with
  | some _ => updVf vf (fun v => { v with assigned := false, tdisp := .unlocked }) (queuesOff vf (revoke vf 8 true (abandonMigrations vf s)))
  | none => s)

/-- FUNCTION_LEVEL_RESET (R400): kills, revocation, queues and ring off, registers at reset; then a new assignment slot. -/
def execFunctionLevelReset (vf : Nat) (s : State) : Host.Outcome State Fault Refusal :=
  .next (match vfAt s vf with
  | none => s
  | some v =>
    let t := resetErr vf (revoke vf 7 false (abandonMigrations vf s))
    let t := updHub (fun h => { h with queues := h.queues.map (fun q => if q.vf == vf then { q with
      state := .off, base := 0, size := 0, doorbell := 0, head := 0, last := none, replay := 0, authfail := 0, gapdrop := 0, wait := [] } else q) }) t
    let t := updVf vf (fun x => { newVf vf v.part with
      slot := x.slot, meas7 := x.meas7, meas8 := x.meas8, meas9 := x.meas9, allowed := x.allowed, msix := x.msix, assigned := x.assigned }) t
    if v.assigned then bindSlot vf t else t)

/-! ### SPDM (R389) -/

/-- A function's session; one that is not listed has exchanged nothing. -/
def sessionOf (s : State) (fn : Nat) : Session :=
  (s.trust.sessions.find? (fun x => x.fn == fn)).getD ⟨fn, false, false, false, false, false, [], 0⟩

/-- A session stored. -/
def setSession (x : Session) (s : State) : State := updTrust (fun t => { t with sessions := x :: t.sessions.filter (fun y => y.fn != x.fn) }) s

/-- Whether a function exists: the physical function, or an assigned VF (R389, R406). -/
def fnExists (s : State) (fn : Nat) : Bool := fn == 0 || (!s.links.shed && (vfAt s (fn - 1)).isSome)

/-- An answer to the host of a function. -/
def answer (fn : Nat) (kind : String) (status : Nat) (data : List Byte) (s : State) : State := reply (fn + 1) kind status data s

/-- A request that needs a step of the exchange before it (the order of DSP0274, assumption 18): else UnexpectedRequest, 0x04. -/
def inOrder (fn : Nat) (kind : String) (ok : Session → Bool) (act : Session → State → State) (s : State) : State :=
  if !fnExists s fn then s
  else if ok (sessionOf s fn) then act (sessionOf s fn) s else answer fn kind 0x04 [] s

/-- GET_VERSION: version 1.2; the exchange starts anew. -/
def execGetVersion (fn : Nat) (s : State) : Host.Outcome State Fault Refusal :=
  .next (inOrder fn "VERSION" (fun _ => true) (fun _ s => answer fn "VERSION" 0 [0x12] (setSession ⟨fn, true, false, false, false, false, [], 0⟩ s)) s)

/-- GET_CAPABILITIES: CERT, CHAL, MEAS with signature, ENCRYPT, MAC, KEY_EX, HBEAT, KEY_UPD. -/
def execGetCapabilities (fn : Nat) (s : State) : Host.Outcome State Fault Refusal :=
  .next (inOrder fn "CAPABILITIES" (·.version) (fun x s => answer fn "CAPABILITIES" 0 (leBytes 4 0x62D6) (setSession { x with caps := true } s)) s)

/-- NEGOTIATE_ALGORITHMS: the host offers the device's one set, or the request fails. -/
def execNegotiateAlgorithms (fn : Nat) (offered : Bool) (s : State) : Host.Outcome State Fault Refusal :=
  .next (inOrder fn "ALGORITHMS" (·.caps) (fun x s =>
    if offered then answer fn "ALGORITHMS" 0 [] (setSession { x with algs := true } s) else answer fn "ALGORITHMS" 0x01 [] s) s)

/-- The certificate slots that answer: 0, and outside Shed mode 1 (R389, R406). -/
def certSlots (s : State) : List Nat := if s.links.shed then [0] else [0, 1]

/-- GET_DIGESTS. -/
def execGetDigests (fn : Nat) (s : State) : Host.Outcome State Fault Refusal :=
  .next (inOrder fn "DIGESTS" (·.algs) (fun _ s => answer fn "DIGESTS" 0 ((certSlots s).flatMap (fun c => sha3_512 (Config.certificate c))) s) s)

/-- GET_CERTIFICATE. -/
def execGetCertificate (fn slot : Nat) (s : State) : Host.Outcome State Fault Refusal :=
  .next (inOrder fn "CERTIFICATE" (·.algs) (fun _ s =>
    if (certSlots s).contains slot then answer fn "CERTIFICATE" 0 (Config.certificate slot) s else answer fn "CERTIFICATE" 0x01 [] s) s)

/-- CHALLENGE: a signature over the certificate's digest and the nonce. -/
def execChallenge (fn slot : Nat) (nonce : List Byte) (s : State) : Host.Outcome State Fault Refusal :=
  .next (inOrder fn "CHALLENGE_AUTH" (·.algs) (fun _ s =>
    if (certSlots s).contains slot then
      answer fn "CHALLENGE_AUTH" 0 (Config.ed448Sign (sha3_512 (Config.certificate slot) ++ nonce)) s
    else answer fn "CHALLENGE_AUTH" 0x01 [] s) s)

/-- GET_MEASUREMENTS (R390): a block's value, its digest and the signature. -/
def execGetMeasurements (fn index : Nat) (nonce : List Byte) (s : State) : Host.Outcome State Fault Refusal :=
  .next (inOrder fn "MEASUREMENTS" (·.algs) (fun _ s => match measurement s fn index with
    | some v => answer fn "MEASUREMENTS" 0 (v ++ sha3_512 v ++ Config.ed448Sign (v ++ nonce)) s
    | none => answer fn "MEASUREMENTS" 0x01 [] s) s)

/-- KEY_EXCHANGE: the device's share is drawn (R368); a draw that fails fails the request. -/
def execKeyExchange (fn : Nat) (share : List Byte) (s : State) : Host.Outcome State Fault Refusal :=
  .next (inOrder fn "KEY_EXCHANGE_RSP" (·.algs) (fun x s => match draw 48 s with
    | (some e, t) => answer fn "KEY_EXCHANGE_RSP" 0 (Config.secp384 e)
        (setSession { x with exchanged := true, active := false, key := shake256 32 (Config.secp384 (e ++ share)), updates := 0 } t)
    | (none, t) => answer fn "KEY_EXCHANGE_RSP" 0x05 [] t) s)

/-- FINISH: the host's MAC under the session's key opens the session. -/
def execFinish (fn : Nat) (mac : List Byte) (s : State) : Host.Outcome State Fault Refusal :=
  .next (inOrder fn "FINISH_RSP" (fun x => x.exchanged && !x.active) (fun x s =>
    if mac = Config.hmac x.key [] then answer fn "FINISH_RSP" 0 [] (setSession { x with active := true } s)
    else answer fn "FINISH_RSP" 0x06 [] (setSession { x with exchanged := false, key := [] } s)) s)

/-- A queue after its function's key update (R318). -/
def rekeyed (q : WQueue) : WQueue := { q with last := none, state := if q.state = .off then .off else .run }

/-- KEY_UPDATE (R318, R389). -/
def execKeyUpdate (fn : Nat) (s : State) : Host.Outcome State Fault Refusal :=
  .next (inOrder fn "KEY_UPDATE_ACK" (·.active) (fun x s =>
    let t := setSession { x with key := Config.hmac x.key [1], updates := x.updates + 1 } s
    answer fn "KEY_UPDATE_ACK" 0 [] (updHub (fun h => { h with queues := h.queues.map (fun q => if q.vf + 1 == fn then rekeyed q else q) }) t)) s)

/-- HEARTBEAT. -/
def execHeartbeat (fn : Nat) (s : State) : Host.Outcome State Fault Refusal :=
  .next (inOrder fn "HEARTBEAT_ACK" (·.active) (fun _ s => answer fn "HEARTBEAT_ACK" 0 [] s) s)

/-- END_SESSION. -/
def execEndSession (fn : Nat) (s : State) : Host.Outcome State Fault Refusal :=
  .next (inOrder fn "END_SESSION_ACK" (·.active) (fun x s =>
    answer fn "END_SESSION_ACK" 0 [] (setSession { x with active := false, exchanged := false, key := [] } s)) s)

/-- PEER_ALLOW (R393): a peer's measurement digest of 64 bytes, in the function's session. -/
def execPeerAllow (vf : Nat) (digest : List Byte) (s : State) : Host.Outcome State Fault Refusal :=
  .next (inOrder (vf + 1) "PEER_ALLOW" (·.active) (fun _ s =>
    if digest.length = 64 then
      answer (vf + 1) "PEER_ALLOW" 0 [] (updVf vf (fun v => { v with allowed := if v.allowed.contains digest then v.allowed else v.allowed ++ [digest] }) s)
    else answer (vf + 1) "PEER_ALLOW" 0x01 [] s) s)

/-! ### TDISP (R391) -/

/-- TDISP error codes of the PCIe standard (assumption 18). -/
def tdInvalidRequest : Nat := 0x0001
def tdInvalidState : Nat := 0x0004
def tdUnspecified : Nat := 0x0005
def tdUnsupported : Nat := 0x0007

/-- A TDISP answer to a function's host. -/
def tdisp (vf : Nat) (kind : String) (status : Nat) (data : List Byte) (s : State) : State := answer (vf + 1) kind status data s

/-- Whether every queue of a function is OFF. -/
def allOff (s : State) (vf : Nat) : Bool := s.hub.queues.all (fun q => q.vf != vf || q.state == .off)

/-- LOCK_INTERFACE (R367, R391, R395): refused also while a lock's failed draw bars the function from a slot (assumption 105). -/
def execLockInterface (vf : Nat) (s : State) : Host.Outcome State Fault Refusal :=
  .next (match vfAt s vf with
  | none => s
  | some v =>
    if v.tdisp != .unlocked || !allOff s vf || vfResident s vf || s.trust.debug == 2 || v.barred then tdisp vf "LOCK_INTERFACE" tdInvalidRequest [] s
    else
      let t := bindSlot vf (revokeSlot vf (dropSubmitted vf true (abandonMigrations vf s)))
      match (vfAt t vf).bind (·.slot) with
      | some _ => tdisp vf "LOCK_INTERFACE" 0 [] (updVf vf (fun v => { v with tdisp := .locked }) t)
      | none => tdisp vf "LOCK_INTERFACE" tdUnspecified [] (updVf vf (fun v => { v with barred := true }) t))

/-- START_INTERFACE (R391). -/
def execStartInterface (vf : Nat) (s : State) : Host.Outcome State Fault Refusal :=
  .next (match vfAt s vf with
  | some v =>
    if v.tdisp = .locked then tdisp vf "START_INTERFACE" 0 [] (updVf vf (fun v => { v with tdisp := .run }) s)
    else tdisp vf "START_INTERFACE" tdInvalidState [] s
  | none => s)

/-- STOP_INTERFACE (R367, R391): the slot is revoked; a function that stays assigned gets a new one. -/
def execStopInterface (vf : Nat) (s : State) : Host.Outcome State Fault Refusal :=
  .next (match vfAt s vf with
  | some v =>
    let t := updVf vf (fun v => { v with tdisp := .unlocked, barred := false }) (revoke vf 8 true (abandonMigrations vf s))
    tdisp vf "STOP_INTERFACE" 0 [] (if v.assigned then bindSlot vf t else t)
  | none => s)

/-- GET_DEVICE_INTERFACE_REPORT (R391): the queue register blocks, the partition and the slot state. -/
def execGetDeviceInterfaceReport (vf : Nat) (s : State) : Host.Outcome State Fault Refusal :=
  .next (match vfAt s vf with
  | some v =>
    if v.tdisp = .locked ∨ v.tdisp = .run then
      let st := match v.slot with | some n => (match (keySlot s n).state with | .empty => 0 | .live => 1 | .revoked => 2) | none => 0
      tdisp vf "DEVICE_INTERFACE_REPORT" 0 ((s.hub.queues.filter (fun q => q.vf == vf)).flatMap (fun q => leBytes 4 (64 * q.q))
        ++ leBytes 1 v.part ++ leBytes 1 st) s
    else tdisp vf "DEVICE_INTERFACE_REPORT" tdInvalidState [] s
  | none => s)

/-- GET_DEVICE_INTERFACE_STATE (R391). -/
def execGetDeviceInterfaceState (vf : Nat) (s : State) : Host.Outcome State Fault Refusal :=
  .next (match vfAt s vf with
  | some v => tdisp vf "DEVICE_INTERFACE_STATE" 0 (leBytes 1 (tdispCode v.tdisp)) s
  | none => s)

/-- GET_TDISP_VERSION (R391): version 1.0. -/
def execGetTdispVersion (vf : Nat) (s : State) : Host.Outcome State Fault Refusal :=
  .next (match vfAt s vf with | some _ => tdisp vf "TDISP_VERSION" 0 [0x10] s | none => s)

/-- GET_TDISP_CAPABILITIES (R391). -/
def execGetTdispCapabilities (vf : Nat) (s : State) : Host.Outcome State Fault Refusal :=
  .next (match vfAt s vf with | some _ => tdisp vf "TDISP_CAPABILITIES" 0 (leBytes 4 0) s | none => s)

/-- A function goes to ERROR (R391): its queues stop, its slot is revoked. -/
def toError (vf : Nat) (s : State) : State :=
  updVf vf (fun v => { v with tdisp := .error }) (queuesOff vf (revoke vf 8 true (abandonMigrations vf s)))

/-- IDE_INTEGRITY_FAILURE (R391): of a function whose host DMA is under IDE. -/
def execIdeIntegrityFailure (vf : Nat) (s : State) : Host.Outcome State Fault Refusal :=
  .next (match vfAt s vf with
  | some v => if v.tdisp = .run then toError vf s else s
  | none => s)

/-- The counter tree fails on the data of a function whose interface is locked (R375, R391; assumption 65). -/
def treeFails (vf : Nat) (s : State) : State :=
  match vfAt s vf with
  | some v => if v.tdisp = .run ∨ v.tdisp = .locked then toError vf s else s
  | none => s

/-- UNSUPPORTED_REQUEST (R391). -/
def execUnsupportedRequest (vf msg : Nat) (s : State) : Host.Outcome State Fault Refusal :=
  .next (match vfAt s vf with | some _ => tdisp vf "TDISP_ERROR" tdUnsupported (leBytes 4 msg) s | none => s)

end Sys2Proof.Machine
end

