-- ==== Sys2Proof/Machine/Links.lean ====
section
/-! DEFINITION. Bring-up (R404 to R406), power (R410), the host link and the memory tier (R397 to R401, R411), die links (R394, R402,
R408, R409), and the scale-out ports with the handshake between packages (R392, R393, R403). -/

namespace Sys2Proof.Machine

open Sys2Proof

/-! ### Starts (R404, R405) -/

/-- Reference cycles of a time in ms (R4). -/
def milliseconds (n : Nat) : Nat := 1500000 * n

/-- A start fails: its reason enters the record, and the package is held in reset (R404, R405). -/
def failStart (reason : Byte) (s : State) : State :=
  let t := packageReset s
  updLinks (fun l => { l with reasons := reason :: s.links.reasons.take 2, holding := some s.pipe.ref }) t

/-- The start status register (R406): the last three reasons, the count, Shed mode, the stage in progress (5 while READY is awaited). -/
def startStatus (s : State) : Word :=
  let l := s.links
  let reason := fun (i : Nat) => (l.reasons.getD i 0).toNat
  word ((if l.stage = 6 then 5 else l.stage) + 8 * one l.shed + 16 * min 15 l.count + 2 ^ 8 * reason 0 + 2 ^ 16 * reason 1 + 2 ^ 24 * reason 2)

/-- A boot stage does its work when it is in progress. -/
def atStage (n : Nat) (s : State) (act : State → State) : State :=
  if s.links.stage = n && s.links.holding.isNone && !s.links.shed then act s else s

/-- BOOT_STAGE0 (R404, R405): the start record decides first; then Tack's image is verified, by its signature and its version. -/
def execBootStage0 (tackSig : Bool) (version : Nat) (s : State) : Host.Outcome State Fault Refusal :=
  .next (atStage 0 s (fun s =>
    if 3 ≤ s.links.count then updLinks (fun l => { l with shed := true, pcie := true, pcieWidth := 16 })
      (setMeas 2 (leBytes 4 version) (setMeas 1 (Config.bootImage 0 ++ imageInUse s true) s))
    else
      let t := updLinks (fun l => { l with count := min 255 (l.count + 1) }) s
      if !tackSig then failStart 0x01 t
      else if version < Config.fusedVersion then failStart 0x02 t
      else updLinks (fun l => { l with stage := 1 }) (setMeas 2 (leBytes 4 version) (setMeas 1 (Config.bootImage 0 ++ imageInUse t true) t))))

/-- The die links (R9): the compute dies' mesh and the hub, die 8. -/
def meshLinks : List (Nat × Nat) :=
  [(0, 1), (1, 2), (2, 3), (4, 5), (5, 6), (6, 7), (0, 4), (1, 5), (2, 6), (3, 7), (1, 8), (2, 8), (5, 8), (6, 8)]

/-- A draw whose failure leaves no bytes. -/
def drawBytes (n : Nat) (s : State) : List Byte × State := let d := draw n s; (d.1.getD [], d.2)

/-- The stack keys and the keys of the die links are drawn (R375, R394). -/
def drawKeys (s : State) : State :=
  let t := (List.range 16).foldl (fun t _ => let d := drawBytes 32 t; updTrust (fun u => { u with stackKeys := u.stackKeys ++ [d.1] }) d.2) s
  meshLinks.foldl (fun t l =>
    let a := drawBytes 32 t
    let b := drawBytes 32 a.2
    updLinks (fun k => { k with dieLinks := k.dieLinks ++ [⟨l.1, l.2, 4, [], [⟨0, none, 0, 0, a.1⟩, ⟨1, none, 0, 0, b.1⟩], 0, 0, true⟩] }) b.2) t

/-- BOOT_STAGE1 (R368, R404): 1,024 samples under both health tests seed the generator; keys are drawn; Yard is measured. -/
def execBootStage1 (rngOk yardOk : Bool) (s : State) : Host.Outcome State Fault Refusal :=
  .next (atStage 1 s (fun s =>
    let t := watchNoise 1024 (updTrust (fun u => { u with health := Health.start, stackKeys := [] }) s)
    if !rngOk || t.trust.health.tripped then failStart 0x03 t
    else
      let t := updTrust (fun u => { u with rng := shake256 64 (noiseBytes s.trust.samples 1024), sinceSeed := 0, failures := 0 }) t
      let t := drawKeys t
      if !yardOk then failStart 0x04 t
      else updLinks (fun l => { l with stage := 2 }) (setMeas 5 emptyLog (setMeas 3 (imageInUse t false) t))))

/-- BOOT_STAGE2 (R404, R408, R409): the compute dies that were reached and the stacks that can be used. -/
def execBootStage2 (dies hbm : List Nat) (s : State) : Host.Outcome State Fault Refusal :=
  .next (atStage 2 s (fun s =>
    let d := (List.range 8).filter (fun n => dies.contains n && !s.links.cut.contains n)
    let h := (List.range 16).filter (fun n => hbm.contains n && d.contains (n / 2))
    if d.isEmpty then failStart 0x05 s
    else if h.isEmpty then failStart 0x06 s
    else updLinks (fun l => { l with stage := 3, cut := [], dieLinks := l.dieLinks.map (fun k =>
        { k with up := k.up && (k.a == 8 || d.contains k.a) && (k.b == 8 || d.contains k.b) }) })
      (updSys (fun m => { m with deadStacks := (List.range 16).filter (fun n => !h.contains n) })
        (updHub (fun u => { u with disabledDies := (List.range 8).filter (fun n => !d.contains n) }) s))))

/-- BOOT_STAGE3 (R404, R407): the cores that passed the self-test are in service and fill the partitions' pools. -/
def execBootStage3 (passed : List Nat) (s : State) : Host.Outcome State Fault Refusal :=
  .next (atStage 3 s (fun s =>
    let t := updHub (fun h => { h with disabled := (List.range 768).filter (fun c => !passed.contains c) }) s
    let ok := (List.range 768).filter (coreUsable t)
    if ok.isEmpty then failStart 0x07 s
    else updLinks (fun l => { l with stage := 4 }) (toPool ok t)))

/-- BOOT_STAGE4 (R404). -/
def execBootStage4 (linkUp : Bool) (s : State) : Host.Outcome State Fault Refusal :=
  .next (atStage 4 s (fun s =>
    if linkUp then updLinks (fun l => { l with stage := 5, pcie := true, pcieWidth := 16 }) s else failStart 0x08 s))

/-- BOOT_STAGE5 (R10, R404): the package's place in its pod; the ports train by themselves, and none fails the start. -/
def execBootStage5 (pod package : Nat) (s : State) : Host.Outcome State Fault Refusal :=
  .next (atStage 5 s (fun s =>
    updLinks (fun l => { l with stage := 6 }) { s with id := { s.id with pod := BitVec.ofNat 16 pod, package := BitVec.ofNat 10 package } }))

/-- The limit of a stage after reset, and the reasons of its failure (R404). -/
def stageLimit (n : Nat) : Nat × List Byte :=
  match n with
  | 0 => (milliseconds 500, [0x01, 0x02])
  | 1 => (milliseconds 1500, [0x03, 0x04])
  | 2 => (milliseconds 4000, [0x05, 0x06])
  | 3 => (milliseconds 6000, [0x07])
  | 4 => (milliseconds 8000, [0x08])
  | _ => (milliseconds 10000, [0x09])

/-- Whether the stage in progress has outrun its limit. -/
def stageLate (s : State) : Bool :=
  decide (s.links.stage < 7) && !s.links.shed && s.links.holding.isNone
    && decide ((stageLimit s.links.stage).1 ≤ s.pipe.ref - s.links.resetAt)

/-- BOOT_STAGE_TIMEOUT (R404): a stage that has not ended by its limit fails the start; which of a stage's two reasons it gives is
free. -/
def execBootStageTimeout (s : State) : Host.Outcome State Fault Refusal :=
  .next (if stageLate s then
      let d := drawChoice s
      let l := (stageLimit s.links.stage).2
      failStart ((l[d.1 % max 1 l.length]?).getD 0) d.2
    else s)

/-- START_RESTART (R404): after 1 s in reset the package starts again. -/
def execStartRestart (s : State) : Host.Outcome State Fault Refusal :=
  .next (match s.links.holding with
  | some t => if t + milliseconds 1000 ≤ s.pipe.ref then
      updLinks (fun l => { l with holding := none, clocks := true, resetAt := s.pipe.ref }) s else s
  | none => s)

/-! ### Power (R410) -/

/-- RAIL_FAULT (R410): every clock stops, the package is held in reset. -/
def execRailFault (s : State) : Host.Outcome State Fault Refusal :=
  .next (updLinks (fun l => { l with clocks := false }) (failStart 0x0A s))

/-- THERMAL_TRIP (R410). -/
def execThermalTrip (s : State) : Host.Outcome State Fault Refusal :=
  .next (updLinks (fun l => { l with clocks := false }) (failStart 0x0B s))

/-- POWER_LIMIT_THROTTLE (R410): one step of 25 MHz down while the power, in W, is above Yard's limit, never below 750 MHz. Else the hub
may raise the clock by a step, never above 1,500 MHz: whether it does is free (assumption 104). -/
def execPowerLimitThrottle (power : Nat) (s : State) : Host.Outcome State Fault Refusal :=
  .next (if s.links.powerLimit ≠ 0 ∧ s.links.powerLimit < power then
      updLinks (fun l => { l with clockMHz := max 750 (l.clockMHz - 25) }) s
    else if s.links.clockMHz < 1500 then
      let d := drawChoice s
      if d.1 % 2 = 0 then d.2 else updLinks (fun l => { l with clockMHz := min 1500 (l.clockMHz + 25) }) d.2
    else s)

/-! ### The host link and the memory tier (R397, R401, R411) -/

/-- PCIE_LINK_DOWN (R411). -/
def execPcieLinkDown (s : State) : Host.Outcome State Fault Refusal := .next (updLinks (fun l => { l with pcie := false }) s)

/-- PCIE_LINK_UP (R397, R411): the posts that waited are written in their order. -/
def execPcieLinkUp (width : Nat) (s : State) : Host.Outcome State Fault Refusal :=
  .next (if [1, 2, 4, 8, 16].contains width && (decide (4 ≤ s.links.stage) || s.links.shed) then
      s.hub.posts.foldl (fun t p => ringPost p.1 p.2 t)
        (updHub (fun h => { h with posts := [] }) (updLinks (fun l => { l with pcie := true, pcieWidth := width }) s))
    else s)

/-- CXL_DEVICE_LOSS (R411): migrations to tier 01 that have not switched are abandoned. -/
def execCxlDeviceLoss (s : State) : Host.Outcome State Fault Refusal :=
  .next (if s.links.cxl then
      updLinks (fun k => { k with cxl := false })
        ((s.sys.migrations.filter (fun m => m.tier == 1 && !m.switched)).foldl (fun t m => abandonMigration m t) s)
    else s)

/-- A CXL device found at bring-up (R401): up to 2 TiB, before Ready. -/
def attachCxl (bytes : Nat) (s : State) : State :=
  if s.links.stage < 7 ∧ 2 ^ 30 ≤ bytes ∧ bytes ≤ 2 ^ 41 then updLinks (fun l => { l with cxl := true, cxlBytes := bytes }) s else s

/-! ### Die links (R394, R402, R408, R409) -/

/-- Whether a link joins two dies. -/
def DieLink.joins (k : DieLink) (a b : Nat) : Bool := k.a == min a b && k.b == max a b

/-- A die link changed. -/
def updDieLink (a b : Nat) (f : DieLink → DieLink) (s : State) : State :=
  updLinks (fun l => { l with dieLinks := l.dieLinks.map (fun k => if k.joins a b then f k else k) }) s

/-- DIE_LINK_REKEY (R394): a direction of a link moves to a new key, its counter at 0: a tenant's by the next generation (the first
is generation 0), another's by a draw. -/
def execDieLinkRekey (a b dir : Nat) (slot : Option Nat) (s : State) : Host.Outcome State Fault Refusal :=
  .next (match s.links.dieLinks.find? (fun k => k.joins a b) with
  | none => s
  | some k =>
    let old := k.keys.find? (fun x => x.dir == dir && x.slot == slot)
    let gen := match old with | some x => x.gen + 1 | none => 0
    let put := fun (key : List Byte) => updDieLink a b (fun k => { k with
      keys := ⟨dir, slot, gen, 0, key⟩ :: k.keys.filter (fun x => !(x.dir == dir && x.slot == slot)) })
    if 2 ≤ dir then s
    else match slot with
      | some n => if (keySlot s n).state = .live then put (dieKey (epochSecret (keySlot s n)) a b dir gen) s else s
      | none => (match draw 32 s with
        | (some key, t) => put key t
        | (none, t) => t))

/-- FLIT_RETRY (R394): a flit is sent again. Its tag verifies and it is delivered once, under a count of one of the direction's keys, none
of which reaches 2^63; the 16th failure in a row takes the link out of service. A failure is an error in a shared structure (R312). -/
def execFlitRetry (a b dir : Nat) (tagOk : Bool) (s : State) : Host.Outcome State Fault Refusal :=
  let d := drawChoice s
  .next (if 2 ≤ dir then s else updDieLink a b (fun k =>
    if !k.up then k
    else if tagOk then
      let mine := k.keys.filter (fun x => x.dir == dir && decide (x.count + 1 < 2 ^ 63))
      let hit := mine[d.1 % max 1 mine.length]?
      { k with fails0 := if dir = 0 then 0 else k.fails0, fails1 := if dir = 1 then 0 else k.fails1
               keys := k.keys.map (fun x => if hit == some x then { x with count := x.count + 1 } else x) }
    else
      let n := (if dir = 0 then k.fails0 else k.fails1) + 1
      { k with fails0 := if dir = 0 then n else k.fails0, fails1 := if dir = 1 then n else k.fails1, up := decide (n < 16) })
    (if !tagOk && s.links.dieLinks.any (fun k => k.joins a b && k.up) then sharedErr 16 d.2 else d.2))

/-- UCIE_LANE_REPAIR (R408, R411): a redundant lane takes over, or the module is disabled; the last module takes the link with it. -/
def execUcieLaneRepair (a b module lane : Nat) (ok : Bool) (s : State) : Host.Outcome State Fault Refusal :=
  .next (if 4 ≤ module ∨ 64 ≤ lane then s else updDieLink a b (fun k =>
    if ok then { k with lanes := (module, lane) :: k.lanes.filter (· != (module, lane)) }
    else { k with modules := k.modules - 1, up := k.up && decide (1 < k.modules) }) s)

/-- UCIE_LINK_LOSS (R409): traffic takes the other dimension order, or the two dies cannot reach each other. -/
def execUcieLinkLoss (a b : Nat) (s : State) : Host.Outcome State Fault Refusal := .next (updDieLink a b (fun k => { k with up := false }) s)

/-! ### The handshake between packages (R392, R393) -/

/-- The package's measurement digest (R392). -/
def measDigest (s : State) : List Byte := shake256 64 (s.trust.meas.toList.flatten)

/-- A peer's record. -/
def peerAt (s : State) (n : Nat) : Option Peer := s.trust.peers.find? (fun p => p.peer == n)

/-- A peer's record changed. -/
def updPeer (n : Nat) (f : Peer → Peer) (s : State) : State :=
  updTrust (fun t => { t with peers := t.peers.map (fun p => if p.peer == n then f p else p) }) s

/-- A message to a peer package. -/
def toPeer (n : Nat) (kind : String) (msg : List Byte) (s : State) : State := reply (2000 + n) kind 0 msg s

/-- The handshake fails: no traffic passes; Yard gets an event, and Tack tries again in a second. -/
def shakeFails (n : Nat) (s : State) : State :=
  reply 0 "HANDSHAKE_FAILED" 0 (leBytes 2 n) (updPeer n (fun p => { p with
    shake := .failed, secret := [], digest := [], transcript := [], own := [], keys := [], retryAt := s.pipe.ref + milliseconds 1000 }) s)

/-- The public parts of a side's drawn key material: its nonce, its X448 share, its ML-KEM encapsulation key. -/
def shareOfPeer (e : List Byte) : List Byte := e.take 32 ++ (Config.x448 (e.drop 32)).take 56

/-- A handshake starts: the initiator, with the lower package index, sends HS1; the responder waits for it. -/
def startShake (n : Nat) (s : State) : State :=
  if s.id.package.toNat < n then
    match draw 64 s with
    | (some e, t) =>
      let m := shareOfPeer e ++ (Config.mlKem (e.drop 32)).take 1568
      toPeer n "HS1" m (updPeer n (fun p => { p with shake := .hs1, transcript := m, own := e }) t)
    | (none, t) => shakeFails n t
  else updPeer n (fun p => { p with shake := .down, transcript := [], own := [] }) s

/-- The fabric secret of a transcript (R392). -/
def pairSecret (own share kem transcript : List Byte) : List Byte :=
  shake256 64 ([0x41, 0x58, 0x31, 0x20, 0x66, 0x61, 0x62, 0x72, 0x69, 0x63] ++ Config.x448 (own ++ share) ++ Config.mlKem (own ++ kem)
    ++ shake256 64 transcript)

/-- A signed message: its body, then the signature of 114 bytes over what came before it and the body. -/
def signed (before body : List Byte) : List Byte := body ++ (Config.ed448Sign (shake256 64 (before ++ body))).take 114

/-- Whether a signed message verifies: its signature, and the certificate chain that stands after the digest at `at'`. -/
def verifies (before msg : List Byte) (at' : Nat) : Bool :=
  let n := msg.length - 114
  decide (at' + 64 + 114 ≤ msg.length) && Config.ed448Verify (shake256 64 (before ++ msg.take n)) (msg.drop n)
    && Config.chainValid ((msg.take n).drop (at' + 64))

/-- The handshake is complete: both sides hold the pair secret. -/
def shakeDone (n : Nat) (secret digest : List Byte) (s : State) : State :=
  updPeer n (fun p => { p with shake := .done, secret := secret, digest := digest, transcript := [], own := [], sent := 0, keys := [] }) s

/-- HS1 (R392): the responder answers with HS2. -/
def execHs1 (peer : Nat) (msg : List Byte) (s : State) : Host.Outcome State Fault Refusal :=
  .next (match peerAt s peer with
  | none => s
  | some _ =>
    if s.id.package.toNat ≤ peer then s
    else if msg.length ≠ 1656 then shakeFails peer s
    else match draw 64 s with
      | (none, t) => shakeFails peer t
      | (some e, t) =>
        let body := shareOfPeer e ++ (Config.mlKem (e.drop 32 ++ msg.drop 88)).take 1568 ++ measDigest t ++ Config.certificate 0
        let hs2 := signed msg body
        toPeer peer "HS2" hs2 (updPeer peer (fun p => { p with shake := .hs2, transcript := msg ++ hs2, own := e }) t))

/-- HS2 (R392): the initiator verifies the responder, answers with HS3 and holds the pair secret. -/
def execHs2 (peer : Nat) (msg : List Byte) (s : State) : Host.Outcome State Fault Refusal :=
  .next (match peerAt s peer with
  | none => s
  | some p =>
    if p.shake ≠ .hs1 then s
    else if !verifies p.transcript msg 1656 then shakeFails peer s
    else
      let before := p.transcript ++ msg
      let hs3 := signed before (measDigest s ++ Config.certificate 0)
      toPeer peer "HS3" hs3 (shakeDone peer (pairSecret (p.own.drop 32) ((msg.drop 32).take 56) ((msg.drop 88).take 1568) (before ++ hs3))
        ((msg.drop 1656).take 64) s))

/-- HS3 (R392): the responder verifies the initiator and holds the pair secret. -/
def execHs3 (peer : Nat) (msg : List Byte) (s : State) : Host.Outcome State Fault Refusal :=
  .next (match peerAt s peer with
  | none => s
  | some p =>
    if p.shake ≠ .hs2 then s
    else if !verifies p.transcript msg 0 then shakeFails peer s
    else shakeDone peer (pairSecret (p.own.drop 32) ((p.transcript.drop 32).take 56) ((p.transcript.drop 88).take 1568) (p.transcript ++ msg))
      (msg.take 64) s)

/-- HANDSHAKE_RETRY (R392): once a second. -/
def execHandshakeRetry (peer : Nat) (s : State) : Host.Outcome State Fault Refusal :=
  .next (match peerAt s peer with
  | some p => if p.shake = .failed ∧ p.retryAt ≤ s.pipe.ref then startShake peer s else s
  | none => s)

/-- FABRIC_REKEY (R393): at 2^31 messages under one secret a new handshake starts; the old keys serve until it is done. -/
def execFabricRekey (peer : Nat) (s : State) : Host.Outcome State Fault Refusal :=
  .next (match peerAt s peer with
  | some p => if p.shake = .done ∧ 2 ^ 31 ≤ p.sent then startShake peer s else s
  | none => s)

/-! ### Scale-out ports (R403, R408, R411) -/

/-- The lanes that a port trains to (R403). -/
def portLanes (n : Nat) : Bool := n == 4 || n == 2 || n == 1

/-- UALINK_PORT_TRAIN (R392, R403): a port that trains to no width stays down. -/
def execUalinkPortTrain (port peer lanes : Nat) (s : State) : Host.Outcome State Fault Refusal :=
  .next (if 8 ≤ port ∨ 1024 ≤ peer ∨ peer = s.id.package.toNat ∨ portLanes lanes = false ∨ s.links.stage < 5 then s
    else
      let t := updLinks (fun l => { l with ports := ⟨port, lanes, some peer⟩ :: l.ports.filter (fun p => p.port != port) }) s
      match peerAt t peer with
      | some p => if p.shake = .done then t else startShake peer t
      | none => startShake peer (updTrust (fun u => { u with peers := u.peers ++ [⟨peer, port, .down, [], [], [], [], 0, 0, []⟩] }) t))

/-- Received units of a collective that was cut off: each 8-byte unit is written or not (R411). -/
def cutOff (commit : Nat) : Nat → Nat → List Byte → State → State
  | 0, _, _, s => s
  | fuel + 1, va, bs, s =>
    if bs.isEmpty then s
    else
      let k := min bs.length (8 - va % 8)
      let d := drawChoice s
      let t := if d.1 % 2 = 0 then (match receive commit 2 va (bs.take k) d.2 with | .ok (some t) => t | _ => d.2) else d.2
      cutOff commit fuel (va + k) (bs.drop k) t

/-- A pod collective in progress at this core fails when the port to one of its packages is lost (R411). -/
def failColl (peer : Nat) (c : DCmd) (s : State) : State :=
  match collParams c, s.hub.colls.find? (fun x => x.no + 1 == c.link) with
  | some (k, .pod, _, _, _), some x =>
    if c.stage != .started || !((remoteCrew s).any (fun r => packageOf r == peer)) then s
    else
      let partial' := match k with | .bcast | .scatter => (collResult s .pod c x).getD [] | _ => []
      let t := partial'.foldl (fun t e => cutOff c.commit (e.2.length / 8 + 2) e.1 e.2 t) s
      updHub (fun h => { h with colls := h.colls.map (fun y => if y.no == x.no then { y with failed := true } else y) }) t
  | _, _ => s

/-- UALINK_PORT_LOSS (R411). -/
def execUalinkPortLoss (port : Nat) (s : State) : Host.Outcome State Fault Refusal :=
  .next (match (s.links.ports.find? (fun p => p.port == port)).bind (·.peer) with
  | none => updLinks (fun l => { l with ports := l.ports.filter (fun p => p.port != port) }) s
  | some peer =>
    let t := updLinks (fun l => { l with ports := l.ports.filter (fun p => p.port != port) }) s
    let t := t.cpy.cmds.foldl (fun t c => failColl peer c t) t
    if t.links.ports.any (fun p => p.peer == some peer) then t
    else updTrust (fun u => { u with peers := u.peers.filter (fun p => p.peer != peer) }) t)

/-- UALINK_LANE_LOSS (R408): the port retrains at 2 or 1 lanes. -/
def execUalinkLaneLoss (port lanes : Nat) (s : State) : Host.Outcome State Fault Refusal :=
  .next (if lanes = 2 ∨ lanes = 1 then
      updLinks (fun l => { l with ports := l.ports.map (fun p => if p.port == port && decide (lanes < p.lanes) then { p with lanes := lanes } else p) }) s
    else s)

/-- POD_TIME_CORRECTION (R403): the package's copy of pod reference time, in reference cycles. -/
def execPodTimeCorrection (t : Nat) (s : State) : Host.Outcome State Fault Refusal := .next (updLinks (fun l => { l with podTime := t }) s)

end Sys2Proof.Machine
end

