-- ==== Sys2Proof/Machine/Dispatch.lean ====
section
/-! DEFINITION. One arm per instruction: its meaning. -/

namespace Sys2Proof.Machine

open Sys2Proof

def exec (i : Instr) (s : State) : Host.Outcome State Fault Refusal :=
  match i with
  | .lui rd imm => Sys2Proof.Machine.execLui rd imm s
  | .auipc rd imm => Sys2Proof.Machine.execAuipc rd imm s
  | .jal rd imm => Sys2Proof.Machine.execJal rd imm s
  | .jalr o => Sys2Proof.Machine.execJalr o s
  | .beq o => Sys2Proof.Machine.execBeq o s
  | .bne o => Sys2Proof.Machine.execBne o s
  | .blt o => Sys2Proof.Machine.execBlt o s
  | .bge o => Sys2Proof.Machine.execBge o s
  | .bltu o => Sys2Proof.Machine.execBltu o s
  | .bgeu o => Sys2Proof.Machine.execBgeu o s
  | .lb o => Sys2Proof.Machine.execLb o s
  | .lh o => Sys2Proof.Machine.execLh o s
  | .lw o => Sys2Proof.Machine.execLw o s
  | .ld o => Sys2Proof.Machine.execLd o s
  | .lbu o => Sys2Proof.Machine.execLbu o s
  | .lhu o => Sys2Proof.Machine.execLhu o s
  | .lwu o => Sys2Proof.Machine.execLwu o s
  | .sb o => Sys2Proof.Machine.execSb o s
  | .sh o => Sys2Proof.Machine.execSh o s
  | .sw o => Sys2Proof.Machine.execSw o s
  | .sd o => Sys2Proof.Machine.execSd o s
  | .addi o => Sys2Proof.Machine.execAddi o s
  | .slti o => Sys2Proof.Machine.execSlti o s
  | .sltiu o => Sys2Proof.Machine.execSltiu o s
  | .xori o => Sys2Proof.Machine.execXori o s
  | .ori o => Sys2Proof.Machine.execOri o s
  | .andi o => Sys2Proof.Machine.execAndi o s
  | .slli o => Sys2Proof.Machine.execSlli o s
  | .srli o => Sys2Proof.Machine.execSrli o s
  | .srai o => Sys2Proof.Machine.execSrai o s
  | .addiw o => Sys2Proof.Machine.execAddiw o s
  | .slliw o => Sys2Proof.Machine.execSlliw o s
  | .srliw o => Sys2Proof.Machine.execSrliw o s
  | .sraiw o => Sys2Proof.Machine.execSraiw o s
  | .add o => Sys2Proof.Machine.execAdd o s
  | .sub o => Sys2Proof.Machine.execSub o s
  | .sll o => Sys2Proof.Machine.execSll o s
  | .slt o => Sys2Proof.Machine.execSlt o s
  | .sltu o => Sys2Proof.Machine.execSltu o s
  | .xor o => Sys2Proof.Machine.execXor o s
  | .srl o => Sys2Proof.Machine.execSrl o s
  | .sra o => Sys2Proof.Machine.execSra o s
  | .or o => Sys2Proof.Machine.execOr o s
  | .and o => Sys2Proof.Machine.execAnd o s
  | .mul o => Sys2Proof.Machine.execMul o s
  | .mulh o => Sys2Proof.Machine.execMulh o s
  | .mulhsu o => Sys2Proof.Machine.execMulhsu o s
  | .mulhu o => Sys2Proof.Machine.execMulhu o s
  | .div o => Sys2Proof.Machine.execDiv o s
  | .divu o => Sys2Proof.Machine.execDivu o s
  | .rem o => Sys2Proof.Machine.execRem o s
  | .remu o => Sys2Proof.Machine.execRemu o s
  | .addw o => Sys2Proof.Machine.execAddw o s
  | .subw o => Sys2Proof.Machine.execSubw o s
  | .sllw o => Sys2Proof.Machine.execSllw o s
  | .srlw o => Sys2Proof.Machine.execSrlw o s
  | .sraw o => Sys2Proof.Machine.execSraw o s
  | .mulw o => Sys2Proof.Machine.execMulw o s
  | .divw o => Sys2Proof.Machine.execDivw o s
  | .divuw o => Sys2Proof.Machine.execDivuw o s
  | .remw o => Sys2Proof.Machine.execRemw o s
  | .remuw o => Sys2Proof.Machine.execRemuw o s
  | .fenceS fields => Sys2Proof.Machine.execFenceS fields s
  | .ecall => Sys2Proof.Machine.execEcall s
  | .ebreak => Sys2Proof.Machine.execEbreak s
  | .csrrw rd rs1 csr => Sys2Proof.Machine.execCsrrw rd rs1 csr s
  | .csrrs rd rs1 csr => Sys2Proof.Machine.execCsrrs rd rs1 csr s
  | .csrrc rd rs1 csr => Sys2Proof.Machine.execCsrrc rd rs1 csr s
  | .csrrwi rd u csr => Sys2Proof.Machine.execCsrrwi rd u csr s
  | .csrrsi rd u csr => Sys2Proof.Machine.execCsrrsi rd u csr s
  | .csrrci rd u csr => Sys2Proof.Machine.execCsrrci rd u csr s
  | .loopi cnt off => Sys2Proof.Machine.execLoopi cnt off s
  | .loopr rs1 off => Sys2Proof.Machine.execLoopr rs1 off s
  | .lbrk => Sys2Proof.Machine.execLbrk s
  | .endOp => Sys2Proof.Machine.execEndOp s
  | .qfeat rd n => Sys2Proof.Machine.execQfeat rd n s
  | .pcommit => Sys2Proof.Machine.execPcommit s
  | .pswap => Sys2Proof.Machine.execPswap s
  | .waitge rs1 rs2 => Sys2Proof.Machine.execWaitge rs1 rs2 s
  | .evpop rd => Sys2Proof.Machine.execEvpop rd s
  | .bar scope id => Sys2Proof.Machine.execBar scope id s
  | .nextitem rd => Sys2Proof.Machine.execNextitem rd s
  | .emit rs1 n => Sys2Proof.Machine.execEmit rs1 n s
  | .ldl o => Sys2Proof.Machine.execLdl o s
  | .stul o => Sys2Proof.Machine.execStul o s
  | .amoaddW o => Sys2Proof.Machine.execAmoaddW o s
  | .amoaddD o => Sys2Proof.Machine.execAmoaddD o s
  | .amoandW o => Sys2Proof.Machine.execAmoandW o s
  | .amoandD o => Sys2Proof.Machine.execAmoandD o s
  | .amoorW o => Sys2Proof.Machine.execAmoorW o s
  | .amoorD o => Sys2Proof.Machine.execAmoorD o s
  | .amoxorW o => Sys2Proof.Machine.execAmoxorW o s
  | .amoxorD o => Sys2Proof.Machine.execAmoxorD o s
  | .amominW o => Sys2Proof.Machine.execAmominW o s
  | .amominD o => Sys2Proof.Machine.execAmominD o s
  | .amomaxW o => Sys2Proof.Machine.execAmomaxW o s
  | .amomaxD o => Sys2Proof.Machine.execAmomaxD o s
  | .amominnW o => Sys2Proof.Machine.execAmominnW o s
  | .amominnD o => Sys2Proof.Machine.execAmominnD o s
  | .amomaxnW o => Sys2Proof.Machine.execAmomaxnW o s
  | .amomaxnD o => Sys2Proof.Machine.execAmomaxnD o s
  | .amoswapW o => Sys2Proof.Machine.execAmoswapW o s
  | .amoswapD o => Sys2Proof.Machine.execAmoswapD o s
  | .casW o => Sys2Proof.Machine.execCasW o s
  | .casD o => Sys2Proof.Machine.execCasD o s
  | .tret => Sys2Proof.Machine.execTret s
  | .ctxsave rs1 => Sys2Proof.Machine.execCtxsave rs1 s
  | .ctxload rs1 => Sys2Proof.Machine.execCtxload rs1 s
  | .kgen rd => Sys2Proof.Machine.execKgen rd s
  | .krot rd rs1 => Sys2Proof.Machine.execKrot rd rs1 s
  | .seal rd rs1 => Sys2Proof.Machine.execSeal rd rs1 s
  | .unseal rd rs1 => Sys2Proof.Machine.execUnseal rd rs1 s
  | .scrub rd rs1 => Sys2Proof.Machine.execScrub rd rs1 s
  | .mclrchk rd rs1 => Sys2Proof.Machine.execMclrchk rd rs1 s
  | .token rep index mark => Sys2Proof.Machine.execToken rep index mark s
  | .nop slot => Sys2Proof.Machine.execNop slot s
  | .vld o => Sys2Proof.Machine.execVld o s
  | .vst o => Sys2Proof.Machine.execVst o s
  | .vldb o => Sys2Proof.Machine.execVldb o s
  | .vstp o => Sys2Proof.Machine.execVstp o s
  | .vldx o => Sys2Proof.Machine.execVldx o s
  | .vlds o => Sys2Proof.Machine.execVlds o s
  | .vsts o => Sys2Proof.Machine.execVsts o s
  | .sld o => Sys2Proof.Machine.execSld o s
  | .sst o => Sys2Proof.Machine.execSst o s
  | .vpush vs qd pg => Sys2Proof.Machine.execVpush vs qd pg s
  | .hset h xa => Sys2Proof.Machine.execHset h xa s
  | .hget h xd sel => Sys2Proof.Machine.execHget h xd sel s
  | .hclr h => Sys2Proof.Machine.execHclr h s
  | .fence kind o => Sys2Proof.Machine.execFence kind o s
  | .acqH o => Sys2Proof.Machine.execAcqH o s
  | .relH o => Sys2Proof.Machine.execRelH o s
  | .errfence paths hmask => Sys2Proof.Machine.execErrfence paths hmask s
  | .vadd e o => Sys2Proof.Machine.execVadd e o s
  | .vsub e o => Sys2Proof.Machine.execVsub e o s
  | .vaddsI e o => Sys2Proof.Machine.execVaddsI e o s
  | .vaddsN e o => Sys2Proof.Machine.execVaddsN e o s
  | .vsubsI e o => Sys2Proof.Machine.execVsubsI e o s
  | .vsubsN e o => Sys2Proof.Machine.execVsubsN e o s
  | .vmul e o => Sys2Proof.Machine.execVmul e o s
  | .vmulhI e o => Sys2Proof.Machine.execVmulhI e o s
  | .vmulhN e o => Sys2Proof.Machine.execVmulhN e o s
  | .vminI e o => Sys2Proof.Machine.execVminI e o s
  | .vminN e o => Sys2Proof.Machine.execVminN e o s
  | .vmaxI e o => Sys2Proof.Machine.execVmaxI e o s
  | .vmaxN e o => Sys2Proof.Machine.execVmaxN e o s
  | .vabs e o => Sys2Proof.Machine.execVabs e o s
  | .vnot e o => Sys2Proof.Machine.execVnot e o s
  | .vsll e o => Sys2Proof.Machine.execVsll e o s
  | .vsrl e o => Sys2Proof.Machine.execVsrl e o s
  | .vsra e o => Sys2Proof.Machine.execVsra e o s
  | .vand e o => Sys2Proof.Machine.execVand e o s
  | .vor e o => Sys2Proof.Machine.execVor e o s
  | .vxor e o => Sys2Proof.Machine.execVxor e o s
  | .vandn e o => Sys2Proof.Machine.execVandn e o s
  | .vsel e o => Sys2Proof.Machine.execVsel e o s
  | .vcmpI e o => Sys2Proof.Machine.execVcmpI e o s
  | .vcmpN e o => Sys2Proof.Machine.execVcmpN e o s
  | .vcmpF e o => Sys2Proof.Machine.execVcmpF e o s
  | .vcmpBf e o => Sys2Proof.Machine.execVcmpBf e o s
  | .vredI e o => Sys2Proof.Machine.execVredI e o s
  | .vredN e o => Sys2Proof.Machine.execVredN e o s
  | .vredF e o => Sys2Proof.Machine.execVredF e o s
  | .vredBf e o => Sys2Proof.Machine.execVredBf e o s
  | .vfadd e o => Sys2Proof.Machine.execVfadd e o s
  | .vfsub e o => Sys2Proof.Machine.execVfsub e o s
  | .vfmul e o => Sys2Proof.Machine.execVfmul e o s
  | .vfma e o => Sys2Proof.Machine.execVfma e o s
  | .vfms e o => Sys2Proof.Machine.execVfms e o s
  | .vfnma e o => Sys2Proof.Machine.execVfnma e o s
  | .vfmin e o => Sys2Proof.Machine.execVfmin e o s
  | .vfmax e o => Sys2Proof.Machine.execVfmax e o s
  | .vbfadd e o => Sys2Proof.Machine.execVbfadd e o s
  | .vbfsub e o => Sys2Proof.Machine.execVbfsub e o s
  | .vbfmul e o => Sys2Proof.Machine.execVbfmul e o s
  | .vbfma e o => Sys2Proof.Machine.execVbfma e o s
  | .vbfms e o => Sys2Proof.Machine.execVbfms e o s
  | .vbfnma e o => Sys2Proof.Machine.execVbfnma e o s
  | .vbfmin e o => Sys2Proof.Machine.execVbfmin e o s
  | .vbfmax e o => Sys2Proof.Machine.execVbfmax e o s
  | .vmov e o => Sys2Proof.Machine.execVmov e o s
  | .vbcast e vd imm => Sys2Proof.Machine.execVbcast e vd imm s
  | .vbcx e vd xs => Sys2Proof.Machine.execVbcx e vd xs s
  | .vcvt e o => Sys2Proof.Machine.execVcvt e o s
  | .vunp3 e vd vs1 fout strict w1 => Sys2Proof.Machine.execVunp3 e vd vs1 fout strict w1 s
  | .vpack e o => Sys2Proof.Machine.execVpack e o s
  | .vsetshape e xs => Sys2Proof.Machine.execVsetshape e xs s
  | .pand e o => Sys2Proof.Machine.execPand e o s
  | .por e o => Sys2Proof.Machine.execPor e o s
  | .pxor e o => Sys2Proof.Machine.execPxor e o s
  | .pnot e pd pa => Sys2Proof.Machine.execPnot e pd pa s
  | .pset e pd n => Sys2Proof.Machine.execPset e pd n s
  | .pcount e xd pa => Sys2Proof.Machine.execPcount e xd pa s
  | .exp2 o => Sys2Proof.Machine.execExp2 o s
  | .log2 o => Sys2Proof.Machine.execLog2 o s
  | .rcp o => Sys2Proof.Machine.execRcp o s
  | .rsqrt o => Sys2Proof.Machine.execRsqrt o s
  | .sqrt o => Sys2Proof.Machine.execSqrt o s
  | .fDiv o => Sys2Proof.Machine.execFDiv o s
  | .tanh o => Sys2Proof.Machine.execTanh o s
  | .wupd o => Sys2Proof.Machine.execWupd o s
  | .wmrg o => Sys2Proof.Machine.execWmrg o s
  | .wfin o => Sys2Proof.Machine.execWfin o s
  | .bnld vs1 pat => Sys2Proof.Machine.execBnld vs1 pat s
  | .bnet o => Sys2Proof.Machine.execBnet o s
  | .bmm8 o => Sys2Proof.Machine.execBmm8 o s
  | .pdep o => Sys2Proof.Machine.execPdep o s
  | .pext o => Sys2Proof.Machine.execPext o s
  | .bperm o => Sys2Proof.Machine.execBperm o s
  | .vtrn o => Sys2Proof.Machine.execVtrn o s
  | .mma o => Sys2Proof.Machine.execMma o s
  | .mzero z => Sys2Proof.Machine.execMzero z s
  | .mwld o => Sys2Proof.Machine.execMwld o s
  | .mwstrm o => Sys2Proof.Machine.execMwstrm o s
  | .mwswap => Sys2Proof.Machine.execMwswap s
  | .mret o => Sys2Proof.Machine.execMret o s
  | .mstat xd sel => Sys2Proof.Machine.execMstat xd sel s
  | .dlvl lvl xc xss xsd => Sys2Proof.Machine.execDlvl lvl xc xss xsd s
  | .dcopyCopy o => Sys2Proof.Machine.execDcopyCopy o s
  | .dcopyFill o => Sys2Proof.Machine.execDcopyFill o s
  | .dcopyDecode o => Sys2Proof.Machine.execDcopyDecode o s
  | .dcopyAddint o => Sys2Proof.Machine.execDcopyAddint o s
  | .dcopyClone o => Sys2Proof.Machine.execDcopyClone o s
  | .dpad xv => Sys2Proof.Machine.execDpad xv s
  | .dgcfg hs hd xc => Sys2Proof.Machine.execDgcfg hs hd xc s
  | .dgidx o => Sys2Proof.Machine.execDgidx o s
  | .dsidx o => Sys2Proof.Machine.execDsidx o s
  | .dtinv => Sys2Proof.Machine.execDtinv s
  | .dcoll o => Sys2Proof.Machine.execDcoll o s
  | .dsnap o => Sys2Proof.Machine.execDsnap o s
  | .kalu op kd a b => Sys2Proof.Machine.execKalu op kd a b s
  | .kchkX ka xb w => Sys2Proof.Machine.execKchkX ka xb w s
  | .kchkV va vb => Sys2Proof.Machine.execKchkV va vb s
  | .kchkP pa pb => Sys2Proof.Machine.execKchkP pa pb s
  | .ksig xs => Sys2Proof.Machine.execKsig xs s
  | .krd xd ka => Sys2Proof.Machine.execKrd xd ka s
  | .unassignedOpcode slot word => Sys2Proof.Machine.execUnassignedOpcode slot word s
  | .illegalToken tok => Sys2Proof.Machine.execIllegalToken tok s
  | .forcedCommit => Sys2Proof.Machine.execForcedCommit s
  | .forcedCommitUndoLog => Sys2Proof.Machine.execForcedCommitUndoLog s
  | .barrierArrival core scope id => Sys2Proof.Machine.execBarrierArrival core scope id s
  | .barrierComplete scope id => Sys2Proof.Machine.execBarrierComplete scope id s
  | .nextitemHandout launch queue => Sys2Proof.Machine.execNextitemHandout launch queue s
  | .emitGrant launch queue => Sys2Proof.Machine.execEmitGrant launch queue s
  | .emitPublish launch queue slot => Sys2Proof.Machine.execEmitPublish launch queue slot s
  | .itemRelease launch queue slot => Sys2Proof.Machine.execItemRelease launch queue slot s
  | .lockGrant core bank bit => Sys2Proof.Machine.execLockGrant core bank bit s
  | .ldlRetry => Sys2Proof.Machine.execLdlRetry s
  | .atomicPerform n => Sys2Proof.Machine.execAtomicPerform n s
  | .trustOpPerform n => Sys2Proof.Machine.execTrustOpPerform n s
  | .trustOpComplete n => Sys2Proof.Machine.execTrustOpComplete n s
  | .relHPerform n => Sys2Proof.Machine.execRelHPerform n s
  | .mmaComplete z => Sys2Proof.Machine.execMmaComplete z s
  | .mwldComplete b => Sys2Proof.Machine.execMwldComplete b s
  | .mwstrmComplete b => Sys2Proof.Machine.execMwstrmComplete b s
  | .mretComplete z => Sys2Proof.Machine.execMretComplete z s
  | .addintCopyStart n => Sys2Proof.Machine.execAddintCopyStart n s
  | .copyComplete n => Sys2Proof.Machine.execCopyComplete n s
  | .gatherEntryDeliver => Sys2Proof.Machine.execGatherEntryDeliver s
  | .scatterEntryTake => Sys2Proof.Machine.execScatterEntryTake s
  | .scatterComplete => Sys2Proof.Machine.execScatterComplete s
  | .dtinvComplete n => Sys2Proof.Machine.execDtinvComplete n s
  | .dcollContribution n => Sys2Proof.Machine.execDcollContribution n s
  | .dcollComplete n => Sys2Proof.Machine.execDcollComplete n s
  | .dsnapComplete n => Sys2Proof.Machine.execDsnapComplete n s
  | .resultLanding => Sys2Proof.Machine.execResultLanding s
  | .resultArrival n => Sys2Proof.Machine.execResultArrival n s
  | .deferredTrap f => Sys2Proof.Machine.execDeferredTrap f s
  | .yardKill launch => Sys2Proof.Machine.execYardKill launch s
  | .paddockEntry => Sys2Proof.Machine.execPaddockEntry s
  | .paddockRelease => Sys2Proof.Machine.execPaddockRelease s
  | .pendingListRelease n => Sys2Proof.Machine.execPendingListRelease n s
  | .storePerform n => Sys2Proof.Machine.execStorePerform n s
  | .counterIncrementPerform n => Sys2Proof.Machine.execCounterIncrementPerform n s
  | .tagRefusal n => Sys2Proof.Machine.execTagRefusal n s
  | .upsetReport zone => Sys2Proof.Machine.execUpsetReport zone s
  | .checkpointRelease => Sys2Proof.Machine.execCheckpointRelease s
  | .dryRunEnd => Sys2Proof.Machine.execDryRunEnd s
  | .confirmRunEnd => Sys2Proof.Machine.execConfirmRunEnd s
  | .recoveryResume launch core => Sys2Proof.Machine.execRecoveryResume launch core s
  | .uncorrectableConsumed place slot addr h => Sys2Proof.Machine.execUncorrectableConsumed place slot addr h s
  | .preemptRequest area => Sys2Proof.Machine.execPreemptRequest area s
  | .voluntaryPreempt => Sys2Proof.Machine.execVoluntaryPreempt s
  | .yieldOverrun => Sys2Proof.Machine.execYieldOverrun s
  | .preemptComplete part => Sys2Proof.Machine.execPreemptComplete part s
  | .backgroundWriteback granule => Sys2Proof.Machine.execBackgroundWriteback granule s
  | .coreSelfTest core pass => Sys2Proof.Machine.execCoreSelfTest core pass s
  | .queueDoorbell queue tail => Sys2Proof.Machine.execQueueDoorbell queue tail s
  | .queueEnable queue size => Sys2Proof.Machine.execQueueEnable queue size s
  | .queueDisable queue => Sys2Proof.Machine.execQueueDisable queue s
  | .noOp queue seq => Sys2Proof.Machine.execNoOp queue seq s
  | .launch queue seq record => Sys2Proof.Machine.execLaunch queue seq record s
  | .counterAdd queue seq addr addend after => Sys2Proof.Machine.execCounterAdd queue seq addr addend after s
  | .counterAddDeferred queue => Sys2Proof.Machine.execCounterAddDeferred queue s
  | .resync queue seq => Sys2Proof.Machine.execResync queue seq s
  | .otherTypeEntry queue seq kind => Sys2Proof.Machine.execOtherTypeEntry queue seq kind s
  | .launchStart launch => Sys2Proof.Machine.execLaunchStart launch s
  | .launchComplete launch => Sys2Proof.Machine.execLaunchComplete launch s
  | .eventRingEnable vf size => Sys2Proof.Machine.execEventRingEnable vf size s
  | .rebalanceBoundary => Sys2Proof.Machine.execRebalanceBoundary s
  | .coreAllocation part => Sys2Proof.Machine.execCoreAllocation part s
  | .sliceBoundary part => Sys2Proof.Machine.execSliceBoundary part s
  | .partitionChange first count size => Sys2Proof.Machine.execPartitionChange first count size s
  | .gangSliceTimes gang start slice => Sys2Proof.Machine.execGangSliceTimes gang start slice s
  | .gangSliceStart gang => Sys2Proof.Machine.execGangSliceStart gang s
  | .gangPreemptTimeout gang => Sys2Proof.Machine.execGangPreemptTimeout gang s
  | .invalidate vf len => Sys2Proof.Machine.execInvalidate vf len s
  | .invalidateDone vf => Sys2Proof.Machine.execInvalidateDone vf s
  | .migrationRequest vf va tier dpa => Sys2Proof.Machine.execMigrationRequest vf va tier dpa s
  | .migrationCopy vf va => Sys2Proof.Machine.execMigrationCopy vf va s
  | .migrationSwitch vf va => Sys2Proof.Machine.execMigrationSwitch vf va s
  | .perBankRefresh stack chan pc bank => Sys2Proof.Machine.execPerBankRefresh stack chan pc bank s
  | .activationAlert stack chan pc bank => Sys2Proof.Machine.execActivationAlert stack chan pc bank s
  | .channelRetrain stack chan pc lane cleared => Sys2Proof.Machine.execChannelRetrain stack chan pc lane cleared s
  | .bandwidthBoundary => Sys2Proof.Machine.execBandwidthBoundary s
  | .budgetWrite v => Sys2Proof.Machine.execBudgetWrite v s
  | .shareWrite i0 v => Sys2Proof.Machine.execShareWrite i0 v s
  | .scrubCtx launch => Sys2Proof.Machine.execScrubCtx launch s
  | .scrubPages vf base size => Sys2Proof.Machine.execScrubPages vf base size s
  | .health => Sys2Proof.Machine.execHealth s
  | .debugNonce => Sys2Proof.Machine.execDebugNonce s
  | .debugUnlock record => Sys2Proof.Machine.execDebugUnlock record s
  | .fabric peer msg => Sys2Proof.Machine.execFabric peer msg s
  | .ready => Sys2Proof.Machine.execReady s
  | .fwUpdate tack version image => Sys2Proof.Machine.execFwUpdate tack version image s
  | .shedClear => Sys2Proof.Machine.execShedClear s
  | .hostmeta base size => Sys2Proof.Machine.execHostmeta base size s
  | .vfAssign vf part => Sys2Proof.Machine.execVfAssign vf part s
  | .unbind vf => Sys2Proof.Machine.execUnbind vf s
  | .rngRetest => Sys2Proof.Machine.execRngRetest s
  | .rngReseed => Sys2Proof.Machine.execRngReseed s
  | .getVersion fn => Sys2Proof.Machine.execGetVersion fn s
  | .getCapabilities fn => Sys2Proof.Machine.execGetCapabilities fn s
  | .negotiateAlgorithms fn offered => Sys2Proof.Machine.execNegotiateAlgorithms fn offered s
  | .getDigests fn => Sys2Proof.Machine.execGetDigests fn s
  | .getCertificate fn slot => Sys2Proof.Machine.execGetCertificate fn slot s
  | .challenge fn slot nonce => Sys2Proof.Machine.execChallenge fn slot nonce s
  | .getMeasurements fn index nonce => Sys2Proof.Machine.execGetMeasurements fn index nonce s
  | .keyExchange fn share => Sys2Proof.Machine.execKeyExchange fn share s
  | .finish fn mac => Sys2Proof.Machine.execFinish fn mac s
  | .keyUpdate fn => Sys2Proof.Machine.execKeyUpdate fn s
  | .heartbeat fn => Sys2Proof.Machine.execHeartbeat fn s
  | .endSession fn => Sys2Proof.Machine.execEndSession fn s
  | .peerAllow vf digest => Sys2Proof.Machine.execPeerAllow vf digest s
  | .lockInterface vf => Sys2Proof.Machine.execLockInterface vf s
  | .startInterface vf => Sys2Proof.Machine.execStartInterface vf s
  | .stopInterface vf => Sys2Proof.Machine.execStopInterface vf s
  | .getDeviceInterfaceReport vf => Sys2Proof.Machine.execGetDeviceInterfaceReport vf s
  | .getDeviceInterfaceState vf => Sys2Proof.Machine.execGetDeviceInterfaceState vf s
  | .getTdispVersion vf => Sys2Proof.Machine.execGetTdispVersion vf s
  | .getTdispCapabilities vf => Sys2Proof.Machine.execGetTdispCapabilities vf s
  | .hs1 peer msg => Sys2Proof.Machine.execHs1 peer msg s
  | .hs2 peer msg => Sys2Proof.Machine.execHs2 peer msg s
  | .hs3 peer msg => Sys2Proof.Machine.execHs3 peer msg s
  | .handshakeRetry peer => Sys2Proof.Machine.execHandshakeRetry peer s
  | .fabricRekey peer => Sys2Proof.Machine.execFabricRekey peer s
  | .dieLinkRekey a b dir slot => Sys2Proof.Machine.execDieLinkRekey a b dir slot s
  | .flitRetry a b dir tagOk => Sys2Proof.Machine.execFlitRetry a b dir tagOk s
  | .packageReset => Sys2Proof.Machine.execPackageReset s
  | .bootStage0 tackSig version => Sys2Proof.Machine.execBootStage0 tackSig version s
  | .bootStage1 rngOk yardOk => Sys2Proof.Machine.execBootStage1 rngOk yardOk s
  | .bootStage2 dies hbm => Sys2Proof.Machine.execBootStage2 dies hbm s
  | .bootStage3 passed => Sys2Proof.Machine.execBootStage3 passed s
  | .bootStage4 linkUp => Sys2Proof.Machine.execBootStage4 linkUp s
  | .bootStage5 pod package => Sys2Proof.Machine.execBootStage5 pod package s
  | .bootStageTimeout => Sys2Proof.Machine.execBootStageTimeout s
  | .startRestart => Sys2Proof.Machine.execStartRestart s
  | .railFault => Sys2Proof.Machine.execRailFault s
  | .thermalTrip => Sys2Proof.Machine.execThermalTrip s
  | .powerLimitThrottle power => Sys2Proof.Machine.execPowerLimitThrottle power s
  | .functionLevelReset vf => Sys2Proof.Machine.execFunctionLevelReset vf s
  | .ucieLaneRepair a b module lane ok => Sys2Proof.Machine.execUcieLaneRepair a b module lane ok s
  | .ucieLinkLoss a b => Sys2Proof.Machine.execUcieLinkLoss a b s
  | .pcieLinkDown => Sys2Proof.Machine.execPcieLinkDown s
  | .pcieLinkUp width => Sys2Proof.Machine.execPcieLinkUp width s
  | .cxlDeviceLoss => Sys2Proof.Machine.execCxlDeviceLoss s
  | .ualinkPortTrain port peer lanes => Sys2Proof.Machine.execUalinkPortTrain port peer lanes s
  | .ualinkPortLoss port => Sys2Proof.Machine.execUalinkPortLoss port s
  | .podTimeCorrection t => Sys2Proof.Machine.execPodTimeCorrection t s
  | .registerWrite reg v => Sys2Proof.Machine.execRegisterWrite reg v s
  | .tagFailure queue seq => Sys2Proof.Machine.execTagFailure queue seq s
  | .scrubComplete target => Sys2Proof.Machine.execScrubComplete target s
  | .ideIntegrityFailure vf => Sys2Proof.Machine.execIdeIntegrityFailure vf s
  | .unsupportedRequest vf msg => Sys2Proof.Machine.execUnsupportedRequest vf msg s
  | .ualinkLaneLoss port lanes => Sys2Proof.Machine.execUalinkLaneLoss port lanes s

end Sys2Proof.Machine
end

