-- ==== Sys2Proof/Machine/Time.lean ====
section
/-! DEFINITION. Time: what the engines, the hub, the trust engine and the links do in a wall cycle, what of the environment's inputs
takes effect, and what a core does before it issues its next unit. `step` is written over these. -/

namespace Sys2Proof.Machine

open Sys2Proof

/-! ### The environment (assumption 1) -/

/-- The rows of the opcode table that the world outside the modelled core brings about: requests of Yard, the host, peers and the
orchestrator, link and power conditions, strikes, and what other cores of the launch do at the hub. The rows of slot words are the
program's, every other event is the machine's own (`dueEvents`). -/
def external (i : Instr) : Bool :=
  match i with
  | .upsetReport _ | .uncorrectableConsumed _ _ _ _ | .yardKill _ | .preemptRequest _ | .coreSelfTest _ _
  | .partitionChange _ _ _ | .gangSliceTimes _ _ _ | .queueDoorbell _ _ | .queueEnable _ _ | .queueDisable _ | .eventRingEnable _ _
  | .registerWrite _ _ | .invalidate _ _ | .migrationRequest _ _ _ _ | .perBankRefresh _ _ _ _ | .activationAlert _ _ _ _
  | .channelRetrain _ _ _ _ _ | .budgetWrite _ | .shareWrite _ _ | .scrubCtx _ | .scrubPages _ _ _ | .scrubComplete _ | .health
  | .debugNonce | .debugUnlock _ | .fabric _ _ | .ready | .fwUpdate _ _ _ | .shedClear | .hostmeta _ _ | .packageReset
  | .vfAssign _ _ | .unbind _ | .functionLevelReset _ | .getVersion _ | .getCapabilities _ | .negotiateAlgorithms _ _
  | .getDigests _ | .getCertificate _ _ | .challenge _ _ _ | .getMeasurements _ _ _ | .keyExchange _ _ | .finish _ _
  | .keyUpdate _ | .heartbeat _ | .endSession _ | .peerAllow _ _ | .lockInterface _ | .startInterface _ | .stopInterface _
  | .getDeviceInterfaceReport _ | .getDeviceInterfaceState _ | .getTdispVersion _ | .getTdispCapabilities _
  | .ideIntegrityFailure _ | .unsupportedRequest _ _ | .hs1 _ _ | .hs2 _ _ | .hs3 _ _ | .bootStage0 _ _ | .bootStage1 _ _
  | .bootStage2 _ _ | .bootStage3 _ | .bootStage4 _ | .bootStage5 _ _ | .railFault | .thermalTrip | .powerLimitThrottle _
  | .pcieLinkDown | .pcieLinkUp _ | .cxlDeviceLoss | .dieLinkRekey _ _ _ _ | .flitRetry _ _ _ _ | .ucieLaneRepair _ _ _ _ _
  | .ucieLinkLoss _ _ | .ualinkPortTrain _ _ _ | .ualinkPortLoss _ | .ualinkLaneLoss _ _ | .podTimeCorrection _
  | .barrierArrival _ _ _ | .emitPublish _ _ _ | .itemRelease _ _ _ => true
  | _ => false

/-- The inputs that reach a package held in reset (R404, R410): its rails, its temperature, its reset. -/
def reachesReset (i : Instr) : Bool := match i with | .packageReset | .railFault | .thermalTrip => true | _ => false

/-- A value with bits upset (R19). -/
def upsetVal (mask : VReg) (v : FVal) : FVal :=
  match v with
  | .x w => .x (w ^^^ mask.setWidth 64)
  | .v b => .v (b ^^^ mask)
  | .vv b c => .vv (b ^^^ mask) c
  | .p b => .p (b ^^^ mask.setWidth 512)
  | v => v

/-- The narrowest scope whose instance holds the core and a writer (R96): a core of this package by its index, or another agent. -/
def nearOf (s : State) (writer : Option Nat) : Scope :=
  match writer with
  | none => .pkg
  | some c => if c / 4 = pkgIndex s / 4 then .quad else if c / 96 = pkgIndex s / 96 then .die else .pkg

/-- Another agent's bytes in memory: at a virtual address of a function, under its key, or by key in a bank or in host memory (R87,
R90, R95). A bank's bytes count as another party's in a rollback (R297). -/
def otherWrite (vf : Option Nat) (a : Nat) (bs : List Byte) (writer : Option Nat) (s : State) : State :=
  let near := nearOf s writer
  if writer = some (pkgIndex s) then s
  else match vf with
  | none =>
    if a < tierBase then markForeign (landKey s a) bs (performWrite none a bs s)
    else if tierKey 2 0 ≤ a then writeTier none near (scopeFar near) a bs s
    else s
  | some n => otherStore n a bs near s

/-- Another core waits at a stage queue (R131, R325). -/
def waitAt (launch queue core : Nat) (emit : Bool) (s : State) : State :=
  if core = pkgIndex s then s
  else updQueue launch queue (fun q => if emit then { q with emitters := joinAsk s.pipe.wall core q.emitters }
    else { q with takers := if q.takers.contains core then q.takers else q.takers ++ [core] }) s

/-- Another core's walk, which fills the die's cache with a function's translation (R347, R348). -/
def otherWalk (vf va : Nat) (s : State) : State :=
  match vfAt s vf with
  | none => s
  | some v => match walkVf v s va with | .ok x => install x s | .error _ => s

/-- The next access of an engine's operation comes 4 wall cycles later: it met a corrected error (R307). -/
def delayOp (id : Nat) (s : State) : State :=
  let late := fun (d : Nat) => max d s.pipe.wall + 4
  updCpy (fun c => { c with
      cmds := c.cmds.map (fun d => if d.id == id then { d with due := late d.due } else d)
      gather := c.gather.map (fun t => if t.id == id then { t with due := late t.due } else t)
      scatter := c.scatter.map (fun t => if t.id == id then { t with due := late t.due } else t) })
    (updMat (fun m => { m with
      mma := m.mma.map (fun o => if o.id == id then { o with due := late o.due } else o)
      load := m.load.map (fun o => if o.id == id then { o with due := late o.due } else o)
      ret := m.ret.map (fun o => if o.id == id then { o with due := late o.due } else o) }) s)

/-- An input of the environment that no row of the opcode table names. -/
def stimulate (i : Stimulus) (s : State) : State :=
  match i with
  | .event _ => s
  | .collective l st sc id k n root core data => if core = pkgIndex s then s else (arrive l st sc id k n root core data s).2
  | .waitItem l q core => waitAt l q core false s
  | .waitEmit l q core => waitAt l q core true s
  | .write vf a bs writer => otherWrite vf a bs writer s
  | .reachedHome key n => reachHome key n s
  | .badLine key kind => updSys (fun m => { m with bad := (key / 64 * 64, kind) :: m.bad.filter (fun b => b.1 != key / 64 * 64) }) s
  | .bankTaken b => updPipe (fun p => { p with banks := b % 96 :: p.banks }) s
  | .corrected .issue => updPipe (fun p => { p with stall := p.stall + 4 }) (errAdd 6 1 s)
  | .corrected (.engine id) => delayOp id (errAdd 6 1 s)
  | .corrected (.line vf) => errAddTo vf 9 1 s
  | .treeFailure vf => treeFails vf s
  | .otherLdl core bank bit ctx fromCore =>
    if fromCore = dieIndex s then s
    else updSys (fun m => { m with lockWaits := m.lockWaits ++ [⟨core, bank, bit, ctx, fromCore, none, 0, false, s.pipe.wall⟩] }) s
  | .otherStul core bank bit ctx fromCore =>
    if fromCore = dieIndex s then s
    else updSys (fun m => { m with locks := m.locks.filter (fun l =>
      !(l.core == core && l.bank == bank && l.bit == bit && l.ownerCtx == ctx && l.ownerCore == fromCore)) }) s
  | .otherWalk vf va => otherWalk vf va s
  | .otherEnd c => otherEnd c s
  | .otherFreed c => otherFreed c s
  | .otherMoved c => otherMoved c s
  | .otherSaved c f => otherSaved c f s
  | .otherRetired c => otherRetired c s
  | .remoteCrew l st cores => setRemote l st cores s
  | .assignQueue q vf => assignQueue q vf s
  | .cxlDevice n => attachCxl n s
  | .systemKernel g code => installKernel g code s
  | .upsetResult id m => updFlight id (fun f => { f with val := upsetVal m f.val }) s
  | .upsetDup id m => updFlight id (fun f => { f with dup := f.dup.map (fun d => (d.1 ^^^ m, d.2)) }) s
  | .upsetShadow id m => updFlight id (fun f => { f with shadow := f.shadow.map (fun w => w ^^^ m) }) s
  | .upsetIssue => updPipe (fun p => { p with upset := true }) s
  | .upsetTile z e m => updMat (updTile z (fun t => { t with entries := modifyAt t.entries e (fun x => x ^^^ m) })) s
  | .upsetWeights b r m => updMat (updBuf b (fun w => { w with cells := w.cells.set r.val (w.cells.get r ^^^ m) })) s

/-! ### Running event meanings -/

/-- The state after an event's meaning. -/
def after (f : State → Host.Outcome State Fault Refusal) (s : State) : State := match f s with | .next t => t | _ => s

/-- An event's meaning for each element of a list. -/
def each {α : Type} (l : List α) (f : α → State → Host.Outcome State Fault Refusal) (s : State) : State :=
  l.foldl (fun t a => after (f a) t) s

/-! ### The engines in a wall cycle -/

/-- Everything that can pass the outbound port in this cycle (R18, R363). -/
def portTick (s : State) : State :=
  let t := (List.range s.out.port.length).foldl (fun t _ => after execPaddockEntry t) s
  if portShort t then updOut (fun o => { o with waiting := true }) t else t

/-- The undo log's mark (R295): at 3,072 entries a forced commit is due, once until the count has fallen below. It comes at the end of the
next bundle (`closePhase`); when that bundle is stalled it follows the last one. In a dry run the run ends instead (R305). -/
def undoMark (s : State) : State :=
  if dryFull s then updRcv (fun r => { r with rerun := r.rerun.map (fun x => { x with ended := true }) }) s
  else
    let full := decide (3072 ≤ undoUsed s)
    let t := updRcv (fun r => { r with undoArmed := full, forceDue := r.forceDue || (full && !r.undoArmed) }) s
    if !t.rcv.forceDue || !(t.pipe.tried || t.rcv.forceWait || t.seq.run != .running) then t
    else if commitRoom t then after execForcedCommitUndoLog t
    else updRcv (fun r => { r with forceWait := true }) t

/-- Whether what a rollback waits for is done (R301, step 4): the M operations and D commands issued before the checkpoint are complete. -/
def settled (s : State) : Bool :=
  s.mat.mma.isNone && s.mat.load.isNone && s.mat.ret.isNone && s.cpy.cmds.all (·.silent)

/-- A rollback's wait ends. -/
def settleTick (s : State) : State := if s.rcv.settling && settled s then updRcv (fun r => { r with settling := false }) s else s

/-- Whether a request has waited long enough at its banks to go first (R161). -/
def urgent (waited : Nat) : Bool := decide (16 ≤ waited)

/-- A request put before the younger ones. -/
def byAge (w : Nat × (State → State)) : List (Nat × (State → State)) → List (Nat × (State → State))
  | [] => [w]
  | x :: r => if w.1 < x.1 then w :: x :: r else x :: byAge w r

/-- The requests of the core's units that have waited 16 cycles or more at the banks, by number, each with its part of the cycle (R161). -/
def urgentWork (s : State) : List (Nat × (State → State)) :=
  (s.pipe.flight.filter (fun f => urgent f.waited)).map (fun f => (f.id, serveSome (fun g => g.id == f.id)))
    ++ (s.mat.mma.toList.filter (fun o => urgent o.waited)).map (fun o => (o.id, mmaStep))
    ++ (s.mat.load.toList.filter (fun o => urgent o.waited)).map (fun o => (o.id, loadStep))
    ++ (s.mat.ret.toList.filter (fun o => urgent o.waited)).map (fun o => (o.id, retireStep))
    ++ ((readyCmds s).filter (fun c => urgent c.waited)).map (fun c => (c.id, actCmd c))
    ++ (s.cpy.gather.toList.filter (fun t => urgent t.waited)).map (fun t => (t.id, gatherStep))
    ++ (s.cpy.scatter.toList.filter (fun t => urgent t.waited)).map (fun t => (t.id, scatterStep))

/-- The units at the banks (R161): requests that have waited 16 cycles, oldest first; then the core's own accesses of path L in issue order;
then M, D and G. -/
def bankWork (s : State) : State :=
  let first := (urgentWork s).foldl (fun l w => byAge w l) []
  let ids := first.map (·.1)
  let later := fun (n : Option Nat) (step : State → State) => if n.any (fun n => ids.contains n) then id else step
  let t := serveSome (fun f => !ids.contains f.id) (first.foldl (fun t w => w.2 t) (startNext (pauseGather s)))
  let t := later (s.mat.ret.map (·.id)) retireStep (later (s.mat.load.map (·.id)) loadStep (later (s.mat.mma.map (·.id)) mmaStep t))
  later (s.cpy.scatter.map (·.id)) scatterStep (later (s.cpy.gather.map (·.id)) gatherStep (cmdStep t))

/-- What the core's units do in the wall cycle that ends. -/
def engines (s : State) : State :=
  let s := after execConfirmRunEnd (after execDryRunEnd (frozenChecks s))
  let s := if s.seq.ctx.isSome then undoMark s else s
  let s := portTick (bankWork s)
  settleTick (writebackStep (handBack (noteEnd (recoverySaveStep (saveStep s)))))

/-- Whether a context runs on the core (R136). -/
def contextRuns (s : State) : Bool :=
  s.seq.ctx.isSome && (match s.seq.run with | .idle | .retired => false | _ => true)

/-- The clocks (R4, R136, R410): the wall cycle, the reference timers at 1,500 MHz, the cycle count, and the waits that are counted
in wall cycles. -/
def clock (s : State) : State :=
  let total := s.pipe.refFrac + 1500
  let n := total / s.links.clockMHz
  let s := updPipe (fun p => { p with
    wall := p.wall + 1, ref := p.ref + n, refFrac := total % s.links.clockMHz, stall := p.stall - 1, done := false, banks := [] }) s
  let s := updLinks (fun l => { l with podTime := l.podTime + n }) (updOut (fun o => { o with portUsed := 0 }) s)
  if contextRuns s then
    updSeq (fun q => { q with
      cycle := q.cycle + 1
      preempt := if s.rcv.rerun.isSome then q.preempt else q.preempt.map (fun p => { p with waited := p.waited + 1 }) }) s
  else s

/-! ### What falls due -/

/-- A released entry is performed (R95, R102). -/
def performEntry (e : OutEntry) (s : State) : Host.Outcome State Fault Refusal :=
  match e.body with
  | .store _ _ _ | .unlock _ _ | .block _ _ _ _ => execStorePerform e.id s
  | .effect (.atomic _ _ _ _ _ _ _) => execAtomicPerform e.id s
  | .effect (.relh _ _ _) => execRelHPerform e.id s
  | .effect (.copyInc _ _ _ _ _) => execCounterIncrementPerform e.id s
  | .effect (.scatterInc _ _ _ _ _) => execCounterIncrementPerform e.id s
  | .effect (.emit l q n _) => execEmitPublish l q n s
  | .effect (.release l q n _) => execItemRelease l q n s
  | .effect (.bar sc i) => execBarrierArrival (pkgIndex s) sc i s
  | .effect (.held c _ _) => execAddintCopyStart c s
  | .effect (.trust _ _ _ _ _ _ _) => execTrustOpPerform e.id s

/-- What leaves the core and comes back to it. -/
def outEvents (s : State) : State :=
  let s := each s.out.paddock (fun _ => execPaddockRelease) s
  let s := each (s.out.pending.map (·.id)) execPendingListRelease s
  let s := each (s.out.leaving.map (·.entry)) performEntry s
  let s := updOut (fun o => { o with seen := o.seen.filter (fun e =>
    (o.port ++ o.paddock.map (·.entry) ++ o.leaving.map (·.entry)).any (fun x => x.id == e.1)) }) s
  let s := each (s.out.refusals.map (·.id)) execTagRefusal s
  let s := each ((s.pipe.flight.filter (arrivable s)).map (·.id)) execResultArrival s
  each (s.trust.done.map (·.id)) execTrustOpComplete s

/-- What the engines complete. -/
def engineEvents (s : State) : State :=
  let s := each [0, 1] execMmaComplete s
  let s := each [0, 1] execMwldComplete s
  let s := each [0, 1] execMwstrmComplete s
  let s := each [0, 1] execMretComplete s
  let ids := s.cpy.cmds.map (·.id)
  let s := each ids execDcollContribution s
  let s := each ids execDcollComplete s
  let s := each ids execCopyComplete s
  let s := each ids execDtinvComplete s
  let s := each ids execDsnapComplete s
  after execScatterComplete (after execScatterEntryTake (after execGatherEntryDeliver s))

/-- The stage queues of the launches that run, with their numbers. -/
def liveQueues (s : State) : List (Nat × Nat) :=
  (s.hub.launches.filter (fun l => l.state == .running)).flatMap (fun l => (List.range l.queues.length).map (fun i => (l.id, i)))

/-- Barriers, stage queues and locks. -/
def syncEvents (s : State) : State :=
  let s := each (s.hub.barriers.map (fun b => (b.scope, b.id))) (fun b => execBarrierComplete b.1 b.2) s
  let s := each (liveQueues s) (fun q => execNextitemHandout q.1 q.2) s
  let s := each (liveQueues s) (fun q => execEmitGrant q.1 q.2) s
  let s := each s.sys.lockWaits (fun _ => execLdlRetry) s
  each s.sys.lockWaits (fun w => execLockGrant w.core w.bank w.bit) s

/-- Recovery, containment, and the generator. -/
def coreEvents (s : State) : State :=
  let s := each (List.range 8) (fun _ => execCheckpointRelease) s
  let s := containStopped s
  let s := if atSystem s then after execYieldOverrun s else s
  after execRngReseed (after execRngRetest (noiseTick s))

/-- A context that waits after a retirement gets a free core of its stage, any of them (R306). -/
def resumeOne (p : Part) (e : Saved) (s : State) : State :=
  let l := coresFor s p e
  let d := drawChoice s
  after (execRecoveryResume e.launch ((l[d.1 % max 1 l.length]?).getD 0)) (if l.length ≤ 1 then s else d.2)

/-- A partition in a wall cycle: switches, slices, launches that became ready (R324, R330, R334, R335). -/
def partEvents (first : Nat) (s : State) : State :=
  let s := after (execSliceBoundary first) (after (execPreemptComplete first) s)
  match partAt s first with
  | none => s
  | some p =>
    let s := (waitingSaved s p).foldl (fun t e => resumeOne p e t) s
    let s := if (waitingSlice s p).any (mayReturn s) then after (execCoreAllocation first) s else s
    match (partAt s first).bind (startable s) with
    | some l => after (execCoreAllocation first) (after (execLaunchStart l.id) s)
    | none => s

/-- The hub. -/
def hubEvents (s : State) : State :=
  let s := updHub (fun h => { h with stopping := h.stopping.filter (fun e => decide (s.pipe.wall ≤ e.2.2)) }) s
  let s := each (s.hub.queues.map (·.q)) handleHead s
  let s := (gangsToSend s).foldl (fun t g => announceGang g.1 g.2 t) s
  let s := each (s.hub.gangs.map (·.gang)) execGangSliceStart s
  let s := each (s.hub.gangs.map (·.gang)) execGangPreemptTimeout s
  let s := after execRebalanceBoundary s
  let s := (s.hub.parts.map (·.first)).foldl (fun t p => partEvents p t) s
  let s := each (s.hub.launches.map (·.id)) execLaunchComplete s
  each (s.hub.queues.map (·.q)) execCounterAddDeferred s

/-- The memory system, translation and the links. -/
def systemEvents (s : State) : State :=
  let s := after execBandwidthBoundary s
  let s := each (s.hub.vfs.map (·.vf)) execInvalidateDone s
  let s := each (s.sys.migrations.map (fun m => (m.vf, word m.va))) (fun m => execMigrationCopy m.1 m.2) s
  let s := each (s.sys.migrations.map (fun m => (m.vf, word m.va))) (fun m => execMigrationSwitch m.1 m.2) s
  let s := after execStartRestart (after execBootStageTimeout s)
  let s := each (s.trust.peers.map (·.peer)) execHandshakeRetry s
  let s := each (s.trust.peers.map (·.peer)) execFabricRekey s
  each (s.links.dieLinks.flatMap (fun k => (k.keys.filter (fun x => decide (2 ^ 63 ≤ x.count + 1))).map (fun x => (k.a, k.b, x.dir, x.slot))))
    (fun e => execDieLinkRekey e.1 e.2.1 e.2.2.1 e.2.2.2) s

/-- Every event of the machine itself, tried once in a wall cycle. -/
def dueEvents (s : State) : State := systemEvents (hubEvents (coreEvents (syncEvents (engineEvents (outEvents s)))))

/-- What happens in one cycle, with the deferred faults that it brings to light delivered in slot order at its end (R142). -/
def withFaults (f : State → State) (s : State) : State :=
  let t := f (updPipe (fun p => { p with found := some [] }) s)
  deliverFaults (t.pipe.found.getD []) (updPipe (fun p => { p with found := none }) t)

/-- The end of a wall cycle and the start of the next. -/
def tick (s : State) : State := withFaults dueEvents (clock (withFaults engines s))

/-! ### Before a unit issues -/

/-- Whether the core's thread may issue: a program that runs, or a handler, also of a program that drains (R135, R145). -/
def runnable (s : State) : Bool :=
  match s.seq.run with
  | .running => true
  | .draining | .moving _ => atSystem s
  | _ => false

/-- Whether YIELD_OVERRUN is to be taken at program level: its bound has passed, or it was held while a handler ran (R148). -/
def overrunDue (s : State) : Bool :=
  match s.seq.preempt with
  | some p => !p.forced && s.seq.run == .running && !atSystem s && s.rcv.rerun.isNone
      && (s.seq.heldOverrun || decide (s.seq.yieldbound.toNat ≤ p.waited))
  | none => false

/-- Whether a voluntary pre-emption is due (R148). -/
def yieldDue (s : State) : Bool :=
  match s.seq.preempt with
  | some p => !p.forced && s.seq.run == .running && !atSystem s && s.rcv.rerun.isNone && yieldPoint s
  | none => false

/-- Whether a slot's operation needs the undo log (R295): it writes a register, or belongs to an engine that writes state. DESIGN CHOICE
(98): while the log is full, a bundle with such an operation waits, whichever pieces it would write. -/
def needsLog (sl : Slot) (i : Instr) : Bool :=
  (resources i).any (· != .x 0) || (match sl, i with
    | _, .nop _ => false
    | .l, _ | .m, _ | .d, _ => true
    | _, _ => false)

/-- Whether the next unit needs the undo log. -/
def nextNeedsLog (s : State) : Bool :=
  match fetch s with
  | .bundle g => (bundleOps g).any (fun o => needsLog o.1 o.2)
  | _ => false

/-- Whether something outside the next unit holds it up: the bytes of a CTXSAVE (R146), a barrier wait (R129), refill copies (R309),
a rollback's wait (R301), a forced commit without room, or a full undo log that it needs (R295). -/
def heldUp (s : State) : Bool :=
  saveWaits s || (if atSystem s then s.seq.handlerWait.isSome else s.seq.barWait.isSome) || s.cpy.cmds.any (·.silent)
    || s.rcv.settling || s.rcv.forceWait || (decide (4096 ≤ undoUsed s) && nextNeedsLog s)

/-- The results for which the next Ubrov record waits (R59): all of the program's but those that another event brings, whose readers stall. -/
def recordWaits (s : State) : List Flight :=
  if (records s).isNone then []
  else s.pipe.flight.filter (fun f => !f.sys && !(match f.val with | .awaited _ => true | _ => false))

/-- A cycle in which a Ubrov program waits for the record before to take its whole effect (R59): contract time goes on while a result has its
landing cycle to come, and no unit issues. Timing is no part of Ubrov's semantics (assumption 86). -/
def waitCycle (s : State) : State :=
  if (recordWaits s).all (·.late) then updPipe (fun p => { p with done := true }) s
  else
    let l := landing s
    settle l.2.1 l.2.2 (updPipe (fun p => { p with issue := p.issue + 1, done := true }) l.1)

/-- What the core does instead of issuing its next unit, if anything. A held YIELD_OVERRUN goes before held faults, and these
before the first resumed bundle (R142, R148). -/
def beforeIssue (s : State) : Option State :=
  if !runnable s || decide (0 < s.pipe.stall) then some (updPipe (fun p => { p with done := true }) s)
  else if overrunDue s then some (after execYieldOverrun s)
  else match (if atSystem s then none else s.seq.held.head?) with
    | some f => some (after (execDeferredTrap f) s)
    | none =>
      if yieldDue s then some (after execVoluntaryPreempt s)
      else if heldUp s then some (updPipe (fun p => { p with done := true, tried := true }) s)
      else if !(recordWaits s).isEmpty then some (waitCycle s)
      else none

/-! ### Issuing a unit -/

/-- The slots of an open bundle in their order, each by the meaning of its operation. -/
def runOps (run : Instr → State → Host.Outcome State Fault Refusal) : List (Slot × Instr) → State → Host.Outcome State Fault Refusal
  | [], s => .next s
  | o :: r, s => match run o.2 s with
    | .next t => runOps run r t
    | .fault f => .fault f
    | .refused f => .refused f

/-- The operations whose branch condition or address the shadow ALU recomputes at issue (R293). -/
def shadowsIssue (i : Instr) : Bool :=
  match i with
  | .beq _ | .bne _ | .blt _ | .bge _ | .bltu _ | .bgeu _ | .lb _ | .lh _ | .lw _ | .ld _ | .lbu _ | .lhu _ | .lwu _ | .sb _ | .sh _ | .sw _
  | .sd _ | .ldl _ | .stul _ | .vld _ | .vst _ | .vldb _ | .vstp _ | .vldx _ | .vlds _ | .vsts _ | .sld _ | .sst _ => true
  | _ => false

/-- The open bundle, with an upset of the shadow ALU that its branch or an address of it meets (R293). -/
def openBundle (g : Granule) (s : State) : State :=
  updCyc (fun c => { c with shadow := s.pipe.upset && s.seq.gmode && !atSystem s && (bundleOps g).any (fun o => shadowsIssue o.2) }) (openCycle s)

/-- A bundle (R44, R51, R142): its checks, its slots' operations, and its end. -/
def runBundle (run : Instr → State → Host.Outcome State Fault Refusal) (g : Granule) (s : State) : Host.Outcome State Fault Refusal :=
  match bundleTrap s g with
  | some t => .next (trapCycle t s)
  | none => match runOps run (bundleOps g) (openBundle g s) with
    | .next t => .next (finish s t)
    | .fault f => .fault f
    | .refused f => .refused f

/-- The unit at the pc (R25, R27, R29). -/
def runUnit (run : Instr → State → Host.Outcome State Fault Refusal) (s : State) : Host.Outcome State Fault Refusal :=
  match fetch s with
  | .padding => run (.token 0 0 false) s
  | .token t => run (decodeToken t) s
  | .bundle g => runBundle run g s
  | .inside => .next (insideTrap s)
  | .pastEnd => .next (pastEndTrap s)

/-! ### One step -/

/-- An input of the environment takes effect. A package held in reset is reached by its rails, its temperature and its reset alone
(R404, R410). -/
def takeInput (run : Instr → State → Host.Outcome State Fault Refusal) (i : Stimulus) (s : State) : Host.Outcome State Fault Refusal :=
  match i with
  | .event e => if external e && (s.links.holding.isNone || reachesReset e) then run e s else .next s
  | i => .next (if s.links.holding.isNone then stimulate i s else s)

/-- A step without an input: time goes on once the core has had its turn in the wall cycle, else the core takes it. -/
def coreStep (run : Instr → State → Host.Outcome State Fault Refusal) (s : State) : Host.Outcome State Fault Refusal :=
  if !s.links.clocks && s.links.holding.isNone && s.agenda.isEmpty then .fault .clocksStopped
  else if s.pipe.done then .next (tick s)
  else match beforeIssue s with
    | some t => .next t
    | none => runUnit run s

/-- Whether an input waits for the core's own turn in the wall cycle: of NEXTITEMs in one cycle a core with a higher index comes later
(R329). -/
def afterCore (i : Stimulus) (s : State) : Bool :=
  match i with
  | .otherMoved c => decide (pkgIndex s < c) && !s.pipe.done
  | _ => false

/-- One step over the meanings of the instructions: the oldest input whose wall cycle has come, or the machine's own. -/
def stepWith (run : Instr → State → Host.Outcome State Fault Refusal) (s : State) : Host.Outcome State Fault Refusal :=
  match s.agenda with
  | (w, i) :: r => if w ≤ s.pipe.wall ∧ afterCore i s = false then takeInput run i { s with agenda := r } else coreStep run s
  | [] => coreStep run s

/-! ### A unit placed for fetching -/

/-- A bundle that holds one word in a slot and NOPs elsewhere (R25, R31). -/
def oneWord (sl : Slot) (w : Nat) : Granule :=
  BitVec.ofNat 256 (w % 2 ^ 32 * 2 ^ (32 * slotNo sl) + (match sl with | .s => 0 | _ => 0x13))

/-- The granule in which an instruction stands alone: a slot word, in the first slot that decodes it, in a full bundle; a token as
token 0 of a block that is padding otherwise. -/
def unitFor (nbits w : Nat) : Granule :=
  if nbits = 16 then BitVec.ofNat 256 (w % 2 ^ 16) else oneWord ((tableSlot (w % 2 ^ 32)).getD .s) w

/-- The core about to issue the unit at the start of the code store, which is the granule given. -/
def placeUnit (g : Granule) (s : State) : State :=
  { s with
    seq := { s.seq with pc := 0, reps := 0, token := none, run := .running, held := [], preempt := none, barWait := none, handlerWait := none }
    code := s.code.set 0 g
    ubrov := none
    pipe := { s.pipe with done := false, stall := 0 }
    rcv := { s.rcv with ckpts := [], saveAcc := none, settling := false, forceWait := false, forceDue := false }
    cpy := { s.cpy with cmds := s.cpy.cmds.filter (fun c => !c.silent) }
    links := { s.links with clocks := true }
    agenda := []
    cyc := none }

end Sys2Proof.Machine
end

