-- ==== Sys2Proof/Machine/Step.lean ====
section
/-! DEFINITION. One step of the machine, and an instruction placed where the next step fetches it. -/

namespace Sys2Proof.Machine

open Sys2Proof

/-- One step: an input of the environment, a wall cycle's end, or what the core does in its turn, by the meanings of `exec`. -/
def step (s : State) : Host.Outcome State Fault Refusal := stepWith exec s

/-- The machine with an instruction of `nbits` bits, numbered as the opcode table numbers them, where the next step fetches: at the
start of the code store, the core running at its level with nothing that holds it up. It stands for the load of a program
(R321, R324). -/
def State.withFetchWord (s : State) (nbits w : Nat) : State := placeUnit (unitFor nbits w) s

end Sys2Proof.Machine
end

