-- ==== Sys2Proof/WellFormed.lean ====
section
/-! DEFINITION. Which instructions the encodings admit (R42): what the fields' types leave open. An event has no encoding; what
it names must exist for it to happen, which is its meaning's business, so every event is well formed. -/

namespace Sys2Proof

/-- Zeroing needs a predicate (R42). -/
def wfPred (pg : Option (Fin 48)) (zm : Bool) : Bool := pg.isSome || !zm

/-- dup stands in V1 words alone (R42). -/
def wfDup (e : VEng) (dup : Bool) : Bool := e == .v1 || !dup

/-- The rules of a V3R word (R42). -/
def wfV3R (e : VEng) (o : V3R) : Bool := v3rLegal o.pg o.zm o.q o.vs2.val && wfDup e o.dup

/-- The field rules of R42 for every operation, and what its encoding cannot hold. -/
def wellFormed : Instr → Bool
  | .slliw o => decide (o.sh.val < 32)
  | .srliw o => decide (o.sh.val < 32)
  | .sraiw o => decide (o.sh.val < 32)
  | .loopi n _ => n != 0
  | .nop sl => sl != .s
  | .vpush _ q _ => decide (2 ≤ q.val)
  | .hset h _ => decide (h.val ≠ 15)
  | .hclr h => decide (h.val ≠ 15)
  | .vadd e o => wfV3R e o
  | .vsub e o => wfV3R e o
  | .vaddsI e o => wfV3R e o
  | .vaddsN e o => wfV3R e o
  | .vsubsI e o => wfV3R e o
  | .vsubsN e o => wfV3R e o
  | .vmul e o => wfV3R e o
  | .vmulhI e o => wfV3R e o
  | .vmulhN e o => wfV3R e o
  | .vminI e o => wfV3R e o
  | .vminN e o => wfV3R e o
  | .vmaxI e o => wfV3R e o
  | .vmaxN e o => wfV3R e o
  | .vabs e o => wfPred o.pg o.zm && wfDup e o.dup
  | .vnot e o => wfPred o.pg o.zm && wfDup e o.dup
  | .vsll e o => wfV3R e o
  | .vsrl e o => wfV3R e o
  | .vsra e o => wfV3R e o
  | .vand e o => wfV3R e o
  | .vor e o => wfV3R e o
  | .vxor e o => wfV3R e o
  | .vandn e o => wfV3R e o
  | .vsel e o => wfV3R e o
  | .vredI e o => wfPred o.pg o.zm && wfDup e o.dup
  | .vredN e o => wfPred o.pg o.zm && wfDup e o.dup
  | .vredF e o => wfPred o.pg o.zm && wfDup e o.dup
  | .vredBf e o => wfPred o.pg o.zm && wfDup e o.dup
  | .vfadd e o => wfV3R e o
  | .vfsub e o => wfV3R e o
  | .vfmul e o => wfV3R e o
  | .vfma e o => wfV3R e o
  | .vfms e o => wfV3R e o
  | .vfnma e o => wfV3R e o
  | .vfmin e o => wfV3R e o
  | .vfmax e o => wfV3R e o
  | .vbfadd e o => wfV3R e o
  | .vbfsub e o => wfV3R e o
  | .vbfmul e o => wfV3R e o
  | .vbfma e o => wfV3R e o
  | .vbfms e o => wfV3R e o
  | .vbfnma e o => wfV3R e o
  | .vbfmin e o => wfV3R e o
  | .vbfmax e o => wfV3R e o
  | .vmov e o => wfPred o.pg o.zm && wfDup e o.dup
  | .vcvt _ o => vcvLegal o.fin o.fout o.vd.val o.vs1.val
  | .vunp3 _ _ _ f _ _ => f == .i8 || f == .i16 || f == .i32
  | .vpack e o => wfV3R e o
  | .exp2 o => wfPred o.pg o.zm
  | .log2 o => wfPred o.pg o.zm
  | .rcp o => wfPred o.pg o.zm
  | .rsqrt o => wfPred o.pg o.zm
  | .sqrt o => wfPred o.pg o.zm
  | .fDiv o => v3rLegal o.pg o.zm o.q o.vs2.val
  | .tanh o => wfPred o.pg o.zm
  | .wupd o => v3rLegal o.pg o.zm o.q o.vs2.val
  | .wmrg o => v3rLegal o.pg o.zm o.q o.vs2.val
  | .wfin o => v3rLegal o.pg o.zm o.q o.vs2.val
  | .bnet o => v3rLegal o.pg false o.q o.vs2.val
  | .bmm8 o => v3rLegal o.pg o.zm o.q o.vs2.val
  | .pdep o => v3rLegal o.pg o.zm o.q o.vs2.val
  | .pext o => v3rLegal o.pg o.zm o.q o.vs2.val
  | .bperm o => v3rLegal o.pg o.zm o.q o.vs2.val
  | .vtrn o => wfPred o.pg o.zm
  | .mwld o => packAllows o.fmt o.pack
  | .mwstrm o => packAllows o.fmt o.pack
  | .mret o => retFmt o.fout
  | .dcoll o => o.scope == .pkg || o.scope == .pod
  | .kalu _ d _ _ => decide (d.val ≠ 7)
  | .unassignedOpcode sl w => (decodeSlot sl w.toNat).isNone
  | .illegalToken t => t.toNat % 2 == 1
  | .lui _ _ | .auipc _ _ | .jal _ _ | .jalr _ | .beq _ | .bne _ | .blt _ | .bge _ | .bltu _ | .bgeu _ | .lb _
  | .lh _ | .lw _ | .ld _ | .lbu _ | .lhu _ | .lwu _ | .sb _ | .sh _ | .sw _ | .sd _ | .addi _ | .slti _ | .sltiu _
  | .xori _ | .ori _ | .andi _ | .slli _ | .srli _ | .srai _ | .addiw _ | .add _ | .sub _ | .sll _ | .slt _ | .sltu _
  | .xor _ | .srl _ | .sra _ | .or _ | .and _ | .mul _ | .mulh _ | .mulhsu _ | .mulhu _ | .div _ | .divu _ | .rem _
  | .remu _ | .addw _ | .subw _ | .sllw _ | .srlw _ | .sraw _ | .mulw _ | .divw _ | .divuw _ | .remw _ | .remuw _
  | .fenceS _ | .ecall | .ebreak | .csrrw _ _ _ | .csrrs _ _ _ | .csrrc _ _ _ | .csrrwi _ _ _ | .csrrsi _ _ _
  | .csrrci _ _ _ | .loopr _ _ | .lbrk | .endOp | .qfeat _ _ | .pcommit | .pswap | .waitge _ _ | .evpop _ | .bar _ _
  | .nextitem _ | .emit _ _ | .ldl _ | .stul _ | .amoaddW _ | .amoaddD _ | .amoandW _ | .amoandD _ | .amoorW _
  | .amoorD _ | .amoxorW _ | .amoxorD _ | .amominW _ | .amominD _ | .amomaxW _ | .amomaxD _ | .amominnW _
  | .amominnD _ | .amomaxnW _ | .amomaxnD _ | .amoswapW _ | .amoswapD _ | .casW _ | .casD _ | .tret | .ctxsave _
  | .ctxload _ | .kgen _ | .krot _ _ | .seal _ _ | .unseal _ _ | .scrub _ _ | .mclrchk _ _ | .token _ _ _ | .vld _
  | .vst _ | .vldb _ | .vstp _ | .vldx _ | .vlds _ | .vsts _ | .sld _ | .sst _ | .hget _ _ _ | .fence _ _ | .acqH _
  | .relH _ | .errfence _ _ | .vcmpI _ _ | .vcmpN _ _ | .vcmpF _ _ | .vcmpBf _ _ | .vbcast _ _ _ | .vbcx _ _ _
  | .vsetshape _ _ | .pand _ _ | .por _ _ | .pxor _ _ | .pnot _ _ _ | .pset _ _ _ | .pcount _ _ _ | .bnld _ _
  | .mma _ | .mzero _ | .mwswap | .mstat _ _ | .dlvl _ _ _ _ | .dcopyCopy _ | .dcopyFill _ | .dcopyDecode _
  | .dcopyAddint _ | .dcopyClone _ | .dpad _ | .dgcfg _ _ _ | .dgidx _ | .dsidx _ | .dtinv | .dsnap _ | .kchkX _ _ _
  | .kchkV _ _ | .kchkP _ _ | .ksig _ | .krd _ _ => true
  | .forcedCommit | .forcedCommitUndoLog | .barrierArrival _ _ _ | .barrierComplete _ _ | .nextitemHandout _ _
  | .emitGrant _ _ | .emitPublish _ _ _ | .itemRelease _ _ _ | .lockGrant _ _ _ | .ldlRetry | .atomicPerform _
  | .trustOpPerform _ | .trustOpComplete _ | .relHPerform _ | .mmaComplete _ | .mwldComplete _ | .mwstrmComplete _
  | .mretComplete _ | .addintCopyStart _ | .copyComplete _ | .gatherEntryDeliver | .scatterEntryTake
  | .scatterComplete | .dtinvComplete _ | .dcollContribution _ | .dcollComplete _ | .dsnapComplete _ | .resultLanding
  | .resultArrival _ | .deferredTrap _ | .yardKill _ | .paddockEntry | .paddockRelease | .pendingListRelease _
  | .storePerform _ | .counterIncrementPerform _ | .tagRefusal _ | .upsetReport _ | .checkpointRelease | .dryRunEnd
  | .confirmRunEnd | .recoveryResume _ _ | .uncorrectableConsumed _ _ _ _ | .preemptRequest _ | .voluntaryPreempt
  | .yieldOverrun | .preemptComplete _ | .backgroundWriteback _ | .coreSelfTest _ _ | .queueDoorbell _ _
  | .queueEnable _ _ | .queueDisable _ | .noOp _ _ | .launch _ _ _ | .counterAdd _ _ _ _ _ | .counterAddDeferred _
  | .resync _ _ | .otherTypeEntry _ _ _ | .launchStart _ | .launchComplete _ | .eventRingEnable _ _
  | .rebalanceBoundary | .coreAllocation _ | .sliceBoundary _ | .partitionChange _ _ _ | .gangSliceTimes _ _ _
  | .gangSliceStart _ | .gangPreemptTimeout _ | .invalidate _ _ | .invalidateDone _ | .migrationRequest _ _ _ _
  | .migrationCopy _ _ | .migrationSwitch _ _ | .perBankRefresh _ _ _ _ | .activationAlert _ _ _ _
  | .channelRetrain _ _ _ _ _ | .bandwidthBoundary | .budgetWrite _ | .shareWrite _ _ | .scrubCtx _
  | .scrubPages _ _ _ | .health | .debugNonce | .debugUnlock _ | .fabric _ _ | .ready | .fwUpdate _ _ _ | .shedClear
  | .hostmeta _ _ | .vfAssign _ _ | .unbind _ | .rngRetest | .rngReseed | .getVersion _ | .getCapabilities _
  | .negotiateAlgorithms _ _ | .getDigests _ | .getCertificate _ _ | .challenge _ _ _ | .getMeasurements _ _ _
  | .keyExchange _ _ | .finish _ _ | .keyUpdate _ | .heartbeat _ | .endSession _ | .peerAllow _ _ | .lockInterface _
  | .startInterface _ | .stopInterface _ | .getDeviceInterfaceReport _ | .getDeviceInterfaceState _
  | .getTdispVersion _ | .getTdispCapabilities _ | .hs1 _ _ | .hs2 _ _ | .hs3 _ _ | .handshakeRetry _
  | .fabricRekey _ | .dieLinkRekey _ _ _ _ | .flitRetry _ _ _ _ | .packageReset | .bootStage0 _ _ | .bootStage1 _ _
  | .bootStage2 _ _ | .bootStage3 _ | .bootStage4 _ | .bootStage5 _ _ | .bootStageTimeout | .startRestart
  | .railFault | .thermalTrip | .powerLimitThrottle _ | .functionLevelReset _ | .ucieLaneRepair _ _ _ _ _
  | .ucieLinkLoss _ _ | .pcieLinkDown | .pcieLinkUp _ | .cxlDeviceLoss | .ualinkPortTrain _ _ _ | .ualinkPortLoss _
  | .podTimeCorrection _ | .registerWrite _ _ | .tagFailure _ _ | .scrubComplete _ | .ideIntegrityFailure _
  | .unsupportedRequest _ _ | .ualinkLaneLoss _ _ => true

end Sys2Proof
end

