-- ==== Sys2Proof/Laws/Encoding.lean ====
section
/-! SUPPORT. What each encoding form holds: the fields that decoding reads from an encoded word are those that were put in. -/

namespace Sys2Proof.Laws

open Sys2Proof

/-! ### Codes of enumerations -/

theorem one_lt (b : Bool) : one b < 2 := by cases b <;> decide
theorem pgCode_lt (p : Option (Fin 48)) : pgCode p < 64 := by cases p <;> simp [pgCode]; omega
theorem pgOf_pgCode (p : Option (Fin 48)) : pgOf (pgCode p) = some p := by cases p <;> simp [pgCode, pgOf]
theorem prOf_val (p : Fin 48) : prOf p.val = some p := by simp [prOf]
theorem scopeCode_lt (s : Scope) : scopeCode s < 8 := by cases s <;> decide
theorem scopeOf_scopeCode (s : Scope) : scopeOf (scopeCode s) = some s := by cases s <;> rfl
theorem fmtCode_lt (f : Fmt) : fmtCode f < 16 := by cases f <;> decide
theorem fmtOf_fmtCode (f : Fmt) : fmtOf (fmtCode f) = some f := by cases f <;> rfl
theorem rndCode_lt (r : Rnd) : rndCode r < 8 := by cases r <;> decide
theorem rndOf_rndCode (r : Rnd) : rndOf (rndCode r) = some r := by cases r <;> rfl
theorem condCode_lt (c : Cond) : condCode c < 8 := by cases c <;> decide
theorem condOf_condCode (c : Cond) : condOf (condCode c) = some c := by cases c <;> rfl
theorem redCode_lt (r : RedOp) : redCode r < 4 := by cases r <;> decide
theorem redOf_redCode (r : RedOp) : redOf (redCode r) = some r := by cases r <;> rfl
theorem packCode_lt (p : Pack) : packCode p < 4 := by cases p <;> decide
theorem packOf_packCode (p : Pack) : packOf (packCode p) = some p := by cases p <;> rfl
theorem mmodeCode_lt (m : MMode) : mmodeCode m < 8 := by cases m <;> decide
theorem mmodeOf_mmodeCode (m : MMode) : mmodeOf (mmodeCode m) = some m := by cases m <;> rfl
theorem collKindCode_lt (k : CollKind) : collKindCode k < 4 := by cases k <;> decide
theorem collKindOf_collKindCode (k : CollKind) : collKindOf (collKindCode k) = k := by cases k <;> rfl
theorem kopCode_lt (o : KOp) : kopCode o < 16 := by cases o <;> decide
theorem kopOf_kopCode (o : KOp) : kopOf (kopCode o) = some o := by cases o <;> rfl
theorem fenceKindCode_lt (k : FenceKind) : fenceKindCode k < 4 := by cases k <;> decide
theorem fenceKindOf_fenceKindCode (k : FenceKind) : fenceKindOf (fenceKindCode k) = k := by cases k <;> rfl
theorem ksrcBit_lt (a : KSrc) : ksrcBit a < 2 := by cases a <;> simp [ksrcBit]
theorem ksrcNum_lt (a : KSrc) : ksrcNum a < 32 := by cases a <;> simp [ksrcNum]; omega
theorem ksrc_code (a : KSrc) : ksrc (ksrcBit a) (ksrcNum a) = some a := by cases a <;> simp [ksrc, ksrcBit, ksrcNum]

/-- A field of a sum: what lies below it is a remainder, what lies above it is a multiple. -/
theorem bits_mid {w lo n hi mid low P Q : Nat} (hP : P = 2 ^ (lo + n)) (hQ : Q = 2 ^ lo) (h : w = hi * P + mid * Q + low)
    (hl : low < Q) (hm : mid < 2 ^ n) : bits w lo n = mid := by
  subst h hP hQ
  have e : hi * 2 ^ (lo + n) + mid * 2 ^ lo + low = (hi * 2 ^ n + mid) * 2 ^ lo + low := by rw [pow_add]; ring
  rw [bits, e, Nat.add_comm, Nat.add_mul_div_right _ _ (by positivity), Nat.div_eq_of_lt hl, Nat.zero_add, Nat.add_comm,
    Nat.add_mul_mod_self_right, Nat.mod_eq_of_lt hm]

/-- The topmost field of a sum. -/
theorem bits_top {w lo n mid low Q : Nat} (hQ : Q = 2 ^ lo) (h : w = mid * Q + low) (hl : low < Q) (hm : mid < 2 ^ n) :
    bits w lo n = mid := bits_mid (hi := 0) rfl hQ (by rw [h]; simp) hl hm

/-- A flag's bit as a Boolean. -/
theorem flag_of {w lo : Nat} {b : Bool} (h : bits w lo 1 = one b) : flag w lo = b := by
  rw [flag, h]; cases b <;> rfl

theorem reg_of {w lo : Nat} {r : Fin 32} (h : bits w lo 5 = r.val) : reg w lo = r := by simp [reg, h]
theorem hnd_of {w lo : Nat} {r : Fin 16} (h : bits w lo 4 = r.val) : hnd w lo = r := by simp [hnd, h]
theorem bits_lt (w lo n : Nat) : bits w lo n < 2 ^ n := Nat.mod_lt _ (by positivity)
theorem bv_of {w lo n : Nat} {v : BitVec n} (h : bits w lo n = v.toNat) : BitVec.ofNat n (bits w lo n) = v := by simp [h]
theorem fin_of {n k : Nat} [NeZero n] {v : Fin n} (h : k = v.val) : Fin.ofNat n k = v := by simp [h]

/-! ### S forms -/

/-- R-type words. -/
theorem rType_encR {base op f3 f7 m : Nat} (o : RType) (h1 : m < 2) (h2 : op < 32) (h3 : f3 < 8) (h4 : f7 < 128)
    (hb : base = 1 + 2 * m + 4 * op + 4096 * f3 + 33554432 * f7) :
    bits (encR base o) 0 1 = 1
      ∧ bits (encR base o) 2 5 = op
      ∧ bits (encR base o) 12 3 = f3
      ∧ bits (encR base o) 25 7 = f7
      ∧ rType (encR base o) = o
      ∧ (encR base o) < 2 ^ 32 := by
  have u0 := o.rd.isLt
  have u1 := o.rs1.isLt
  have u2 := o.rs2.isLt
  obtain ⟨w, hw⟩ : ∃ w, w = encR base o := ⟨_, rfl⟩
  rw [← hw]
  unfold encR at hw
  have b0 : bits w 7 5 = o.rd.val := bits_mid (hi := f3 + f7 * 8192 + (o.rs1.val) * 8 + (o.rs2.val) * 256) (low := 1 + m * 2 + op * 4) (P := 4096) (Q := 128) (by norm_num) (by norm_num)
      (by rw [hw, hb]; ring) (by clear hw; omega) (by omega)
  have b1 : bits w 15 5 = o.rs1.val := bits_mid (hi := f7 * 32 + (o.rs2.val)) (low := 1 + m * 2 + op * 4 + f3 * 4096 + (o.rd.val) * 128) (P := 1048576) (Q := 32768) (by norm_num) (by norm_num)
      (by rw [hw, hb]; ring) (by clear hw; omega) (by omega)
  have b2 : bits w 20 5 = o.rs2.val := bits_mid (hi := f7) (low := 1 + m * 2 + op * 4 + f3 * 4096 + (o.rd.val) * 128 + (o.rs1.val) * 32768) (P := 33554432) (Q := 1048576) (by norm_num) (by norm_num)
      (by rw [hw, hb]; ring) (by clear hw; omega) (by omega)
  refine ⟨?_, ?_, ?_, ?_, ?_, ?_⟩
  · exact bits_mid (hi := m + op * 2 + f3 * 2048 + f7 * 16777216 + (o.rd.val) * 64 + (o.rs1.val) * 16384 + (o.rs2.val) * 524288) (low := 0) (P := 2) (Q := 1) (by norm_num) (by norm_num)
      (by rw [hw, hb]; ring) (by clear hw; omega) (by omega)
  · exact bits_mid (hi := f3 * 32 + f7 * 262144 + (o.rd.val) + (o.rs1.val) * 256 + (o.rs2.val) * 8192) (low := 1 + m * 2) (P := 128) (Q := 4) (by norm_num) (by norm_num)
      (by rw [hw, hb]; ring) (by clear hw; omega) (by omega)
  · exact bits_mid (hi := f7 * 1024 + (o.rs1.val) + (o.rs2.val) * 32) (low := 1 + m * 2 + op * 4 + (o.rd.val) * 128) (P := 32768) (Q := 4096) (by norm_num) (by norm_num)
      (by rw [hw, hb]; ring) (by clear hw; omega) (by omega)
  · exact bits_top (low := 1 + m * 2 + op * 4 + f3 * 4096 + (o.rd.val) * 128 + (o.rs1.val) * 32768 + (o.rs2.val) * 1048576) (Q := 33554432) (by norm_num)
      (by rw [hw, hb]; ring) (by clear hw; omega) (by omega)
  · simp [rType, reg_of b0, reg_of b1, reg_of b2]
  · omega

/-- I-type words. -/
theorem iType_encI {base op f3 m : Nat} (o : IType) (h1 : m < 2) (h2 : op < 32) (h3 : f3 < 8)
    (hb : base = 1 + 2 * m + 4 * op + 4096 * f3) :
    bits (encI base o) 0 1 = 1
      ∧ bits (encI base o) 2 5 = op
      ∧ bits (encI base o) 12 3 = f3
      ∧ iType (encI base o) = o
      ∧ (encI base o) < 2 ^ 32 := by
  have u0 := o.rd.isLt
  have u1 := o.rs1.isLt
  have u2 := o.imm.isLt
  obtain ⟨w, hw⟩ : ∃ w, w = encI base o := ⟨_, rfl⟩
  rw [← hw]
  unfold encI at hw
  have b0 : bits w 7 5 = o.rd.val := bits_mid (hi := f3 + (o.rs1.val) * 8 + (o.imm.toNat) * 256) (low := 1 + m * 2 + op * 4) (P := 4096) (Q := 128) (by norm_num) (by norm_num)
      (by rw [hw, hb]; ring) (by clear hw; omega) (by omega)
  have b1 : bits w 15 5 = o.rs1.val := bits_mid (hi := (o.imm.toNat)) (low := 1 + m * 2 + op * 4 + f3 * 4096 + (o.rd.val) * 128) (P := 1048576) (Q := 32768) (by norm_num) (by norm_num)
      (by rw [hw, hb]; ring) (by clear hw; omega) (by omega)
  have b2 : bits w 20 12 = o.imm.toNat := bits_top (low := 1 + m * 2 + op * 4 + f3 * 4096 + (o.rd.val) * 128 + (o.rs1.val) * 32768) (Q := 1048576) (by norm_num)
      (by rw [hw, hb]; ring) (by clear hw; omega) (by omega)
  refine ⟨?_, ?_, ?_, ?_, ?_⟩
  · exact bits_mid (hi := m + op * 2 + f3 * 2048 + (o.rd.val) * 64 + (o.rs1.val) * 16384 + (o.imm.toNat) * 524288) (low := 0) (P := 2) (Q := 1) (by norm_num) (by norm_num)
      (by rw [hw, hb]; ring) (by clear hw; omega) (by omega)
  · exact bits_mid (hi := f3 * 32 + (o.rd.val) + (o.rs1.val) * 256 + (o.imm.toNat) * 8192) (low := 1 + m * 2) (P := 128) (Q := 4) (by norm_num) (by norm_num)
      (by rw [hw, hb]; ring) (by clear hw; omega) (by omega)
  · exact bits_mid (hi := (o.rs1.val) + (o.imm.toNat) * 32) (low := 1 + m * 2 + op * 4 + (o.rd.val) * 128) (P := 32768) (Q := 4096) (by norm_num) (by norm_num)
      (by rw [hw, hb]; ring) (by clear hw; omega) (by omega)
  · simp [iType, reg_of b0, reg_of b1, b2]
  · omega

/-- Shift-immediate words of six bits. -/
theorem shType_encSh {base op f3 g m : Nat} (o : ShType) (h1 : m < 2) (h2 : op < 32) (h3 : f3 < 8) (h4 : g < 64)
    (hb : base = 1 + 2 * m + 4 * op + 4096 * f3 + 67108864 * g) :
    bits (encSh base o) 0 1 = 1
      ∧ bits (encSh base o) 2 5 = op
      ∧ bits (encSh base o) 12 3 = f3
      ∧ bits (encSh base o) 26 6 = g
      ∧ shType (encSh base o) = o
      ∧ (encSh base o) < 2 ^ 32 := by
  have u0 := o.rd.isLt
  have u1 := o.rs1.isLt
  have u2 := o.sh.isLt
  obtain ⟨w, hw⟩ : ∃ w, w = encSh base o := ⟨_, rfl⟩
  rw [← hw]
  unfold encSh at hw
  have b0 : bits w 7 5 = o.rd.val := bits_mid (hi := f3 + g * 16384 + (o.rs1.val) * 8 + (o.sh.val) * 256) (low := 1 + m * 2 + op * 4) (P := 4096) (Q := 128) (by norm_num) (by norm_num)
      (by rw [hw, hb]; ring) (by clear hw; omega) (by omega)
  have b1 : bits w 15 5 = o.rs1.val := bits_mid (hi := g * 64 + (o.sh.val)) (low := 1 + m * 2 + op * 4 + f3 * 4096 + (o.rd.val) * 128) (P := 1048576) (Q := 32768) (by norm_num) (by norm_num)
      (by rw [hw, hb]; ring) (by clear hw; omega) (by omega)
  have b2 : bits w 20 6 = o.sh.val := bits_mid (hi := g) (low := 1 + m * 2 + op * 4 + f3 * 4096 + (o.rd.val) * 128 + (o.rs1.val) * 32768) (P := 67108864) (Q := 1048576) (by norm_num) (by norm_num)
      (by rw [hw, hb]; ring) (by clear hw; omega) (by omega)
  refine ⟨?_, ?_, ?_, ?_, ?_, ?_⟩
  · exact bits_mid (hi := m + op * 2 + f3 * 2048 + g * 33554432 + (o.rd.val) * 64 + (o.rs1.val) * 16384 + (o.sh.val) * 524288) (low := 0) (P := 2) (Q := 1) (by norm_num) (by norm_num)
      (by rw [hw, hb]; ring) (by clear hw; omega) (by omega)
  · exact bits_mid (hi := f3 * 32 + g * 524288 + (o.rd.val) + (o.rs1.val) * 256 + (o.sh.val) * 8192) (low := 1 + m * 2) (P := 128) (Q := 4) (by norm_num) (by norm_num)
      (by rw [hw, hb]; ring) (by clear hw; omega) (by omega)
  · exact bits_mid (hi := g * 2048 + (o.rs1.val) + (o.sh.val) * 32) (low := 1 + m * 2 + op * 4 + (o.rd.val) * 128) (P := 32768) (Q := 4096) (by norm_num) (by norm_num)
      (by rw [hw, hb]; ring) (by clear hw; omega) (by omega)
  · exact bits_top (low := 1 + m * 2 + op * 4 + f3 * 4096 + (o.rd.val) * 128 + (o.rs1.val) * 32768 + (o.sh.val) * 1048576) (Q := 67108864) (by norm_num)
      (by rw [hw, hb]; ring) (by clear hw; omega) (by omega)
  · simp [shType, reg_of b0, reg_of b1, b2]
  · omega

/-- Shift-immediate words of five bits. -/
theorem shwType_encSh {base op f3 f7 m : Nat} (o : ShType) (h1 : m < 2) (h2 : op < 32) (h3 : f3 < 8) (h4 : f7 < 128) (hs : o.sh.val < 32)
    (hb : base = 1 + 2 * m + 4 * op + 4096 * f3 + 33554432 * f7) :
    bits (encSh base o) 0 1 = 1
      ∧ bits (encSh base o) 2 5 = op
      ∧ bits (encSh base o) 12 3 = f3
      ∧ bits (encSh base o) 25 7 = f7
      ∧ shwType (encSh base o) = o
      ∧ (encSh base o) < 2 ^ 32 := by
  have u0 := o.rd.isLt
  have u1 := o.rs1.isLt
  have u2 := hs
  obtain ⟨w, hw⟩ : ∃ w, w = encSh base o := ⟨_, rfl⟩
  rw [← hw]
  unfold encSh at hw
  have b0 : bits w 7 5 = o.rd.val := bits_mid (hi := f3 + f7 * 8192 + (o.rs1.val) * 8 + (o.sh.val) * 256) (low := 1 + m * 2 + op * 4) (P := 4096) (Q := 128) (by norm_num) (by norm_num)
      (by rw [hw, hb]; ring) (by clear hw; omega) (by omega)
  have b1 : bits w 15 5 = o.rs1.val := bits_mid (hi := f7 * 32 + (o.sh.val)) (low := 1 + m * 2 + op * 4 + f3 * 4096 + (o.rd.val) * 128) (P := 1048576) (Q := 32768) (by norm_num) (by norm_num)
      (by rw [hw, hb]; ring) (by clear hw; omega) (by omega)
  have b2 : bits w 20 5 = o.sh.val := bits_mid (hi := f7) (low := 1 + m * 2 + op * 4 + f3 * 4096 + (o.rd.val) * 128 + (o.rs1.val) * 32768) (P := 33554432) (Q := 1048576) (by norm_num) (by norm_num)
      (by rw [hw, hb]; ring) (by clear hw; omega) (by omega)
  refine ⟨?_, ?_, ?_, ?_, ?_, ?_⟩
  · exact bits_mid (hi := m + op * 2 + f3 * 2048 + f7 * 16777216 + (o.rd.val) * 64 + (o.rs1.val) * 16384 + (o.sh.val) * 524288) (low := 0) (P := 2) (Q := 1) (by norm_num) (by norm_num)
      (by rw [hw, hb]; ring) (by clear hw; omega) (by omega)
  · exact bits_mid (hi := f3 * 32 + f7 * 262144 + (o.rd.val) + (o.rs1.val) * 256 + (o.sh.val) * 8192) (low := 1 + m * 2) (P := 128) (Q := 4) (by norm_num) (by norm_num)
      (by rw [hw, hb]; ring) (by clear hw; omega) (by omega)
  · exact bits_mid (hi := f7 * 1024 + (o.rs1.val) + (o.sh.val) * 32) (low := 1 + m * 2 + op * 4 + (o.rd.val) * 128) (P := 32768) (Q := 4096) (by norm_num) (by norm_num)
      (by rw [hw, hb]; ring) (by clear hw; omega) (by omega)
  · exact bits_top (low := 1 + m * 2 + op * 4 + f3 * 4096 + (o.rd.val) * 128 + (o.rs1.val) * 32768 + (o.sh.val) * 1048576) (Q := 33554432) (by norm_num)
      (by rw [hw, hb]; ring) (by clear hw; omega) (by omega)
  · simp [shwType, reg_of b0, reg_of b1, b2]
  · omega

/-- S-type words. -/
theorem sType_encS {base op f3 m : Nat} (o : SType) (h1 : m < 2) (h2 : op < 32) (h3 : f3 < 8)
    (hb : base = 1 + 2 * m + 4 * op + 4096 * f3) :
    bits (encS base o) 0 1 = 1
      ∧ bits (encS base o) 2 5 = op
      ∧ bits (encS base o) 12 3 = f3
      ∧ sType (encS base o) = o
      ∧ (encS base o) < 2 ^ 32 := by
  have u0 := o.rs1.isLt
  have u1 := o.rs2.isLt
  have u2 := bits_lt o.imm.toNat 0 5
  have u3 := bits_lt o.imm.toNat 5 7
  obtain ⟨w, hw⟩ : ∃ w, w = encS base o := ⟨_, rfl⟩
  rw [← hw]
  unfold encS at hw
  have b0 : bits w 15 5 = o.rs1.val := bits_mid (hi := (o.rs2.val) + (bits o.imm.toNat 5 7) * 32) (low := 1 + m * 2 + op * 4 + f3 * 4096 + (bits o.imm.toNat 0 5) * 128) (P := 1048576) (Q := 32768) (by norm_num) (by norm_num)
      (by rw [hw, hb]; ring) (by clear hw; omega) (by omega)
  have b1 : bits w 20 5 = o.rs2.val := bits_mid (hi := (bits o.imm.toNat 5 7)) (low := 1 + m * 2 + op * 4 + f3 * 4096 + (o.rs1.val) * 32768 + (bits o.imm.toNat 0 5) * 128) (P := 33554432) (Q := 1048576) (by norm_num) (by norm_num)
      (by rw [hw, hb]; ring) (by clear hw; omega) (by omega)
  have b2 : bits w 7 5 = bits o.imm.toNat 0 5 := bits_mid (hi := f3 + (o.rs1.val) * 8 + (o.rs2.val) * 256 + (bits o.imm.toNat 5 7) * 8192) (low := 1 + m * 2 + op * 4) (P := 4096) (Q := 128) (by norm_num) (by norm_num)
      (by rw [hw, hb]; ring) (by clear hw; omega) (by omega)
  have b3 : bits w 25 7 = bits o.imm.toNat 5 7 := bits_top (low := 1 + m * 2 + op * 4 + f3 * 4096 + (o.rs1.val) * 32768 + (o.rs2.val) * 1048576 + (bits o.imm.toNat 0 5) * 128) (Q := 33554432) (by norm_num)
      (by rw [hw, hb]; ring) (by clear hw; omega) (by omega)
  refine ⟨?_, ?_, ?_, ?_, ?_⟩
  · exact bits_mid (hi := m + op * 2 + f3 * 2048 + (o.rs1.val) * 16384 + (o.rs2.val) * 524288 + (bits o.imm.toNat 0 5) * 64 + (bits o.imm.toNat 5 7) * 16777216) (low := 0) (P := 2) (Q := 1) (by norm_num) (by norm_num)
      (by rw [hw, hb]; ring) (by clear hw; omega) (by omega)
  · exact bits_mid (hi := f3 * 32 + (o.rs1.val) * 256 + (o.rs2.val) * 8192 + (bits o.imm.toNat 0 5) + (bits o.imm.toNat 5 7) * 262144) (low := 1 + m * 2) (P := 128) (Q := 4) (by norm_num) (by norm_num)
      (by rw [hw, hb]; ring) (by clear hw; omega) (by omega)
  · exact bits_mid (hi := (o.rs1.val) + (o.rs2.val) * 32 + (bits o.imm.toNat 5 7) * 1024) (low := 1 + m * 2 + op * 4 + (bits o.imm.toNat 0 5) * 128) (P := 32768) (Q := 4096) (by norm_num) (by norm_num)
      (by rw [hw, hb]; ring) (by clear hw; omega) (by omega)
  · have e : bits o.imm.toNat 5 7 * 32 + bits o.imm.toNat 0 5 = o.imm.toNat := by have := o.imm.isLt; simp only [bits]; omega
    simp [sType, reg_of b0, reg_of b1, b2, b3, e]
  · omega

/-- B-type words. -/
theorem bType_encB {base op f3 m : Nat} (o : BType) (h1 : m < 2) (h2 : op < 32) (h3 : f3 < 8)
    (hb : base = 1 + 2 * m + 4 * op + 4096 * f3) :
    bits (encB base o) 0 1 = 1
      ∧ bits (encB base o) 2 5 = op
      ∧ bits (encB base o) 12 3 = f3
      ∧ bType (encB base o) = o
      ∧ (encB base o) < 2 ^ 32 := by
  have u0 := o.rs1.isLt
  have u1 := o.rs2.isLt
  have u2 := bits_lt o.imm.toNat 10 1
  have u3 := bits_lt o.imm.toNat 0 4
  have u4 := bits_lt o.imm.toNat 4 6
  have u5 := bits_lt o.imm.toNat 11 1
  obtain ⟨w, hw⟩ : ∃ w, w = encB base o := ⟨_, rfl⟩
  rw [← hw]
  unfold encB at hw
  have b0 : bits w 15 5 = o.rs1.val := bits_mid (hi := (o.rs2.val) + (bits o.imm.toNat 4 6) * 32 + (bits o.imm.toNat 11 1) * 2048) (low := 1 + m * 2 + op * 4 + f3 * 4096 + (bits o.imm.toNat 10 1) * 128 + (bits o.imm.toNat 0 4) * 256) (P := 1048576) (Q := 32768) (by norm_num) (by norm_num)
      (by rw [hw, hb]; ring) (by clear hw; omega) (by omega)
  have b1 : bits w 20 5 = o.rs2.val := bits_mid (hi := (bits o.imm.toNat 4 6) + (bits o.imm.toNat 11 1) * 64) (low := 1 + m * 2 + op * 4 + f3 * 4096 + (o.rs1.val) * 32768 + (bits o.imm.toNat 10 1) * 128 + (bits o.imm.toNat 0 4) * 256) (P := 33554432) (Q := 1048576) (by norm_num) (by norm_num)
      (by rw [hw, hb]; ring) (by clear hw; omega) (by omega)
  have b2 : bits w 7 1 = bits o.imm.toNat 10 1 := bits_mid (hi := f3 * 16 + (o.rs1.val) * 128 + (o.rs2.val) * 4096 + (bits o.imm.toNat 0 4) + (bits o.imm.toNat 4 6) * 131072 + (bits o.imm.toNat 11 1) * 8388608) (low := 1 + m * 2 + op * 4) (P := 256) (Q := 128) (by norm_num) (by norm_num)
      (by rw [hw, hb]; ring) (by clear hw; omega) (by omega)
  have b3 : bits w 8 4 = bits o.imm.toNat 0 4 := bits_mid (hi := f3 + (o.rs1.val) * 8 + (o.rs2.val) * 256 + (bits o.imm.toNat 4 6) * 8192 + (bits o.imm.toNat 11 1) * 524288) (low := 1 + m * 2 + op * 4 + (bits o.imm.toNat 10 1) * 128) (P := 4096) (Q := 256) (by norm_num) (by norm_num)
      (by rw [hw, hb]; ring) (by clear hw; omega) (by omega)
  have b4 : bits w 25 6 = bits o.imm.toNat 4 6 := bits_mid (hi := (bits o.imm.toNat 11 1)) (low := 1 + m * 2 + op * 4 + f3 * 4096 + (o.rs1.val) * 32768 + (o.rs2.val) * 1048576 + (bits o.imm.toNat 10 1) * 128 + (bits o.imm.toNat 0 4) * 256) (P := 2147483648) (Q := 33554432) (by norm_num) (by norm_num)
      (by rw [hw, hb]; ring) (by clear hw; omega) (by omega)
  have b5 : bits w 31 1 = bits o.imm.toNat 11 1 := bits_top (low := 1 + m * 2 + op * 4 + f3 * 4096 + (o.rs1.val) * 32768 + (o.rs2.val) * 1048576 + (bits o.imm.toNat 10 1) * 128 + (bits o.imm.toNat 0 4) * 256 + (bits o.imm.toNat 4 6) * 33554432) (Q := 2147483648) (by norm_num)
      (by rw [hw, hb]; ring) (by clear hw; omega) (by omega)
  refine ⟨?_, ?_, ?_, ?_, ?_⟩
  · exact bits_mid (hi := m + op * 2 + f3 * 2048 + (o.rs1.val) * 16384 + (o.rs2.val) * 524288 + (bits o.imm.toNat 10 1) * 64 + (bits o.imm.toNat 0 4) * 128 + (bits o.imm.toNat 4 6) * 16777216 + (bits o.imm.toNat 11 1) * 1073741824) (low := 0) (P := 2) (Q := 1) (by norm_num) (by norm_num)
      (by rw [hw, hb]; ring) (by clear hw; omega) (by omega)
  · exact bits_mid (hi := f3 * 32 + (o.rs1.val) * 256 + (o.rs2.val) * 8192 + (bits o.imm.toNat 10 1) + (bits o.imm.toNat 0 4) * 2 + (bits o.imm.toNat 4 6) * 262144 + (bits o.imm.toNat 11 1) * 16777216) (low := 1 + m * 2) (P := 128) (Q := 4) (by norm_num) (by norm_num)
      (by rw [hw, hb]; ring) (by clear hw; omega) (by omega)
  · exact bits_mid (hi := (o.rs1.val) + (o.rs2.val) * 32 + (bits o.imm.toNat 4 6) * 1024 + (bits o.imm.toNat 11 1) * 65536) (low := 1 + m * 2 + op * 4 + (bits o.imm.toNat 10 1) * 128 + (bits o.imm.toNat 0 4) * 256) (P := 32768) (Q := 4096) (by norm_num) (by norm_num)
      (by rw [hw, hb]; ring) (by clear hw; omega) (by omega)
  · have e : bits o.imm.toNat 11 1 * 2048 + bits o.imm.toNat 10 1 * 1024 + bits o.imm.toNat 4 6 * 16 + bits o.imm.toNat 0 4 = o.imm.toNat := by
      have := o.imm.isLt; simp only [bits]; omega
    simp [bType, reg_of b0, reg_of b1, b2, b3, b4, b5, e]
  · omega

/-! ### L forms -/

/-- LM words. -/
theorem lm_encLM {op : Nat} (o : LM) (h : op < 64) :
    bits (encLM op o) 26 6 = op
      ∧ lm (encLM op o) = o
      ∧ (encLM op o) < 2 ^ 32 := by
  have u0 := o.vd.isLt
  have u1 := o.xb.isLt
  have u2 := o.h.isLt
  have u3 := o.off.isLt
  obtain ⟨w, hw⟩ : ∃ w, w = encLM op o := ⟨_, rfl⟩
  rw [← hw]
  unfold encLM at hw
  have b0 : bits w 21 5 = o.vd.val := bits_mid (hi := op) (low := (o.xb.val) * 65536 + (o.h.val) * 4096 + (o.off.toNat)) (P := 67108864) (Q := 2097152) (by norm_num) (by norm_num)
      (by rw [hw]; ring) (by clear hw; omega) (by omega)
  have b1 : bits w 16 5 = o.xb.val := bits_mid (hi := op * 32 + (o.vd.val)) (low := (o.h.val) * 4096 + (o.off.toNat)) (P := 2097152) (Q := 65536) (by norm_num) (by norm_num)
      (by rw [hw]; ring) (by clear hw; omega) (by omega)
  have b2 : bits w 12 4 = o.h.val := bits_mid (hi := op * 1024 + (o.vd.val) * 32 + (o.xb.val)) (low := (o.off.toNat)) (P := 65536) (Q := 4096) (by norm_num) (by norm_num)
      (by rw [hw]; ring) (by clear hw; omega) (by omega)
  have b3 : bits w 0 12 = o.off.toNat := bits_mid (hi := op * 16384 + (o.vd.val) * 512 + (o.xb.val) * 16 + (o.h.val)) (low := 0) (P := 4096) (Q := 1) (by norm_num) (by norm_num)
      (by rw [hw]; ring) (by clear hw; omega) (by omega)
  refine ⟨?_, ?_, ?_⟩
  · exact bits_top (low := (o.vd.val) * 2097152 + (o.xb.val) * 65536 + (o.h.val) * 4096 + (o.off.toNat)) (Q := 67108864) (by norm_num)
      (by rw [hw]; ring) (by clear hw; omega) (by omega)
  · simp [lm, reg_of b0, reg_of b1, hnd_of b2, b3]
  · omega

/-- LS words. -/
theorem lsForm_encLS {op : Nat} (o : LS) (h : op < 64) :
    bits (encLS op o) 26 6 = op
      ∧ lsForm (encLS op o) = some o
      ∧ (encLS op o) < 2 ^ 32 := by
  have u0 := o.vd.isLt
  have u1 := o.xb.isLt
  have u2 := o.h.isLt
  have u3 := o.xs.isLt
  obtain ⟨w, hw⟩ : ∃ w, w = encLS op o := ⟨_, rfl⟩
  rw [← hw]
  unfold encLS at hw
  have b0 : bits w 21 5 = o.vd.val := bits_mid (hi := op) (low := (o.xb.val) * 65536 + (o.h.val) * 4096 + (o.xs.val) * 128) (P := 67108864) (Q := 2097152) (by norm_num) (by norm_num)
      (by rw [hw]; ring) (by clear hw; omega) (by omega)
  have b1 : bits w 16 5 = o.xb.val := bits_mid (hi := op * 32 + (o.vd.val)) (low := (o.h.val) * 4096 + (o.xs.val) * 128) (P := 2097152) (Q := 65536) (by norm_num) (by norm_num)
      (by rw [hw]; ring) (by clear hw; omega) (by omega)
  have b2 : bits w 12 4 = o.h.val := bits_mid (hi := op * 1024 + (o.vd.val) * 32 + (o.xb.val)) (low := (o.xs.val) * 128) (P := 65536) (Q := 4096) (by norm_num) (by norm_num)
      (by rw [hw]; ring) (by clear hw; omega) (by omega)
  have b3 : bits w 7 5 = o.xs.val := bits_mid (hi := op * 16384 + (o.vd.val) * 512 + (o.xb.val) * 16 + (o.h.val)) (low := 0) (P := 4096) (Q := 128) (by norm_num) (by norm_num)
      (by rw [hw]; ring) (by clear hw; omega) (by omega)
  have c0 : bits w 0 7 = 0 := bits_mid (hi := op * 524288 + (o.vd.val) * 16384 + (o.xb.val) * 512 + (o.h.val) * 32 + (o.xs.val)) (low := 0) (P := 128) (Q := 1) (by norm_num) (by norm_num)
      (by rw [hw]; ring) (by clear hw; omega) (by omega)
  refine ⟨?_, ?_, ?_⟩
  · exact bits_top (low := (o.vd.val) * 2097152 + (o.xb.val) * 65536 + (o.h.val) * 4096 + (o.xs.val) * 128) (Q := 67108864) (by norm_num)
      (by rw [hw]; ring) (by clear hw; omega) (by omega)
  · simp [lsForm, reg_of b0, reg_of b1, hnd_of b2, reg_of b3, c0]
  · omega

/-- LF words. -/
theorem lfForm_encLF {op kind : Nat} (o : LF) (h : op < 64) (hk : kind < 4) :
    bits (encLF op kind o) 26 6 = op
      ∧ bits (encLF op kind o) 24 2 = kind
      ∧ lfForm (encLF op kind o) = some o
      ∧ (encLF op kind o) < 2 ^ 32 := by
  have u0 := scopeCode_lt o.scope
  have u1 := o.paths.isLt
  have u2 := o.hmask.isLt
  obtain ⟨w, hw⟩ : ∃ w, w = encLF op kind o := ⟨_, rfl⟩
  rw [← hw]
  unfold encLF at hw
  have b0 : bits w 21 3 = scopeCode o.scope := bits_mid (hi := op * 4 + kind) (low := (o.paths.toNat) * 65536 + (o.hmask.toNat)) (P := 16777216) (Q := 2097152) (by norm_num) (by norm_num)
      (by rw [hw]; ring) (by clear hw; omega) (by omega)
  have b1 : bits w 16 5 = o.paths.toNat := bits_mid (hi := op * 32 + kind * 8 + (scopeCode o.scope)) (low := (o.hmask.toNat)) (P := 2097152) (Q := 65536) (by norm_num) (by norm_num)
      (by rw [hw]; ring) (by clear hw; omega) (by omega)
  have b2 : bits w 0 16 = o.hmask.toNat := bits_mid (hi := op * 1024 + kind * 256 + (scopeCode o.scope) * 32 + (o.paths.toNat)) (low := 0) (P := 65536) (Q := 1) (by norm_num) (by norm_num)
      (by rw [hw]; ring) (by clear hw; omega) (by omega)
  refine ⟨?_, ?_, ?_, ?_⟩
  · exact bits_top (low := kind * 16777216 + (scopeCode o.scope) * 2097152 + (o.paths.toNat) * 65536 + (o.hmask.toNat)) (Q := 67108864) (by norm_num)
      (by rw [hw]; ring) (by clear hw; omega) (by omega)
  · exact bits_mid (hi := op) (low := (scopeCode o.scope) * 2097152 + (o.paths.toNat) * 65536 + (o.hmask.toNat)) (P := 67108864) (Q := 16777216) (by norm_num) (by norm_num)
      (by rw [hw]; ring) (by clear hw; omega) (by omega)
  · simp [lfForm, scopeOf_scopeCode, b0, b1, b2]
  · omega

/-! ### V forms -/

/-- V3R words. -/
theorem v3r_encV3R {e : VEng} {op : Nat} (o : V3R) (h : op < 64) (hf : wfV3R e o = true) :
    bits (encV3R op o) 26 6 = op
      ∧ v3r e (encV3R op o) = some o
      ∧ (encV3R op o) < 2 ^ 32 := by
  have u0 := o.vd.isLt
  have u1 := o.vs1.isLt
  have u2 := o.vs2.isLt
  have u3 := pgCode_lt o.pg
  have u4 := one_lt o.zm
  have u5 := one_lt o.w1
  have u6 := one_lt o.w2
  have u7 := one_lt o.q
  have u8 := one_lt o.dup
  obtain ⟨w, hw⟩ : ∃ w, w = encV3R op o := ⟨_, rfl⟩
  rw [← hw]
  unfold encV3R at hw
  have b0 : bits w 21 5 = o.vd.val := bits_mid (hi := op) (low := (o.vs1.val) * 65536 + (o.vs2.val) * 2048 + (pgCode o.pg) * 32 + (one o.zm) * 16 + (one o.w1) * 8 + (one o.w2) * 4 + (one o.q) * 2 + (one o.dup)) (P := 67108864) (Q := 2097152) (by norm_num) (by norm_num)
      (by rw [hw]; ring) (by clear hw; omega) (by omega)
  have b1 : bits w 16 5 = o.vs1.val := bits_mid (hi := op * 32 + (o.vd.val)) (low := (o.vs2.val) * 2048 + (pgCode o.pg) * 32 + (one o.zm) * 16 + (one o.w1) * 8 + (one o.w2) * 4 + (one o.q) * 2 + (one o.dup)) (P := 2097152) (Q := 65536) (by norm_num) (by norm_num)
      (by rw [hw]; ring) (by clear hw; omega) (by omega)
  have b2 : bits w 11 5 = o.vs2.val := bits_mid (hi := op * 1024 + (o.vd.val) * 32 + (o.vs1.val)) (low := (pgCode o.pg) * 32 + (one o.zm) * 16 + (one o.w1) * 8 + (one o.w2) * 4 + (one o.q) * 2 + (one o.dup)) (P := 65536) (Q := 2048) (by norm_num) (by norm_num)
      (by rw [hw]; ring) (by clear hw; omega) (by omega)
  have b3 : bits w 5 6 = pgCode o.pg := bits_mid (hi := op * 32768 + (o.vd.val) * 1024 + (o.vs1.val) * 32 + (o.vs2.val)) (low := (one o.zm) * 16 + (one o.w1) * 8 + (one o.w2) * 4 + (one o.q) * 2 + (one o.dup)) (P := 2048) (Q := 32) (by norm_num) (by norm_num)
      (by rw [hw]; ring) (by clear hw; omega) (by omega)
  have b4 : bits w 4 1 = one o.zm := bits_mid (hi := op * 2097152 + (o.vd.val) * 65536 + (o.vs1.val) * 2048 + (o.vs2.val) * 64 + (pgCode o.pg)) (low := (one o.w1) * 8 + (one o.w2) * 4 + (one o.q) * 2 + (one o.dup)) (P := 32) (Q := 16) (by norm_num) (by norm_num)
      (by rw [hw]; ring) (by clear hw; omega) (by omega)
  have b5 : bits w 3 1 = one o.w1 := bits_mid (hi := op * 4194304 + (o.vd.val) * 131072 + (o.vs1.val) * 4096 + (o.vs2.val) * 128 + (pgCode o.pg) * 2 + (one o.zm)) (low := (one o.w2) * 4 + (one o.q) * 2 + (one o.dup)) (P := 16) (Q := 8) (by norm_num) (by norm_num)
      (by rw [hw]; ring) (by clear hw; omega) (by omega)
  have b6 : bits w 2 1 = one o.w2 := bits_mid (hi := op * 8388608 + (o.vd.val) * 262144 + (o.vs1.val) * 8192 + (o.vs2.val) * 256 + (pgCode o.pg) * 4 + (one o.zm) * 2 + (one o.w1)) (low := (one o.q) * 2 + (one o.dup)) (P := 8) (Q := 4) (by norm_num) (by norm_num)
      (by rw [hw]; ring) (by clear hw; omega) (by omega)
  have b7 : bits w 1 1 = one o.q := bits_mid (hi := op * 16777216 + (o.vd.val) * 524288 + (o.vs1.val) * 16384 + (o.vs2.val) * 512 + (pgCode o.pg) * 8 + (one o.zm) * 4 + (one o.w1) * 2 + (one o.w2)) (low := (one o.dup)) (P := 4) (Q := 2) (by norm_num) (by norm_num)
      (by rw [hw]; ring) (by clear hw; omega) (by omega)
  have b8 : bits w 0 1 = one o.dup := bits_mid (hi := op * 33554432 + (o.vd.val) * 1048576 + (o.vs1.val) * 32768 + (o.vs2.val) * 1024 + (pgCode o.pg) * 16 + (one o.zm) * 8 + (one o.w1) * 4 + (one o.w2) * 2 + (one o.q)) (low := 0) (P := 2) (Q := 1) (by norm_num) (by norm_num)
      (by rw [hw]; ring) (by clear hw; omega) (by omega)
  refine ⟨?_, ?_, ?_⟩
  · exact bits_top (low := (o.vd.val) * 2097152 + (o.vs1.val) * 65536 + (o.vs2.val) * 2048 + (pgCode o.pg) * 32 + (one o.zm) * 16 + (one o.w1) * 8 + (one o.w2) * 4 + (one o.q) * 2 + (one o.dup)) (Q := 67108864) (by norm_num)
      (by rw [hw]; ring) (by clear hw; omega) (by omega)
  · simp [v3r, pgOf_pgCode, b2, (by simpa [wfV3R, wfDup] using hf : v3rLegal o.pg o.zm o.q o.vs2.val = true ∧ (e = .v1 ∨ o.dup = false)), reg_of b0, reg_of b1, reg_of b2, b3, flag_of b4, flag_of b5, flag_of b6, flag_of b7, flag_of b8]
  · omega

/-- V2R words. -/
theorem v2r_encV2R {e : VEng} {op : Nat} (o : V2R) (h : op < 64) (hf : (wfPred o.pg o.zm && wfDup e o.dup) = true) :
    bits (encV2R op o) 26 6 = op
      ∧ v2r e (encV2R op o) = some o
      ∧ (encV2R op o) < 2 ^ 32 := by
  have u0 := o.vd.isLt
  have u1 := o.vs1.isLt
  have u2 := pgCode_lt o.pg
  have u3 := one_lt o.zm
  have u4 := one_lt o.w1
  have u5 := one_lt o.w2
  have u6 := one_lt o.dup
  obtain ⟨w, hw⟩ : ∃ w, w = encV2R op o := ⟨_, rfl⟩
  rw [← hw]
  unfold encV2R at hw
  have b0 : bits w 21 5 = o.vd.val := bits_mid (hi := op) (low := (o.vs1.val) * 65536 + (pgCode o.pg) * 32 + (one o.zm) * 16 + (one o.w1) * 8 + (one o.w2) * 4 + (one o.dup)) (P := 67108864) (Q := 2097152) (by norm_num) (by norm_num)
      (by rw [hw]; ring) (by clear hw; omega) (by omega)
  have b1 : bits w 16 5 = o.vs1.val := bits_mid (hi := op * 32 + (o.vd.val)) (low := (pgCode o.pg) * 32 + (one o.zm) * 16 + (one o.w1) * 8 + (one o.w2) * 4 + (one o.dup)) (P := 2097152) (Q := 65536) (by norm_num) (by norm_num)
      (by rw [hw]; ring) (by clear hw; omega) (by omega)
  have b2 : bits w 5 6 = pgCode o.pg := bits_mid (hi := op * 32768 + (o.vd.val) * 1024 + (o.vs1.val) * 32) (low := (one o.zm) * 16 + (one o.w1) * 8 + (one o.w2) * 4 + (one o.dup)) (P := 2048) (Q := 32) (by norm_num) (by norm_num)
      (by rw [hw]; ring) (by clear hw; omega) (by omega)
  have b3 : bits w 4 1 = one o.zm := bits_mid (hi := op * 2097152 + (o.vd.val) * 65536 + (o.vs1.val) * 2048 + (pgCode o.pg)) (low := (one o.w1) * 8 + (one o.w2) * 4 + (one o.dup)) (P := 32) (Q := 16) (by norm_num) (by norm_num)
      (by rw [hw]; ring) (by clear hw; omega) (by omega)
  have b4 : bits w 3 1 = one o.w1 := bits_mid (hi := op * 4194304 + (o.vd.val) * 131072 + (o.vs1.val) * 4096 + (pgCode o.pg) * 2 + (one o.zm)) (low := (one o.w2) * 4 + (one o.dup)) (P := 16) (Q := 8) (by norm_num) (by norm_num)
      (by rw [hw]; ring) (by clear hw; omega) (by omega)
  have b5 : bits w 2 1 = one o.w2 := bits_mid (hi := op * 8388608 + (o.vd.val) * 262144 + (o.vs1.val) * 8192 + (pgCode o.pg) * 4 + (one o.zm) * 2 + (one o.w1)) (low := (one o.dup)) (P := 8) (Q := 4) (by norm_num) (by norm_num)
      (by rw [hw]; ring) (by clear hw; omega) (by omega)
  have b6 : bits w 0 1 = one o.dup := bits_mid (hi := op * 33554432 + (o.vd.val) * 1048576 + (o.vs1.val) * 32768 + (pgCode o.pg) * 16 + (one o.zm) * 8 + (one o.w1) * 4 + (one o.w2) * 2) (low := 0) (P := 2) (Q := 1) (by norm_num) (by norm_num)
      (by rw [hw]; ring) (by clear hw; omega) (by omega)
  have c0 : bits w 11 5 = 0 := bits_mid (hi := op * 1024 + (o.vd.val) * 32 + (o.vs1.val)) (low := (pgCode o.pg) * 32 + (one o.zm) * 16 + (one o.w1) * 8 + (one o.w2) * 4 + (one o.dup)) (P := 65536) (Q := 2048) (by norm_num) (by norm_num)
      (by rw [hw]; ring) (by clear hw; omega) (by omega)
  have c1 : bits w 1 1 = 0 := bits_mid (hi := op * 16777216 + (o.vd.val) * 524288 + (o.vs1.val) * 16384 + (pgCode o.pg) * 8 + (one o.zm) * 4 + (one o.w1) * 2 + (one o.w2)) (low := (one o.dup)) (P := 4) (Q := 2) (by norm_num) (by norm_num)
      (by rw [hw]; ring) (by clear hw; omega) (by omega)
  refine ⟨?_, ?_, ?_⟩
  · exact bits_top (low := (o.vd.val) * 2097152 + (o.vs1.val) * 65536 + (pgCode o.pg) * 32 + (one o.zm) * 16 + (one o.w1) * 8 + (one o.w2) * 4 + (one o.dup)) (Q := 67108864) (by norm_num)
      (by rw [hw]; ring) (by clear hw; omega) (by omega)
  · simp [v2r, pgOf_pgCode, v3rLegal, (by simpa [wfPred, wfDup] using hf : (o.pg.isSome = true ∨ o.zm = false) ∧ (e = .v1 ∨ o.dup = false)), reg_of b0, reg_of b1, b2, flag_of b3, flag_of b4, flag_of b5, flag_of b6, c0, c1]
  · omega

/-- Reduction words. -/
theorem vred_encVRed {e : VEng} {op : Nat} (o : VRed) (h : op < 64) (hf : (wfPred o.pg o.zm && wfDup e o.dup) = true) :
    bits (encVRed op o) 26 6 = op
      ∧ vred e (encVRed op o) = some o
      ∧ (encVRed op o) < 2 ^ 32 := by
  have u0 := o.vd.isLt
  have u1 := o.vs1.isLt
  have u2 := one_lt o.cols
  have u3 := redCode_lt o.op
  have u4 := pgCode_lt o.pg
  have u5 := one_lt o.zm
  have u6 := one_lt o.w1
  have u7 := one_lt o.w2
  have u8 := one_lt o.dup
  obtain ⟨w, hw⟩ : ∃ w, w = encVRed op o := ⟨_, rfl⟩
  rw [← hw]
  unfold encVRed at hw
  have b0 : bits w 21 5 = o.vd.val := bits_mid (hi := op) (low := (o.vs1.val) * 65536 + (one o.cols) * 8192 + (redCode o.op) * 2048 + (pgCode o.pg) * 32 + (one o.zm) * 16 + (one o.w1) * 8 + (one o.w2) * 4 + (one o.dup)) (P := 67108864) (Q := 2097152) (by norm_num) (by norm_num)
      (by rw [hw]; ring) (by clear hw; omega) (by omega)
  have b1 : bits w 16 5 = o.vs1.val := bits_mid (hi := op * 32 + (o.vd.val)) (low := (one o.cols) * 8192 + (redCode o.op) * 2048 + (pgCode o.pg) * 32 + (one o.zm) * 16 + (one o.w1) * 8 + (one o.w2) * 4 + (one o.dup)) (P := 2097152) (Q := 65536) (by norm_num) (by norm_num)
      (by rw [hw]; ring) (by clear hw; omega) (by omega)
  have b2 : bits w 13 1 = one o.cols := bits_mid (hi := op * 4096 + (o.vd.val) * 128 + (o.vs1.val) * 4) (low := (redCode o.op) * 2048 + (pgCode o.pg) * 32 + (one o.zm) * 16 + (one o.w1) * 8 + (one o.w2) * 4 + (one o.dup)) (P := 16384) (Q := 8192) (by norm_num) (by norm_num)
      (by rw [hw]; ring) (by clear hw; omega) (by omega)
  have b3 : bits w 11 2 = redCode o.op := bits_mid (hi := op * 8192 + (o.vd.val) * 256 + (o.vs1.val) * 8 + (one o.cols)) (low := (pgCode o.pg) * 32 + (one o.zm) * 16 + (one o.w1) * 8 + (one o.w2) * 4 + (one o.dup)) (P := 8192) (Q := 2048) (by norm_num) (by norm_num)
      (by rw [hw]; ring) (by clear hw; omega) (by omega)
  have b4 : bits w 5 6 = pgCode o.pg := bits_mid (hi := op * 32768 + (o.vd.val) * 1024 + (o.vs1.val) * 32 + (one o.cols) * 4 + (redCode o.op)) (low := (one o.zm) * 16 + (one o.w1) * 8 + (one o.w2) * 4 + (one o.dup)) (P := 2048) (Q := 32) (by norm_num) (by norm_num)
      (by rw [hw]; ring) (by clear hw; omega) (by omega)
  have b5 : bits w 4 1 = one o.zm := bits_mid (hi := op * 2097152 + (o.vd.val) * 65536 + (o.vs1.val) * 2048 + (one o.cols) * 256 + (redCode o.op) * 64 + (pgCode o.pg)) (low := (one o.w1) * 8 + (one o.w2) * 4 + (one o.dup)) (P := 32) (Q := 16) (by norm_num) (by norm_num)
      (by rw [hw]; ring) (by clear hw; omega) (by omega)
  have b6 : bits w 3 1 = one o.w1 := bits_mid (hi := op * 4194304 + (o.vd.val) * 131072 + (o.vs1.val) * 4096 + (one o.cols) * 512 + (redCode o.op) * 128 + (pgCode o.pg) * 2 + (one o.zm)) (low := (one o.w2) * 4 + (one o.dup)) (P := 16) (Q := 8) (by norm_num) (by norm_num)
      (by rw [hw]; ring) (by clear hw; omega) (by omega)
  have b7 : bits w 2 1 = one o.w2 := bits_mid (hi := op * 8388608 + (o.vd.val) * 262144 + (o.vs1.val) * 8192 + (one o.cols) * 1024 + (redCode o.op) * 256 + (pgCode o.pg) * 4 + (one o.zm) * 2 + (one o.w1)) (low := (one o.dup)) (P := 8) (Q := 4) (by norm_num) (by norm_num)
      (by rw [hw]; ring) (by clear hw; omega) (by omega)
  have b8 : bits w 0 1 = one o.dup := bits_mid (hi := op * 33554432 + (o.vd.val) * 1048576 + (o.vs1.val) * 32768 + (one o.cols) * 4096 + (redCode o.op) * 1024 + (pgCode o.pg) * 16 + (one o.zm) * 8 + (one o.w1) * 4 + (one o.w2) * 2) (low := 0) (P := 2) (Q := 1) (by norm_num) (by norm_num)
      (by rw [hw]; ring) (by clear hw; omega) (by omega)
  have c0 : bits w 14 2 = 0 := bits_mid (hi := op * 1024 + (o.vd.val) * 32 + (o.vs1.val)) (low := (one o.cols) * 8192 + (redCode o.op) * 2048 + (pgCode o.pg) * 32 + (one o.zm) * 16 + (one o.w1) * 8 + (one o.w2) * 4 + (one o.dup)) (P := 65536) (Q := 16384) (by norm_num) (by norm_num)
      (by rw [hw]; ring) (by clear hw; omega) (by omega)
  have c1 : bits w 1 1 = 0 := bits_mid (hi := op * 16777216 + (o.vd.val) * 524288 + (o.vs1.val) * 16384 + (one o.cols) * 2048 + (redCode o.op) * 512 + (pgCode o.pg) * 8 + (one o.zm) * 4 + (one o.w1) * 2 + (one o.w2)) (low := (one o.dup)) (P := 4) (Q := 2) (by norm_num) (by norm_num)
      (by rw [hw]; ring) (by clear hw; omega) (by omega)
  refine ⟨?_, ?_, ?_⟩
  · exact bits_top (low := (o.vd.val) * 2097152 + (o.vs1.val) * 65536 + (one o.cols) * 8192 + (redCode o.op) * 2048 + (pgCode o.pg) * 32 + (one o.zm) * 16 + (one o.w1) * 8 + (one o.w2) * 4 + (one o.dup)) (Q := 67108864) (by norm_num)
      (by rw [hw]; ring) (by clear hw; omega) (by omega)
  · simp [vred, pgOf_pgCode, redOf_redCode, v3rLegal, (by simpa [wfPred, wfDup] using hf : (o.pg.isSome = true ∨ o.zm = false) ∧ (e = .v1 ∨ o.dup = false)), reg_of b0, reg_of b1, flag_of b2, b3, b4, flag_of b5, flag_of b6, flag_of b7, flag_of b8, c0, c1]
  · omega

/-- VCP words. -/
theorem vcp_encVCP {op : Nat} (o : VCP) (h : op < 64) :
    bits (encVCP op o) 26 6 = op
      ∧ vcp (encVCP op o) = some o
      ∧ (encVCP op o) < 2 ^ 32 := by
  have u0 := o.pd.isLt
  have u1 := o.vs1.isLt
  have u2 := o.vs2.isLt
  have u3 := pgCode_lt o.pg
  have u4 := condCode_lt o.cond
  have u5 := one_lt o.w
  obtain ⟨w, hw⟩ : ∃ w, w = encVCP op o := ⟨_, rfl⟩
  rw [← hw]
  unfold encVCP at hw
  have b0 : bits w 20 6 = o.pd.val := bits_mid (hi := op) (low := (o.vs1.val) * 32768 + (o.vs2.val) * 1024 + (pgCode o.pg) * 16 + (condCode o.cond) * 2 + (one o.w)) (P := 67108864) (Q := 1048576) (by norm_num) (by norm_num)
      (by rw [hw]; ring) (by clear hw; omega) (by omega)
  have b1 : bits w 15 5 = o.vs1.val := bits_mid (hi := op * 64 + (o.pd.val)) (low := (o.vs2.val) * 1024 + (pgCode o.pg) * 16 + (condCode o.cond) * 2 + (one o.w)) (P := 1048576) (Q := 32768) (by norm_num) (by norm_num)
      (by rw [hw]; ring) (by clear hw; omega) (by omega)
  have b2 : bits w 10 5 = o.vs2.val := bits_mid (hi := op * 2048 + (o.pd.val) * 32 + (o.vs1.val)) (low := (pgCode o.pg) * 16 + (condCode o.cond) * 2 + (one o.w)) (P := 32768) (Q := 1024) (by norm_num) (by norm_num)
      (by rw [hw]; ring) (by clear hw; omega) (by omega)
  have b3 : bits w 4 6 = pgCode o.pg := bits_mid (hi := op * 65536 + (o.pd.val) * 1024 + (o.vs1.val) * 32 + (o.vs2.val)) (low := (condCode o.cond) * 2 + (one o.w)) (P := 1024) (Q := 16) (by norm_num) (by norm_num)
      (by rw [hw]; ring) (by clear hw; omega) (by omega)
  have b4 : bits w 1 3 = condCode o.cond := bits_mid (hi := op * 4194304 + (o.pd.val) * 65536 + (o.vs1.val) * 2048 + (o.vs2.val) * 64 + (pgCode o.pg)) (low := (one o.w)) (P := 16) (Q := 2) (by norm_num) (by norm_num)
      (by rw [hw]; ring) (by clear hw; omega) (by omega)
  have b5 : bits w 0 1 = one o.w := bits_mid (hi := op * 33554432 + (o.pd.val) * 524288 + (o.vs1.val) * 16384 + (o.vs2.val) * 512 + (pgCode o.pg) * 8 + (condCode o.cond)) (low := 0) (P := 2) (Q := 1) (by norm_num) (by norm_num)
      (by rw [hw]; ring) (by clear hw; omega) (by omega)
  refine ⟨?_, ?_, ?_⟩
  · exact bits_top (low := (o.pd.val) * 1048576 + (o.vs1.val) * 32768 + (o.vs2.val) * 1024 + (pgCode o.pg) * 16 + (condCode o.cond) * 2 + (one o.w)) (Q := 67108864) (by norm_num)
      (by rw [hw]; ring) (by clear hw; omega) (by omega)
  · simp [vcp, prOf_val, pgOf_pgCode, condOf_condCode, b0, reg_of b1, reg_of b2, b3, b4, flag_of b5]
  · omega

/-- VPR words. -/
theorem vpr_encVPR {op : Nat} (o : VPR) (h : op < 64) :
    bits (encVPR op o) 26 6 = op
      ∧ vpr (encVPR op o) = some o
      ∧ (encVPR op o) < 2 ^ 32 := by
  have u0 := o.pd.isLt
  have u1 := o.pa.isLt
  have u2 := o.pb.isLt
  obtain ⟨w, hw⟩ : ∃ w, w = encVPR op o := ⟨_, rfl⟩
  rw [← hw]
  unfold encVPR at hw
  have b0 : bits w 20 6 = o.pd.val := bits_mid (hi := op) (low := (o.pa.val) * 16384 + (o.pb.val) * 256) (P := 67108864) (Q := 1048576) (by norm_num) (by norm_num)
      (by rw [hw]; ring) (by clear hw; omega) (by omega)
  have b1 : bits w 14 6 = o.pa.val := bits_mid (hi := op * 64 + (o.pd.val)) (low := (o.pb.val) * 256) (P := 1048576) (Q := 16384) (by norm_num) (by norm_num)
      (by rw [hw]; ring) (by clear hw; omega) (by omega)
  have b2 : bits w 8 6 = o.pb.val := bits_mid (hi := op * 4096 + (o.pd.val) * 64 + (o.pa.val)) (low := 0) (P := 16384) (Q := 256) (by norm_num) (by norm_num)
      (by rw [hw]; ring) (by clear hw; omega) (by omega)
  have c0 : bits w 0 8 = 0 := bits_mid (hi := op * 262144 + (o.pd.val) * 4096 + (o.pa.val) * 64 + (o.pb.val)) (low := 0) (P := 256) (Q := 1) (by norm_num) (by norm_num)
      (by rw [hw]; ring) (by clear hw; omega) (by omega)
  refine ⟨?_, ?_, ?_⟩
  · exact bits_top (low := (o.pd.val) * 1048576 + (o.pa.val) * 16384 + (o.pb.val) * 256) (Q := 67108864) (by norm_num)
      (by rw [hw]; ring) (by clear hw; omega) (by omega)
  · simp [vpr, prOf_val, b0, b1, b2, c0]
  · omega

/-- VCVT words. -/
theorem vcv_encVCV (o : VCV) (hf : vcvLegal o.fin o.fout o.vd.val o.vs1.val = true) :
    bits (encVCV o) 26 6 = 51
      ∧ vcv (encVCV o) = some o
      ∧ (encVCV o) < 2 ^ 32 := by
  have u0 := o.vd.isLt
  have u1 := o.vs1.isLt
  have u2 := fmtCode_lt o.fin
  have u3 := fmtCode_lt o.fout
  have u4 := rndCode_lt o.rnd
  have u5 := one_lt o.sat
  have u6 := one_lt o.strict
  have u7 := one_lt o.w1
  obtain ⟨w, hw⟩ : ∃ w, w = encVCV o := ⟨_, rfl⟩
  rw [← hw]
  unfold encVCV at hw
  have b0 : bits w 21 5 = o.vd.val := bits_mid (hi := 51) (low := (o.vs1.val) * 65536 + (fmtCode o.fin) * 4096 + (fmtCode o.fout) * 256 + (rndCode o.rnd) * 32 + (one o.sat) * 16 + (one o.strict) * 8 + (one o.w1) * 4) (P := 67108864) (Q := 2097152) (by norm_num) (by norm_num)
      (by rw [hw]; ring) (by clear hw; omega) (by omega)
  have b1 : bits w 16 5 = o.vs1.val := bits_mid (hi := 51 * 32 + (o.vd.val)) (low := (fmtCode o.fin) * 4096 + (fmtCode o.fout) * 256 + (rndCode o.rnd) * 32 + (one o.sat) * 16 + (one o.strict) * 8 + (one o.w1) * 4) (P := 2097152) (Q := 65536) (by norm_num) (by norm_num)
      (by rw [hw]; ring) (by clear hw; omega) (by omega)
  have b2 : bits w 12 4 = fmtCode o.fin := bits_mid (hi := 51 * 1024 + (o.vd.val) * 32 + (o.vs1.val)) (low := (fmtCode o.fout) * 256 + (rndCode o.rnd) * 32 + (one o.sat) * 16 + (one o.strict) * 8 + (one o.w1) * 4) (P := 65536) (Q := 4096) (by norm_num) (by norm_num)
      (by rw [hw]; ring) (by clear hw; omega) (by omega)
  have b3 : bits w 8 4 = fmtCode o.fout := bits_mid (hi := 51 * 16384 + (o.vd.val) * 512 + (o.vs1.val) * 16 + (fmtCode o.fin)) (low := (rndCode o.rnd) * 32 + (one o.sat) * 16 + (one o.strict) * 8 + (one o.w1) * 4) (P := 4096) (Q := 256) (by norm_num) (by norm_num)
      (by rw [hw]; ring) (by clear hw; omega) (by omega)
  have b4 : bits w 5 3 = rndCode o.rnd := bits_mid (hi := 51 * 262144 + (o.vd.val) * 8192 + (o.vs1.val) * 256 + (fmtCode o.fin) * 16 + (fmtCode o.fout)) (low := (one o.sat) * 16 + (one o.strict) * 8 + (one o.w1) * 4) (P := 256) (Q := 32) (by norm_num) (by norm_num)
      (by rw [hw]; ring) (by clear hw; omega) (by omega)
  have b5 : bits w 4 1 = one o.sat := bits_mid (hi := 51 * 2097152 + (o.vd.val) * 65536 + (o.vs1.val) * 2048 + (fmtCode o.fin) * 128 + (fmtCode o.fout) * 8 + (rndCode o.rnd)) (low := (one o.strict) * 8 + (one o.w1) * 4) (P := 32) (Q := 16) (by norm_num) (by norm_num)
      (by rw [hw]; ring) (by clear hw; omega) (by omega)
  have b6 : bits w 3 1 = one o.strict := bits_mid (hi := 51 * 4194304 + (o.vd.val) * 131072 + (o.vs1.val) * 4096 + (fmtCode o.fin) * 256 + (fmtCode o.fout) * 16 + (rndCode o.rnd) * 2 + (one o.sat)) (low := (one o.w1) * 4) (P := 16) (Q := 8) (by norm_num) (by norm_num)
      (by rw [hw]; ring) (by clear hw; omega) (by omega)
  have b7 : bits w 2 1 = one o.w1 := bits_mid (hi := 51 * 8388608 + (o.vd.val) * 262144 + (o.vs1.val) * 8192 + (fmtCode o.fin) * 512 + (fmtCode o.fout) * 32 + (rndCode o.rnd) * 4 + (one o.sat) * 2 + (one o.strict)) (low := 0) (P := 8) (Q := 4) (by norm_num) (by norm_num)
      (by rw [hw]; ring) (by clear hw; omega) (by omega)
  have c0 : bits w 0 2 = 0 := bits_mid (hi := 51 * 16777216 + (o.vd.val) * 524288 + (o.vs1.val) * 16384 + (fmtCode o.fin) * 1024 + (fmtCode o.fout) * 64 + (rndCode o.rnd) * 8 + (one o.sat) * 4 + (one o.strict) * 2 + (one o.w1)) (low := 0) (P := 4) (Q := 1) (by norm_num) (by norm_num)
      (by rw [hw]; ring) (by clear hw; omega) (by omega)
  refine ⟨?_, ?_, ?_⟩
  · exact bits_top (low := (o.vd.val) * 2097152 + (o.vs1.val) * 65536 + (fmtCode o.fin) * 4096 + (fmtCode o.fout) * 256 + (rndCode o.rnd) * 32 + (one o.sat) * 16 + (one o.strict) * 8 + (one o.w1) * 4) (Q := 67108864) (by norm_num)
      (by rw [hw]; ring) (by clear hw; omega) (by omega)
  · simp [vcv, fmtOf_fmtCode, rndOf_rndCode, hf, b0, b1, reg_of b0, reg_of b1, b2, b3, b4, flag_of b5, flag_of b6, flag_of b7, c0]
  · omega

/-! ### F forms -/

/-- F3R words. -/
theorem f3r_encF3R {op : Nat} (o : F3R) (h : op < 64) (hf : v3rLegal o.pg o.zm o.q o.vs2.val = true) :
    bits (encF3R op o) 26 6 = op
      ∧ f3r (encF3R op o) = some o
      ∧ (encF3R op o) < 2 ^ 32 := by
  have u0 := o.vd.isLt
  have u1 := o.vs1.isLt
  have u2 := o.vs2.isLt
  have u3 := pgCode_lt o.pg
  have u4 := one_lt o.zm
  have u5 := one_lt o.w1
  have u6 := one_lt o.w2
  have u7 := one_lt o.q
  obtain ⟨w, hw⟩ : ∃ w, w = encF3R op o := ⟨_, rfl⟩
  rw [← hw]
  unfold encF3R at hw
  have b0 : bits w 21 5 = o.vd.val := bits_mid (hi := op) (low := (o.vs1.val) * 65536 + (o.vs2.val) * 2048 + (pgCode o.pg) * 32 + (one o.zm) * 16 + (one o.w1) * 8 + (one o.w2) * 4 + (one o.q) * 2) (P := 67108864) (Q := 2097152) (by norm_num) (by norm_num)
      (by rw [hw]; ring) (by clear hw; omega) (by omega)
  have b1 : bits w 16 5 = o.vs1.val := bits_mid (hi := op * 32 + (o.vd.val)) (low := (o.vs2.val) * 2048 + (pgCode o.pg) * 32 + (one o.zm) * 16 + (one o.w1) * 8 + (one o.w2) * 4 + (one o.q) * 2) (P := 2097152) (Q := 65536) (by norm_num) (by norm_num)
      (by rw [hw]; ring) (by clear hw; omega) (by omega)
  have b2 : bits w 11 5 = o.vs2.val := bits_mid (hi := op * 1024 + (o.vd.val) * 32 + (o.vs1.val)) (low := (pgCode o.pg) * 32 + (one o.zm) * 16 + (one o.w1) * 8 + (one o.w2) * 4 + (one o.q) * 2) (P := 65536) (Q := 2048) (by norm_num) (by norm_num)
      (by rw [hw]; ring) (by clear hw; omega) (by omega)
  have b3 : bits w 5 6 = pgCode o.pg := bits_mid (hi := op * 32768 + (o.vd.val) * 1024 + (o.vs1.val) * 32 + (o.vs2.val)) (low := (one o.zm) * 16 + (one o.w1) * 8 + (one o.w2) * 4 + (one o.q) * 2) (P := 2048) (Q := 32) (by norm_num) (by norm_num)
      (by rw [hw]; ring) (by clear hw; omega) (by omega)
  have b4 : bits w 4 1 = one o.zm := bits_mid (hi := op * 2097152 + (o.vd.val) * 65536 + (o.vs1.val) * 2048 + (o.vs2.val) * 64 + (pgCode o.pg)) (low := (one o.w1) * 8 + (one o.w2) * 4 + (one o.q) * 2) (P := 32) (Q := 16) (by norm_num) (by norm_num)
      (by rw [hw]; ring) (by clear hw; omega) (by omega)
  have b5 : bits w 3 1 = one o.w1 := bits_mid (hi := op * 4194304 + (o.vd.val) * 131072 + (o.vs1.val) * 4096 + (o.vs2.val) * 128 + (pgCode o.pg) * 2 + (one o.zm)) (low := (one o.w2) * 4 + (one o.q) * 2) (P := 16) (Q := 8) (by norm_num) (by norm_num)
      (by rw [hw]; ring) (by clear hw; omega) (by omega)
  have b6 : bits w 2 1 = one o.w2 := bits_mid (hi := op * 8388608 + (o.vd.val) * 262144 + (o.vs1.val) * 8192 + (o.vs2.val) * 256 + (pgCode o.pg) * 4 + (one o.zm) * 2 + (one o.w1)) (low := (one o.q) * 2) (P := 8) (Q := 4) (by norm_num) (by norm_num)
      (by rw [hw]; ring) (by clear hw; omega) (by omega)
  have b7 : bits w 1 1 = one o.q := bits_mid (hi := op * 16777216 + (o.vd.val) * 524288 + (o.vs1.val) * 16384 + (o.vs2.val) * 512 + (pgCode o.pg) * 8 + (one o.zm) * 4 + (one o.w1) * 2 + (one o.w2)) (low := 0) (P := 4) (Q := 2) (by norm_num) (by norm_num)
      (by rw [hw]; ring) (by clear hw; omega) (by omega)
  have c0 : bits w 0 1 = 0 := bits_mid (hi := op * 33554432 + (o.vd.val) * 1048576 + (o.vs1.val) * 32768 + (o.vs2.val) * 1024 + (pgCode o.pg) * 16 + (one o.zm) * 8 + (one o.w1) * 4 + (one o.w2) * 2 + (one o.q)) (low := 0) (P := 2) (Q := 1) (by norm_num) (by norm_num)
      (by rw [hw]; ring) (by clear hw; omega) (by omega)
  refine ⟨?_, ?_, ?_⟩
  · exact bits_top (low := (o.vd.val) * 2097152 + (o.vs1.val) * 65536 + (o.vs2.val) * 2048 + (pgCode o.pg) * 32 + (one o.zm) * 16 + (one o.w1) * 8 + (one o.w2) * 4 + (one o.q) * 2) (Q := 67108864) (by norm_num)
      (by rw [hw]; ring) (by clear hw; omega) (by omega)
  · simp [f3r, pgOf_pgCode, b2, hf, reg_of b0, reg_of b1, reg_of b2, b3, flag_of b4, flag_of b5, flag_of b6, flag_of b7, c0]
  · omega

/-- F2R words. -/
theorem f2r_encF2R {op : Nat} (o : F2R) (h : op < 64) (hf : wfPred o.pg o.zm = true) :
    bits (encF2R op o) 26 6 = op
      ∧ f2r (encF2R op o) = some o
      ∧ (encF2R op o) < 2 ^ 32 := by
  have u0 := o.vd.isLt
  have u1 := o.vs1.isLt
  have u2 := pgCode_lt o.pg
  have u3 := one_lt o.zm
  have u4 := one_lt o.w1
  have u5 := one_lt o.w2
  obtain ⟨w, hw⟩ : ∃ w, w = encF2R op o := ⟨_, rfl⟩
  rw [← hw]
  unfold encF2R at hw
  have b0 : bits w 21 5 = o.vd.val := bits_mid (hi := op) (low := (o.vs1.val) * 65536 + (pgCode o.pg) * 32 + (one o.zm) * 16 + (one o.w1) * 8 + (one o.w2) * 4) (P := 67108864) (Q := 2097152) (by norm_num) (by norm_num)
      (by rw [hw]; ring) (by clear hw; omega) (by omega)
  have b1 : bits w 16 5 = o.vs1.val := bits_mid (hi := op * 32 + (o.vd.val)) (low := (pgCode o.pg) * 32 + (one o.zm) * 16 + (one o.w1) * 8 + (one o.w2) * 4) (P := 2097152) (Q := 65536) (by norm_num) (by norm_num)
      (by rw [hw]; ring) (by clear hw; omega) (by omega)
  have b2 : bits w 5 6 = pgCode o.pg := bits_mid (hi := op * 32768 + (o.vd.val) * 1024 + (o.vs1.val) * 32) (low := (one o.zm) * 16 + (one o.w1) * 8 + (one o.w2) * 4) (P := 2048) (Q := 32) (by norm_num) (by norm_num)
      (by rw [hw]; ring) (by clear hw; omega) (by omega)
  have b3 : bits w 4 1 = one o.zm := bits_mid (hi := op * 2097152 + (o.vd.val) * 65536 + (o.vs1.val) * 2048 + (pgCode o.pg)) (low := (one o.w1) * 8 + (one o.w2) * 4) (P := 32) (Q := 16) (by norm_num) (by norm_num)
      (by rw [hw]; ring) (by clear hw; omega) (by omega)
  have b4 : bits w 3 1 = one o.w1 := bits_mid (hi := op * 4194304 + (o.vd.val) * 131072 + (o.vs1.val) * 4096 + (pgCode o.pg) * 2 + (one o.zm)) (low := (one o.w2) * 4) (P := 16) (Q := 8) (by norm_num) (by norm_num)
      (by rw [hw]; ring) (by clear hw; omega) (by omega)
  have b5 : bits w 2 1 = one o.w2 := bits_mid (hi := op * 8388608 + (o.vd.val) * 262144 + (o.vs1.val) * 8192 + (pgCode o.pg) * 4 + (one o.zm) * 2 + (one o.w1)) (low := 0) (P := 8) (Q := 4) (by norm_num) (by norm_num)
      (by rw [hw]; ring) (by clear hw; omega) (by omega)
  have c0 : bits w 11 5 = 0 := bits_mid (hi := op * 1024 + (o.vd.val) * 32 + (o.vs1.val)) (low := (pgCode o.pg) * 32 + (one o.zm) * 16 + (one o.w1) * 8 + (one o.w2) * 4) (P := 65536) (Q := 2048) (by norm_num) (by norm_num)
      (by rw [hw]; ring) (by clear hw; omega) (by omega)
  have c1 : bits w 0 2 = 0 := bits_mid (hi := op * 16777216 + (o.vd.val) * 524288 + (o.vs1.val) * 16384 + (pgCode o.pg) * 8 + (one o.zm) * 4 + (one o.w1) * 2 + (one o.w2)) (low := 0) (P := 4) (Q := 1) (by norm_num) (by norm_num)
      (by rw [hw]; ring) (by clear hw; omega) (by omega)
  refine ⟨?_, ?_, ?_⟩
  · exact bits_top (low := (o.vd.val) * 2097152 + (o.vs1.val) * 65536 + (pgCode o.pg) * 32 + (one o.zm) * 16 + (one o.w1) * 8 + (one o.w2) * 4) (Q := 67108864) (by norm_num)
      (by rw [hw]; ring) (by clear hw; omega) (by omega)
  · simp [f2r, pgOf_pgCode, v3rLegal, (by simpa [wfPred] using hf : o.pg.isSome = true ∨ o.zm = false), reg_of b0, reg_of b1, b2, flag_of b3, flag_of b4, flag_of b5, c0, c1]
  · omega

/-- BNET words. -/
theorem fnet_encFNet (o : FNet) (hf : v3rLegal o.pg false o.q o.vs2.val = true) :
    bits (encFNet o) 26 6 = 17
      ∧ fnet (encFNet o) = some o
      ∧ (encFNet o) < 2 ^ 32 := by
  have u0 := o.vd.isLt
  have u1 := o.vs1.isLt
  have u2 := o.vs2.isLt
  have u3 := pgCode_lt o.pg
  have u4 := o.pat.isLt
  have u5 := one_lt o.q
  obtain ⟨w, hw⟩ : ∃ w, w = encFNet o := ⟨_, rfl⟩
  rw [← hw]
  unfold encFNet at hw
  have b0 : bits w 21 5 = o.vd.val := bits_mid (hi := 17) (low := (o.vs1.val) * 65536 + (o.vs2.val) * 2048 + (pgCode o.pg) * 32 + (o.pat.val) * 4 + (one o.q) * 2) (P := 67108864) (Q := 2097152) (by norm_num) (by norm_num)
      (by rw [hw]; ring) (by clear hw; omega) (by omega)
  have b1 : bits w 16 5 = o.vs1.val := bits_mid (hi := 17 * 32 + (o.vd.val)) (low := (o.vs2.val) * 2048 + (pgCode o.pg) * 32 + (o.pat.val) * 4 + (one o.q) * 2) (P := 2097152) (Q := 65536) (by norm_num) (by norm_num)
      (by rw [hw]; ring) (by clear hw; omega) (by omega)
  have b2 : bits w 11 5 = o.vs2.val := bits_mid (hi := 17 * 1024 + (o.vd.val) * 32 + (o.vs1.val)) (low := (pgCode o.pg) * 32 + (o.pat.val) * 4 + (one o.q) * 2) (P := 65536) (Q := 2048) (by norm_num) (by norm_num)
      (by rw [hw]; ring) (by clear hw; omega) (by omega)
  have b3 : bits w 5 6 = pgCode o.pg := bits_mid (hi := 17 * 32768 + (o.vd.val) * 1024 + (o.vs1.val) * 32 + (o.vs2.val)) (low := (o.pat.val) * 4 + (one o.q) * 2) (P := 2048) (Q := 32) (by norm_num) (by norm_num)
      (by rw [hw]; ring) (by clear hw; omega) (by omega)
  have b4 : bits w 2 3 = o.pat.val := bits_mid (hi := 17 * 2097152 + (o.vd.val) * 65536 + (o.vs1.val) * 2048 + (o.vs2.val) * 64 + (pgCode o.pg)) (low := (one o.q) * 2) (P := 32) (Q := 4) (by norm_num) (by norm_num)
      (by rw [hw]; ring) (by clear hw; omega) (by omega)
  have b5 : bits w 1 1 = one o.q := bits_mid (hi := 17 * 16777216 + (o.vd.val) * 524288 + (o.vs1.val) * 16384 + (o.vs2.val) * 512 + (pgCode o.pg) * 8 + (o.pat.val)) (low := 0) (P := 4) (Q := 2) (by norm_num) (by norm_num)
      (by rw [hw]; ring) (by clear hw; omega) (by omega)
  have c0 : bits w 0 1 = 0 := bits_mid (hi := 17 * 33554432 + (o.vd.val) * 1048576 + (o.vs1.val) * 32768 + (o.vs2.val) * 1024 + (pgCode o.pg) * 16 + (o.pat.val) * 2 + (one o.q)) (low := 0) (P := 2) (Q := 1) (by norm_num) (by norm_num)
      (by rw [hw]; ring) (by clear hw; omega) (by omega)
  refine ⟨?_, ?_, ?_⟩
  · exact bits_top (low := (o.vd.val) * 2097152 + (o.vs1.val) * 65536 + (o.vs2.val) * 2048 + (pgCode o.pg) * 32 + (o.pat.val) * 4 + (one o.q) * 2) (Q := 67108864) (by norm_num)
      (by rw [hw]; ring) (by clear hw; omega) (by omega)
  · simp [fnet, pgOf_pgCode, b2, hf, reg_of b0, reg_of b1, reg_of b2, b3, b4, flag_of b5, c0]
  · omega

/-! ### M forms -/

/-- MM words. -/
theorem mmForm_encMM (o : MM) :
    bits (encMM o) 26 6 = 1
      ∧ mmForm (encMM o) = some o
      ∧ (encMM o) < 2 ^ 32 := by
  have u0 := o.z.isLt
  have u1 := o.w.isLt
  have u2 := o.xa.isLt
  have u3 := o.h.isLt
  have u4 := o.rows.isLt
  have u5 := o.planes.isLt
  have u6 := mmodeCode_lt o.mode
  have u7 := one_lt o.acc
  have u8 := one_lt o.wt
  obtain ⟨w, hw⟩ : ∃ w, w = encMM o := ⟨_, rfl⟩
  rw [← hw]
  unfold encMM at hw
  have b0 : bits w 25 1 = o.z.val := bits_mid (hi := 1) (low := (o.w.val) * 16777216 + (o.xa.val) * 524288 + (o.h.val) * 32768 + (o.rows.val) * 512 + (o.planes.val) * 32 + (mmodeCode o.mode) * 4 + (one o.acc) * 2 + (one o.wt)) (P := 67108864) (Q := 33554432) (by norm_num) (by norm_num)
      (by rw [hw]; ring) (by clear hw; omega) (by omega)
  have b1 : bits w 24 1 = o.w.val := bits_mid (hi := 1 * 2 + (o.z.val)) (low := (o.xa.val) * 524288 + (o.h.val) * 32768 + (o.rows.val) * 512 + (o.planes.val) * 32 + (mmodeCode o.mode) * 4 + (one o.acc) * 2 + (one o.wt)) (P := 33554432) (Q := 16777216) (by norm_num) (by norm_num)
      (by rw [hw]; ring) (by clear hw; omega) (by omega)
  have b2 : bits w 19 5 = o.xa.val := bits_mid (hi := 1 * 4 + (o.z.val) * 2 + (o.w.val)) (low := (o.h.val) * 32768 + (o.rows.val) * 512 + (o.planes.val) * 32 + (mmodeCode o.mode) * 4 + (one o.acc) * 2 + (one o.wt)) (P := 16777216) (Q := 524288) (by norm_num) (by norm_num)
      (by rw [hw]; ring) (by clear hw; omega) (by omega)
  have b3 : bits w 15 4 = o.h.val := bits_mid (hi := 1 * 128 + (o.z.val) * 64 + (o.w.val) * 32 + (o.xa.val)) (low := (o.rows.val) * 512 + (o.planes.val) * 32 + (mmodeCode o.mode) * 4 + (one o.acc) * 2 + (one o.wt)) (P := 524288) (Q := 32768) (by norm_num) (by norm_num)
      (by rw [hw]; ring) (by clear hw; omega) (by omega)
  have b4 : bits w 9 6 = o.rows.val := bits_mid (hi := 1 * 2048 + (o.z.val) * 1024 + (o.w.val) * 512 + (o.xa.val) * 16 + (o.h.val)) (low := (o.planes.val) * 32 + (mmodeCode o.mode) * 4 + (one o.acc) * 2 + (one o.wt)) (P := 32768) (Q := 512) (by norm_num) (by norm_num)
      (by rw [hw]; ring) (by clear hw; omega) (by omega)
  have b5 : bits w 5 4 = o.planes.val := bits_mid (hi := 1 * 131072 + (o.z.val) * 65536 + (o.w.val) * 32768 + (o.xa.val) * 1024 + (o.h.val) * 64 + (o.rows.val)) (low := (mmodeCode o.mode) * 4 + (one o.acc) * 2 + (one o.wt)) (P := 512) (Q := 32) (by norm_num) (by norm_num)
      (by rw [hw]; ring) (by clear hw; omega) (by omega)
  have b6 : bits w 2 3 = mmodeCode o.mode := bits_mid (hi := 1 * 2097152 + (o.z.val) * 1048576 + (o.w.val) * 524288 + (o.xa.val) * 16384 + (o.h.val) * 1024 + (o.rows.val) * 16 + (o.planes.val)) (low := (one o.acc) * 2 + (one o.wt)) (P := 32) (Q := 4) (by norm_num) (by norm_num)
      (by rw [hw]; ring) (by clear hw; omega) (by omega)
  have b7 : bits w 1 1 = one o.acc := bits_mid (hi := 1 * 16777216 + (o.z.val) * 8388608 + (o.w.val) * 4194304 + (o.xa.val) * 131072 + (o.h.val) * 8192 + (o.rows.val) * 128 + (o.planes.val) * 8 + (mmodeCode o.mode)) (low := (one o.wt)) (P := 4) (Q := 2) (by norm_num) (by norm_num)
      (by rw [hw]; ring) (by clear hw; omega) (by omega)
  have b8 : bits w 0 1 = one o.wt := bits_mid (hi := 1 * 33554432 + (o.z.val) * 16777216 + (o.w.val) * 8388608 + (o.xa.val) * 262144 + (o.h.val) * 16384 + (o.rows.val) * 256 + (o.planes.val) * 16 + (mmodeCode o.mode) * 2 + (one o.acc)) (low := 0) (P := 2) (Q := 1) (by norm_num) (by norm_num)
      (by rw [hw]; ring) (by clear hw; omega) (by omega)
  refine ⟨?_, ?_, ?_⟩
  · exact bits_top (low := (o.z.val) * 33554432 + (o.w.val) * 16777216 + (o.xa.val) * 524288 + (o.h.val) * 32768 + (o.rows.val) * 512 + (o.planes.val) * 32 + (mmodeCode o.mode) * 4 + (one o.acc) * 2 + (one o.wt)) (Q := 67108864) (by norm_num)
      (by rw [hw]; ring) (by clear hw; omega) (by omega)
  · simp [mmForm, mmodeOf_mmodeCode, b0, b1, reg_of b2, hnd_of b3, b4, b5, b6, flag_of b7, flag_of b8]
  · omega

/-- MW words. -/
theorem mwForm_encMW {op : Nat} (o : MW) (h : op < 64) (hf : packAllows o.fmt o.pack = true) :
    bits (encMW op o) 26 6 = op
      ∧ mwForm (encMW op o) = some o
      ∧ (encMW op o) < 2 ^ 32 := by
  have u0 := o.w.isLt
  have u1 := o.xa.isLt
  have u2 := o.h.isLt
  have u3 := fmtCode_lt o.fmt
  have u4 := packCode_lt o.pack
  have u5 := rndCode_lt o.rnd
  have u6 := one_lt o.sat
  have u7 := one_lt o.strict
  have u8 := one_lt o.wt
  obtain ⟨w, hw⟩ : ∃ w, w = encMW op o := ⟨_, rfl⟩
  rw [← hw]
  unfold encMW at hw
  have b0 : bits w 25 1 = o.w.val := bits_mid (hi := op) (low := (o.xa.val) * 1048576 + (o.h.val) * 65536 + (fmtCode o.fmt) * 4096 + (packCode o.pack) * 1024 + (rndCode o.rnd) * 128 + (one o.sat) * 64 + (one o.strict) * 32 + (one o.wt) * 16) (P := 67108864) (Q := 33554432) (by norm_num) (by norm_num)
      (by rw [hw]; ring) (by clear hw; omega) (by omega)
  have b1 : bits w 20 5 = o.xa.val := bits_mid (hi := op * 2 + (o.w.val)) (low := (o.h.val) * 65536 + (fmtCode o.fmt) * 4096 + (packCode o.pack) * 1024 + (rndCode o.rnd) * 128 + (one o.sat) * 64 + (one o.strict) * 32 + (one o.wt) * 16) (P := 33554432) (Q := 1048576) (by norm_num) (by norm_num)
      (by rw [hw]; ring) (by clear hw; omega) (by omega)
  have b2 : bits w 16 4 = o.h.val := bits_mid (hi := op * 64 + (o.w.val) * 32 + (o.xa.val)) (low := (fmtCode o.fmt) * 4096 + (packCode o.pack) * 1024 + (rndCode o.rnd) * 128 + (one o.sat) * 64 + (one o.strict) * 32 + (one o.wt) * 16) (P := 1048576) (Q := 65536) (by norm_num) (by norm_num)
      (by rw [hw]; ring) (by clear hw; omega) (by omega)
  have b3 : bits w 12 4 = fmtCode o.fmt := bits_mid (hi := op * 1024 + (o.w.val) * 512 + (o.xa.val) * 16 + (o.h.val)) (low := (packCode o.pack) * 1024 + (rndCode o.rnd) * 128 + (one o.sat) * 64 + (one o.strict) * 32 + (one o.wt) * 16) (P := 65536) (Q := 4096) (by norm_num) (by norm_num)
      (by rw [hw]; ring) (by clear hw; omega) (by omega)
  have b4 : bits w 10 2 = packCode o.pack := bits_mid (hi := op * 16384 + (o.w.val) * 8192 + (o.xa.val) * 256 + (o.h.val) * 16 + (fmtCode o.fmt)) (low := (rndCode o.rnd) * 128 + (one o.sat) * 64 + (one o.strict) * 32 + (one o.wt) * 16) (P := 4096) (Q := 1024) (by norm_num) (by norm_num)
      (by rw [hw]; ring) (by clear hw; omega) (by omega)
  have b5 : bits w 7 3 = rndCode o.rnd := bits_mid (hi := op * 65536 + (o.w.val) * 32768 + (o.xa.val) * 1024 + (o.h.val) * 64 + (fmtCode o.fmt) * 4 + (packCode o.pack)) (low := (one o.sat) * 64 + (one o.strict) * 32 + (one o.wt) * 16) (P := 1024) (Q := 128) (by norm_num) (by norm_num)
      (by rw [hw]; ring) (by clear hw; omega) (by omega)
  have b6 : bits w 6 1 = one o.sat := bits_mid (hi := op * 524288 + (o.w.val) * 262144 + (o.xa.val) * 8192 + (o.h.val) * 512 + (fmtCode o.fmt) * 32 + (packCode o.pack) * 8 + (rndCode o.rnd)) (low := (one o.strict) * 32 + (one o.wt) * 16) (P := 128) (Q := 64) (by norm_num) (by norm_num)
      (by rw [hw]; ring) (by clear hw; omega) (by omega)
  have b7 : bits w 5 1 = one o.strict := bits_mid (hi := op * 1048576 + (o.w.val) * 524288 + (o.xa.val) * 16384 + (o.h.val) * 1024 + (fmtCode o.fmt) * 64 + (packCode o.pack) * 16 + (rndCode o.rnd) * 2 + (one o.sat)) (low := (one o.wt) * 16) (P := 64) (Q := 32) (by norm_num) (by norm_num)
      (by rw [hw]; ring) (by clear hw; omega) (by omega)
  have b8 : bits w 4 1 = one o.wt := bits_mid (hi := op * 2097152 + (o.w.val) * 1048576 + (o.xa.val) * 32768 + (o.h.val) * 2048 + (fmtCode o.fmt) * 128 + (packCode o.pack) * 32 + (rndCode o.rnd) * 4 + (one o.sat) * 2 + (one o.strict)) (low := 0) (P := 32) (Q := 16) (by norm_num) (by norm_num)
      (by rw [hw]; ring) (by clear hw; omega) (by omega)
  have c0 : bits w 0 4 = 0 := bits_mid (hi := op * 4194304 + (o.w.val) * 2097152 + (o.xa.val) * 65536 + (o.h.val) * 4096 + (fmtCode o.fmt) * 256 + (packCode o.pack) * 64 + (rndCode o.rnd) * 8 + (one o.sat) * 4 + (one o.strict) * 2 + (one o.wt)) (low := 0) (P := 16) (Q := 1) (by norm_num) (by norm_num)
      (by rw [hw]; ring) (by clear hw; omega) (by omega)
  refine ⟨?_, ?_, ?_⟩
  · exact bits_top (low := (o.w.val) * 33554432 + (o.xa.val) * 1048576 + (o.h.val) * 65536 + (fmtCode o.fmt) * 4096 + (packCode o.pack) * 1024 + (rndCode o.rnd) * 128 + (one o.sat) * 64 + (one o.strict) * 32 + (one o.wt) * 16) (Q := 67108864) (by norm_num)
      (by rw [hw]; ring) (by clear hw; omega) (by omega)
  · simp [mwForm, fmtOf_fmtCode, packOf_packCode, rndOf_rndCode, hf, b0, reg_of b1, hnd_of b2, b3, b4, b5, flag_of b6, flag_of b7, flag_of b8, c0]
  · omega

/-- MR words. -/
theorem mrForm_encMR (o : MR) (hf : retFmt o.fout = true) :
    bits (encMR o) 26 6 = 6
      ∧ mrForm (encMR o) = some o
      ∧ (encMR o) < 2 ^ 32 := by
  have u0 := o.z.isLt
  have u1 := o.xa.isLt
  have u2 := o.h.isLt
  have u3 := fmtCode_lt o.fout
  have u4 := rndCode_lt o.rnd
  have u5 := one_lt o.sat
  have u6 := o.xs.isLt
  have u7 := one_lt o.wt
  obtain ⟨w, hw⟩ : ∃ w, w = encMR o := ⟨_, rfl⟩
  rw [← hw]
  unfold encMR at hw
  have b0 : bits w 25 1 = o.z.val := bits_mid (hi := 6) (low := (o.xa.val) * 1048576 + (o.h.val) * 65536 + (fmtCode o.fout) * 4096 + (rndCode o.rnd) * 512 + (one o.sat) * 256 + (o.xs.val) * 8 + (one o.wt) * 4) (P := 67108864) (Q := 33554432) (by norm_num) (by norm_num)
      (by rw [hw]; ring) (by clear hw; omega) (by omega)
  have b1 : bits w 20 5 = o.xa.val := bits_mid (hi := 6 * 2 + (o.z.val)) (low := (o.h.val) * 65536 + (fmtCode o.fout) * 4096 + (rndCode o.rnd) * 512 + (one o.sat) * 256 + (o.xs.val) * 8 + (one o.wt) * 4) (P := 33554432) (Q := 1048576) (by norm_num) (by norm_num)
      (by rw [hw]; ring) (by clear hw; omega) (by omega)
  have b2 : bits w 16 4 = o.h.val := bits_mid (hi := 6 * 64 + (o.z.val) * 32 + (o.xa.val)) (low := (fmtCode o.fout) * 4096 + (rndCode o.rnd) * 512 + (one o.sat) * 256 + (o.xs.val) * 8 + (one o.wt) * 4) (P := 1048576) (Q := 65536) (by norm_num) (by norm_num)
      (by rw [hw]; ring) (by clear hw; omega) (by omega)
  have b3 : bits w 12 4 = fmtCode o.fout := bits_mid (hi := 6 * 1024 + (o.z.val) * 512 + (o.xa.val) * 16 + (o.h.val)) (low := (rndCode o.rnd) * 512 + (one o.sat) * 256 + (o.xs.val) * 8 + (one o.wt) * 4) (P := 65536) (Q := 4096) (by norm_num) (by norm_num)
      (by rw [hw]; ring) (by clear hw; omega) (by omega)
  have b4 : bits w 9 3 = rndCode o.rnd := bits_mid (hi := 6 * 16384 + (o.z.val) * 8192 + (o.xa.val) * 256 + (o.h.val) * 16 + (fmtCode o.fout)) (low := (one o.sat) * 256 + (o.xs.val) * 8 + (one o.wt) * 4) (P := 4096) (Q := 512) (by norm_num) (by norm_num)
      (by rw [hw]; ring) (by clear hw; omega) (by omega)
  have b5 : bits w 8 1 = one o.sat := bits_mid (hi := 6 * 131072 + (o.z.val) * 65536 + (o.xa.val) * 2048 + (o.h.val) * 128 + (fmtCode o.fout) * 8 + (rndCode o.rnd)) (low := (o.xs.val) * 8 + (one o.wt) * 4) (P := 512) (Q := 256) (by norm_num) (by norm_num)
      (by rw [hw]; ring) (by clear hw; omega) (by omega)
  have b6 : bits w 3 5 = o.xs.val := bits_mid (hi := 6 * 262144 + (o.z.val) * 131072 + (o.xa.val) * 4096 + (o.h.val) * 256 + (fmtCode o.fout) * 16 + (rndCode o.rnd) * 2 + (one o.sat)) (low := (one o.wt) * 4) (P := 256) (Q := 8) (by norm_num) (by norm_num)
      (by rw [hw]; ring) (by clear hw; omega) (by omega)
  have b7 : bits w 2 1 = one o.wt := bits_mid (hi := 6 * 8388608 + (o.z.val) * 4194304 + (o.xa.val) * 131072 + (o.h.val) * 8192 + (fmtCode o.fout) * 512 + (rndCode o.rnd) * 64 + (one o.sat) * 32 + (o.xs.val)) (low := 0) (P := 8) (Q := 4) (by norm_num) (by norm_num)
      (by rw [hw]; ring) (by clear hw; omega) (by omega)
  have c0 : bits w 0 2 = 0 := bits_mid (hi := 6 * 16777216 + (o.z.val) * 8388608 + (o.xa.val) * 262144 + (o.h.val) * 16384 + (fmtCode o.fout) * 1024 + (rndCode o.rnd) * 128 + (one o.sat) * 64 + (o.xs.val) * 2 + (one o.wt)) (low := 0) (P := 4) (Q := 1) (by norm_num) (by norm_num)
      (by rw [hw]; ring) (by clear hw; omega) (by omega)
  refine ⟨?_, ?_, ?_⟩
  · exact bits_top (low := (o.z.val) * 33554432 + (o.xa.val) * 1048576 + (o.h.val) * 65536 + (fmtCode o.fout) * 4096 + (rndCode o.rnd) * 512 + (one o.sat) * 256 + (o.xs.val) * 8 + (one o.wt) * 4) (Q := 67108864) (by norm_num)
      (by rw [hw]; ring) (by clear hw; omega) (by omega)
  · simp [mrForm, fmtOf_fmtCode, rndOf_rndCode, hf, b0, reg_of b1, hnd_of b2, b3, b4, flag_of b5, reg_of b6, flag_of b7, c0]
  · omega

/-! ### D forms -/

/-- DCOPY words. -/
theorem dcForm_encDC {mode : Nat} (o : DC) (h : mode < 8) :
    bits (encDC mode o) 26 6 = 2
      ∧ bits (encDC mode o) 0 3 = mode
      ∧ dcForm (encDC mode o) = o
      ∧ (encDC mode o) < 2 ^ 32 := by
  have u0 := o.hs.isLt
  have u1 := o.hd.isLt
  have u2 := o.xs.isLt
  have u3 := o.xd.isLt
  have u4 := o.xk.isLt
  obtain ⟨w, hw⟩ : ∃ w, w = encDC mode o := ⟨_, rfl⟩
  rw [← hw]
  unfold encDC at hw
  have b0 : bits w 22 4 = o.hs.val := bits_mid (hi := 2) (low := mode + (o.hd.val) * 262144 + (o.xs.val) * 8192 + (o.xd.val) * 256 + (o.xk.val) * 8) (P := 67108864) (Q := 4194304) (by norm_num) (by norm_num)
      (by rw [hw]; ring) (by clear hw; omega) (by omega)
  have b1 : bits w 18 4 = o.hd.val := bits_mid (hi := 2 * 16 + (o.hs.val)) (low := mode + (o.xs.val) * 8192 + (o.xd.val) * 256 + (o.xk.val) * 8) (P := 4194304) (Q := 262144) (by norm_num) (by norm_num)
      (by rw [hw]; ring) (by clear hw; omega) (by omega)
  have b2 : bits w 13 5 = o.xs.val := bits_mid (hi := 2 * 256 + (o.hs.val) * 16 + (o.hd.val)) (low := mode + (o.xd.val) * 256 + (o.xk.val) * 8) (P := 262144) (Q := 8192) (by norm_num) (by norm_num)
      (by rw [hw]; ring) (by clear hw; omega) (by omega)
  have b3 : bits w 8 5 = o.xd.val := bits_mid (hi := 2 * 8192 + (o.hs.val) * 512 + (o.hd.val) * 32 + (o.xs.val)) (low := mode + (o.xk.val) * 8) (P := 8192) (Q := 256) (by norm_num) (by norm_num)
      (by rw [hw]; ring) (by clear hw; omega) (by omega)
  have b4 : bits w 3 5 = o.xk.val := bits_mid (hi := 2 * 262144 + (o.hs.val) * 16384 + (o.hd.val) * 1024 + (o.xs.val) * 32 + (o.xd.val)) (low := mode) (P := 256) (Q := 8) (by norm_num) (by norm_num)
      (by rw [hw]; ring) (by clear hw; omega) (by omega)
  refine ⟨?_, ?_, ?_, ?_⟩
  · exact bits_top (low := mode + (o.hs.val) * 4194304 + (o.hd.val) * 262144 + (o.xs.val) * 8192 + (o.xd.val) * 256 + (o.xk.val) * 8) (Q := 67108864) (by norm_num)
      (by rw [hw]; ring) (by clear hw; omega) (by omega)
  · exact bits_mid (hi := 2 * 8388608 + (o.hs.val) * 524288 + (o.hd.val) * 32768 + (o.xs.val) * 1024 + (o.xd.val) * 32 + (o.xk.val)) (low := 0) (P := 8) (Q := 1) (by norm_num) (by norm_num)
      (by rw [hw]; ring) (by clear hw; omega) (by omega)
  · simp [dcForm, hnd_of b0, hnd_of b1, reg_of b2, reg_of b3, reg_of b4]
  · omega

/-- DI words. -/
theorem diForm_encDI {op : Nat} (o : DI) (h : op < 64) :
    bits (encDI op o) 26 6 = op
      ∧ diForm (encDI op o) = some o
      ∧ (encDI op o) < 2 ^ 32 := by
  have u0 := o.h.isLt
  have u1 := o.xa.isLt
  have u2 := o.xn.isLt
  obtain ⟨w, hw⟩ : ∃ w, w = encDI op o := ⟨_, rfl⟩
  rw [← hw]
  unfold encDI at hw
  have b0 : bits w 22 4 = o.h.val := bits_mid (hi := op) (low := (o.xa.val) * 131072 + (o.xn.val) * 4096) (P := 67108864) (Q := 4194304) (by norm_num) (by norm_num)
      (by rw [hw]; ring) (by clear hw; omega) (by omega)
  have b1 : bits w 17 5 = o.xa.val := bits_mid (hi := op * 16 + (o.h.val)) (low := (o.xn.val) * 4096) (P := 4194304) (Q := 131072) (by norm_num) (by norm_num)
      (by rw [hw]; ring) (by clear hw; omega) (by omega)
  have b2 : bits w 12 5 = o.xn.val := bits_mid (hi := op * 512 + (o.h.val) * 32 + (o.xa.val)) (low := 0) (P := 131072) (Q := 4096) (by norm_num) (by norm_num)
      (by rw [hw]; ring) (by clear hw; omega) (by omega)
  have c0 : bits w 0 12 = 0 := bits_mid (hi := op * 16384 + (o.h.val) * 1024 + (o.xa.val) * 32 + (o.xn.val)) (low := 0) (P := 4096) (Q := 1) (by norm_num) (by norm_num)
      (by rw [hw]; ring) (by clear hw; omega) (by omega)
  refine ⟨?_, ?_, ?_⟩
  · exact bits_top (low := (o.h.val) * 4194304 + (o.xa.val) * 131072 + (o.xn.val) * 4096) (Q := 67108864) (by norm_num)
      (by rw [hw]; ring) (by clear hw; omega) (by omega)
  · simp [diForm, hnd_of b0, reg_of b1, reg_of b2, c0]
  · omega

/-- DCOLL words. -/
theorem dkForm_encDK (o : DK) (hf : (o.scope == .pkg || o.scope == .pod) = true) :
    bits (encDK o) 26 6 = 8
      ∧ dkForm (encDK o) = some o
      ∧ (encDK o) < 2 ^ 32 := by
  have u0 := o.h.isLt
  have u1 := o.xa.isLt
  have u2 := o.xn.isLt
  have u3 := collKindCode_lt o.kind
  have u4 := scopeCode_lt o.scope
  obtain ⟨w, hw⟩ : ∃ w, w = encDK o := ⟨_, rfl⟩
  rw [← hw]
  unfold encDK at hw
  have b0 : bits w 22 4 = o.h.val := bits_mid (hi := 8) (low := (o.xa.val) * 131072 + (o.xn.val) * 4096 + (collKindCode o.kind) * 1024 + (scopeCode o.scope) * 128) (P := 67108864) (Q := 4194304) (by norm_num) (by norm_num)
      (by rw [hw]; ring) (by clear hw; omega) (by omega)
  have b1 : bits w 17 5 = o.xa.val := bits_mid (hi := 8 * 16 + (o.h.val)) (low := (o.xn.val) * 4096 + (collKindCode o.kind) * 1024 + (scopeCode o.scope) * 128) (P := 4194304) (Q := 131072) (by norm_num) (by norm_num)
      (by rw [hw]; ring) (by clear hw; omega) (by omega)
  have b2 : bits w 12 5 = o.xn.val := bits_mid (hi := 8 * 512 + (o.h.val) * 32 + (o.xa.val)) (low := (collKindCode o.kind) * 1024 + (scopeCode o.scope) * 128) (P := 131072) (Q := 4096) (by norm_num) (by norm_num)
      (by rw [hw]; ring) (by clear hw; omega) (by omega)
  have b3 : bits w 10 2 = collKindCode o.kind := bits_mid (hi := 8 * 16384 + (o.h.val) * 1024 + (o.xa.val) * 32 + (o.xn.val)) (low := (scopeCode o.scope) * 128) (P := 4096) (Q := 1024) (by norm_num) (by norm_num)
      (by rw [hw]; ring) (by clear hw; omega) (by omega)
  have b4 : bits w 7 3 = scopeCode o.scope := bits_mid (hi := 8 * 65536 + (o.h.val) * 4096 + (o.xa.val) * 128 + (o.xn.val) * 4 + (collKindCode o.kind)) (low := 0) (P := 1024) (Q := 128) (by norm_num) (by norm_num)
      (by rw [hw]; ring) (by clear hw; omega) (by omega)
  have c0 : bits w 0 7 = 0 := bits_mid (hi := 8 * 524288 + (o.h.val) * 32768 + (o.xa.val) * 1024 + (o.xn.val) * 32 + (collKindCode o.kind) * 8 + (scopeCode o.scope)) (low := 0) (P := 128) (Q := 1) (by norm_num) (by norm_num)
      (by rw [hw]; ring) (by clear hw; omega) (by omega)
  refine ⟨?_, ?_, ?_⟩
  · exact bits_top (low := (o.h.val) * 4194304 + (o.xa.val) * 131072 + (o.xn.val) * 4096 + (collKindCode o.kind) * 1024 + (scopeCode o.scope) * 128) (Q := 67108864) (by norm_num)
      (by rw [hw]; ring) (by clear hw; omega) (by omega)
  · simp [dkForm, scopeOf_scopeCode, collKindOf_collKindCode, (by cases hs : o.scope <;> simp_all [scopeCode] : 3 ≤ scopeCode o.scope), hnd_of b0, reg_of b1, reg_of b2, b3, b4, c0]
  · omega

end Sys2Proof.Laws
end

