-- ==== Sys2Proof/Laws/PerInstr.lean ====
section
/-! SUPPORT. Decoding an encoded instruction gives it back: one lemma per constructor. -/

namespace Sys2Proof.Laws

open Sys2Proof

theorem encR_two (b : Nat) (o : RType) : encR b o + 2 = encR (b + 2) o := by simp only [encR]; omega
theorem encI_two (b : Nat) (o : IType) : encI b o + 2 = encI (b + 2) o := by simp only [encI]; omega
theorem encS_two (b : Nat) (o : SType) : encS b o + 2 = encS (b + 2) o := by simp only [encS]; omega
theorem encB_two (b : Nat) (o : BType) : encB b o + 2 = encB (b + 2) o := by simp only [encB]; omega
theorem encSh_two (b : Nat) (o : ShType) : encSh b o + 2 = encSh (b + 2) o := by simp only [encSh]; omega

end Sys2Proof.Laws

namespace Sys2Proof.Laws.RoundTrip

open Sys2Proof Sys2Proof.Laws

/-- A well-formed instruction's word has 32 bits and decodes, in its slot, to the instruction; an S word does so with either yield
mark (R26). A token's word has 16 bits and decodes to it. An event has no word. -/
def Statement (i : Instr) : Prop :=
  wellFormed i = true → match slotOf i, encode i with
    | some sl, some w => w < 2 ^ 32 ∧ decodeWord sl w = i ∧ (sl = .s → decodeS w = some i → decodeS (w + 2) = some i)
    | none, some w => w < 2 ^ 16 ∧ decodeToken w = i
    | _, none => True

/-- An S word that decodes with either yield mark. -/
theorem ofS {i : Instr} {w : Nat} (hs : slotOf i = some .s) (he : encode i = some w) (hw : w < 2 ^ 32) (h1 : decodeS w = some i)
    (h2 : decodeS (w + 2) = some i) : Statement i := by
  intro _
  rw [hs, he]
  exact ⟨hw, by rw [decodeWord, decodeSlot, h1]; rfl, fun _ _ => h2⟩

/-- A word of another slot. -/
theorem ofSlot {i : Instr} {sl : Slot} {w : Nat} (hs : slotOf i = some sl) (hn : sl ≠ .s) (he : encode i = some w) (hw : w < 2 ^ 32)
    (h1 : decodeSlot sl w = some i) : Statement i := by
  intro _
  rw [hs, he]
  exact ⟨hw, by rw [decodeWord, h1]; rfl, fun h => absurd h hn⟩

theorem lui (rd : Fin 32) (imm : BitVec 20) : Statement (.lui rd imm) := by
  intro hf
  have u0 := rd.isLt
  have u1 := imm.isLt
  have key : ∀ m w, m < 2 → w = 53 + 2 * m + rd.val * 2 ^ 7 + imm.toNat * 2 ^ 12 → decodeS w = some (.lui rd imm) := by
    intro m w hm hw
    have d0 : bits w 0 1 = 1 := by simp only [bits]; omega
    have d1 : bits w 2 5 = 13 := by simp only [bits]; omega
    have b0 : bits w 7 5 = rd.val := by rw [show bits w 7 5 = w / 2 ^ 7 % 2 ^ 5 from rfl]; omega
    have b1 : bits w 12 20 = imm.toNat := by rw [show bits w 12 20 = w / 2 ^ 12 % 2 ^ 20 from rfl]; omega
    simp [decodeS, d0, d1, reg_of b0, b1]
  exact ofS rfl rfl (by omega) (key 0 _ (by omega) (by omega)) (key 1 _ (by omega) (by omega)) hf
theorem auipc (rd : Fin 32) (imm : BitVec 20) : Statement (.auipc rd imm) := by
  intro hf
  have u0 := rd.isLt
  have u1 := imm.isLt
  have key : ∀ m w, m < 2 → w = 21 + 2 * m + rd.val * 2 ^ 7 + imm.toNat * 2 ^ 12 → decodeS w = some (.auipc rd imm) := by
    intro m w hm hw
    have d0 : bits w 0 1 = 1 := by simp only [bits]; omega
    have d1 : bits w 2 5 = 5 := by simp only [bits]; omega
    have b0 : bits w 7 5 = rd.val := by rw [show bits w 7 5 = w / 2 ^ 7 % 2 ^ 5 from rfl]; omega
    have b1 : bits w 12 20 = imm.toNat := by rw [show bits w 12 20 = w / 2 ^ 12 % 2 ^ 20 from rfl]; omega
    simp [decodeS, d0, d1, reg_of b0, b1]
  exact ofS rfl rfl (by omega) (key 0 _ (by omega) (by omega)) (key 1 _ (by omega) (by omega)) hf
theorem jal (rd : Fin 32) (imm : BitVec 20) : Statement (.jal rd imm) := by
  intro hf
  have u0 := rd.isLt
  have u1 := bits_lt imm.toNat 11 8
  have u2 := bits_lt imm.toNat 10 1
  have u3 := bits_lt imm.toNat 0 10
  have u4 := bits_lt imm.toNat 19 1
  have key : ∀ m w, m < 2 → w = 109 + 2 * m + rd.val * 2 ^ 7 + bits imm.toNat 11 8 * 2 ^ 12 + bits imm.toNat 10 1 * 2 ^ 20 + bits imm.toNat 0 10 * 2 ^ 21 + bits imm.toNat 19 1 * 2 ^ 31 → decodeS w = some (.jal rd imm) := by
    intro m w hm hw
    have d0 : bits w 0 1 = 1 := by simp only [bits]; omega
    have d1 : bits w 2 5 = 27 := by simp only [bits]; omega
    have b0 : bits w 7 5 = rd.val := by rw [show bits w 7 5 = w / 2 ^ 7 % 2 ^ 5 from rfl]; omega
    have b1 : bits w 31 1 = bits imm.toNat 19 1 := by rw [show bits w 31 1 = w / 2 ^ 31 % 2 ^ 1 from rfl]; omega
    have b2 : bits w 12 8 = bits imm.toNat 11 8 := by rw [show bits w 12 8 = w / 2 ^ 12 % 2 ^ 8 from rfl]; omega
    have b3 : bits w 20 1 = bits imm.toNat 10 1 := by rw [show bits w 20 1 = w / 2 ^ 20 % 2 ^ 1 from rfl]; omega
    have b4 : bits w 21 10 = bits imm.toNat 0 10 := by rw [show bits w 21 10 = w / 2 ^ 21 % 2 ^ 10 from rfl]; omega
    have e : bits imm.toNat 19 1 * 524288 + bits imm.toNat 11 8 * 2048 + bits imm.toNat 10 1 * 1024 + bits imm.toNat 0 10 = imm.toNat := by
      have := imm.isLt; simp only [bits]; omega
    simp [decodeS, d0, d1, reg_of b0, b1, b2, b3, b4, e]
  exact ofS rfl rfl (by omega) (key 0 _ (by omega) (by omega)) (key 1 _ (by omega) (by omega)) hf
theorem jalr (o : IType) : Statement (.jalr o) := by
  intro hf
  have p := iType_encI (base := 101) (m := 0) (op := 25) (f3 := 0) o (by norm_num) (by norm_num) (by norm_num) rfl
  have q := iType_encI (base := 103) (m := 1) (op := 25) (f3 := 0) o (by norm_num) (by norm_num) (by norm_num) rfl
  exact ofS rfl rfl p.2.2.2.2 (by simp [decodeS, p]) (by rw [encI_two]; simp [decodeS, q]) hf
theorem beq (o : BType) : Statement (.beq o) := by
  intro hf
  have p := bType_encB (base := 97) (m := 0) (op := 24) (f3 := 0) o (by norm_num) (by norm_num) (by norm_num) rfl
  have q := bType_encB (base := 99) (m := 1) (op := 24) (f3 := 0) o (by norm_num) (by norm_num) (by norm_num) rfl
  exact ofS rfl rfl p.2.2.2.2 (by simp [decodeS, decodeBranch, p]) (by rw [encB_two]; simp [decodeS, decodeBranch, q]) hf
theorem bne (o : BType) : Statement (.bne o) := by
  intro hf
  have p := bType_encB (base := 4193) (m := 0) (op := 24) (f3 := 1) o (by norm_num) (by norm_num) (by norm_num) rfl
  have q := bType_encB (base := 4195) (m := 1) (op := 24) (f3 := 1) o (by norm_num) (by norm_num) (by norm_num) rfl
  exact ofS rfl rfl p.2.2.2.2 (by simp [decodeS, decodeBranch, p]) (by rw [encB_two]; simp [decodeS, decodeBranch, q]) hf
theorem blt (o : BType) : Statement (.blt o) := by
  intro hf
  have p := bType_encB (base := 16481) (m := 0) (op := 24) (f3 := 4) o (by norm_num) (by norm_num) (by norm_num) rfl
  have q := bType_encB (base := 16483) (m := 1) (op := 24) (f3 := 4) o (by norm_num) (by norm_num) (by norm_num) rfl
  exact ofS rfl rfl p.2.2.2.2 (by simp [decodeS, decodeBranch, p]) (by rw [encB_two]; simp [decodeS, decodeBranch, q]) hf
theorem bge (o : BType) : Statement (.bge o) := by
  intro hf
  have p := bType_encB (base := 20577) (m := 0) (op := 24) (f3 := 5) o (by norm_num) (by norm_num) (by norm_num) rfl
  have q := bType_encB (base := 20579) (m := 1) (op := 24) (f3 := 5) o (by norm_num) (by norm_num) (by norm_num) rfl
  exact ofS rfl rfl p.2.2.2.2 (by simp [decodeS, decodeBranch, p]) (by rw [encB_two]; simp [decodeS, decodeBranch, q]) hf
theorem bltu (o : BType) : Statement (.bltu o) := by
  intro hf
  have p := bType_encB (base := 24673) (m := 0) (op := 24) (f3 := 6) o (by norm_num) (by norm_num) (by norm_num) rfl
  have q := bType_encB (base := 24675) (m := 1) (op := 24) (f3 := 6) o (by norm_num) (by norm_num) (by norm_num) rfl
  exact ofS rfl rfl p.2.2.2.2 (by simp [decodeS, decodeBranch, p]) (by rw [encB_two]; simp [decodeS, decodeBranch, q]) hf
theorem bgeu (o : BType) : Statement (.bgeu o) := by
  intro hf
  have p := bType_encB (base := 28769) (m := 0) (op := 24) (f3 := 7) o (by norm_num) (by norm_num) (by norm_num) rfl
  have q := bType_encB (base := 28771) (m := 1) (op := 24) (f3 := 7) o (by norm_num) (by norm_num) (by norm_num) rfl
  exact ofS rfl rfl p.2.2.2.2 (by simp [decodeS, decodeBranch, p]) (by rw [encB_two]; simp [decodeS, decodeBranch, q]) hf
theorem lb (o : IType) : Statement (.lb o) := by
  intro hf
  have p := iType_encI (base := 1) (m := 0) (op := 0) (f3 := 0) o (by norm_num) (by norm_num) (by norm_num) rfl
  have q := iType_encI (base := 3) (m := 1) (op := 0) (f3 := 0) o (by norm_num) (by norm_num) (by norm_num) rfl
  exact ofS rfl rfl p.2.2.2.2 (by simp [decodeS, decodeLoad, p]) (by rw [encI_two]; simp [decodeS, decodeLoad, q]) hf
theorem lh (o : IType) : Statement (.lh o) := by
  intro hf
  have p := iType_encI (base := 4097) (m := 0) (op := 0) (f3 := 1) o (by norm_num) (by norm_num) (by norm_num) rfl
  have q := iType_encI (base := 4099) (m := 1) (op := 0) (f3 := 1) o (by norm_num) (by norm_num) (by norm_num) rfl
  exact ofS rfl rfl p.2.2.2.2 (by simp [decodeS, decodeLoad, p]) (by rw [encI_two]; simp [decodeS, decodeLoad, q]) hf
theorem lw (o : IType) : Statement (.lw o) := by
  intro hf
  have p := iType_encI (base := 8193) (m := 0) (op := 0) (f3 := 2) o (by norm_num) (by norm_num) (by norm_num) rfl
  have q := iType_encI (base := 8195) (m := 1) (op := 0) (f3 := 2) o (by norm_num) (by norm_num) (by norm_num) rfl
  exact ofS rfl rfl p.2.2.2.2 (by simp [decodeS, decodeLoad, p]) (by rw [encI_two]; simp [decodeS, decodeLoad, q]) hf
theorem ld (o : IType) : Statement (.ld o) := by
  intro hf
  have p := iType_encI (base := 12289) (m := 0) (op := 0) (f3 := 3) o (by norm_num) (by norm_num) (by norm_num) rfl
  have q := iType_encI (base := 12291) (m := 1) (op := 0) (f3 := 3) o (by norm_num) (by norm_num) (by norm_num) rfl
  exact ofS rfl rfl p.2.2.2.2 (by simp [decodeS, decodeLoad, p]) (by rw [encI_two]; simp [decodeS, decodeLoad, q]) hf
theorem lbu (o : IType) : Statement (.lbu o) := by
  intro hf
  have p := iType_encI (base := 16385) (m := 0) (op := 0) (f3 := 4) o (by norm_num) (by norm_num) (by norm_num) rfl
  have q := iType_encI (base := 16387) (m := 1) (op := 0) (f3 := 4) o (by norm_num) (by norm_num) (by norm_num) rfl
  exact ofS rfl rfl p.2.2.2.2 (by simp [decodeS, decodeLoad, p]) (by rw [encI_two]; simp [decodeS, decodeLoad, q]) hf
theorem lhu (o : IType) : Statement (.lhu o) := by
  intro hf
  have p := iType_encI (base := 20481) (m := 0) (op := 0) (f3 := 5) o (by norm_num) (by norm_num) (by norm_num) rfl
  have q := iType_encI (base := 20483) (m := 1) (op := 0) (f3 := 5) o (by norm_num) (by norm_num) (by norm_num) rfl
  exact ofS rfl rfl p.2.2.2.2 (by simp [decodeS, decodeLoad, p]) (by rw [encI_two]; simp [decodeS, decodeLoad, q]) hf
theorem lwu (o : IType) : Statement (.lwu o) := by
  intro hf
  have p := iType_encI (base := 24577) (m := 0) (op := 0) (f3 := 6) o (by norm_num) (by norm_num) (by norm_num) rfl
  have q := iType_encI (base := 24579) (m := 1) (op := 0) (f3 := 6) o (by norm_num) (by norm_num) (by norm_num) rfl
  exact ofS rfl rfl p.2.2.2.2 (by simp [decodeS, decodeLoad, p]) (by rw [encI_two]; simp [decodeS, decodeLoad, q]) hf
theorem sb (o : SType) : Statement (.sb o) := by
  intro hf
  have p := sType_encS (base := 33) (m := 0) (op := 8) (f3 := 0) o (by norm_num) (by norm_num) (by norm_num) rfl
  have q := sType_encS (base := 35) (m := 1) (op := 8) (f3 := 0) o (by norm_num) (by norm_num) (by norm_num) rfl
  exact ofS rfl rfl p.2.2.2.2 (by simp [decodeS, decodeStore, p]) (by rw [encS_two]; simp [decodeS, decodeStore, q]) hf
theorem sh (o : SType) : Statement (.sh o) := by
  intro hf
  have p := sType_encS (base := 4129) (m := 0) (op := 8) (f3 := 1) o (by norm_num) (by norm_num) (by norm_num) rfl
  have q := sType_encS (base := 4131) (m := 1) (op := 8) (f3 := 1) o (by norm_num) (by norm_num) (by norm_num) rfl
  exact ofS rfl rfl p.2.2.2.2 (by simp [decodeS, decodeStore, p]) (by rw [encS_two]; simp [decodeS, decodeStore, q]) hf
theorem sw (o : SType) : Statement (.sw o) := by
  intro hf
  have p := sType_encS (base := 8225) (m := 0) (op := 8) (f3 := 2) o (by norm_num) (by norm_num) (by norm_num) rfl
  have q := sType_encS (base := 8227) (m := 1) (op := 8) (f3 := 2) o (by norm_num) (by norm_num) (by norm_num) rfl
  exact ofS rfl rfl p.2.2.2.2 (by simp [decodeS, decodeStore, p]) (by rw [encS_two]; simp [decodeS, decodeStore, q]) hf
theorem sd (o : SType) : Statement (.sd o) := by
  intro hf
  have p := sType_encS (base := 12321) (m := 0) (op := 8) (f3 := 3) o (by norm_num) (by norm_num) (by norm_num) rfl
  have q := sType_encS (base := 12323) (m := 1) (op := 8) (f3 := 3) o (by norm_num) (by norm_num) (by norm_num) rfl
  exact ofS rfl rfl p.2.2.2.2 (by simp [decodeS, decodeStore, p]) (by rw [encS_two]; simp [decodeS, decodeStore, q]) hf
theorem addi (o : IType) : Statement (.addi o) := by
  intro hf
  have p := iType_encI (base := 17) (m := 0) (op := 4) (f3 := 0) o (by norm_num) (by norm_num) (by norm_num) rfl
  have q := iType_encI (base := 19) (m := 1) (op := 4) (f3 := 0) o (by norm_num) (by norm_num) (by norm_num) rfl
  exact ofS rfl rfl p.2.2.2.2 (by simp [decodeS, decodeOpImm, p]) (by rw [encI_two]; simp [decodeS, decodeOpImm, q]) hf
theorem slti (o : IType) : Statement (.slti o) := by
  intro hf
  have p := iType_encI (base := 8209) (m := 0) (op := 4) (f3 := 2) o (by norm_num) (by norm_num) (by norm_num) rfl
  have q := iType_encI (base := 8211) (m := 1) (op := 4) (f3 := 2) o (by norm_num) (by norm_num) (by norm_num) rfl
  exact ofS rfl rfl p.2.2.2.2 (by simp [decodeS, decodeOpImm, p]) (by rw [encI_two]; simp [decodeS, decodeOpImm, q]) hf
theorem sltiu (o : IType) : Statement (.sltiu o) := by
  intro hf
  have p := iType_encI (base := 12305) (m := 0) (op := 4) (f3 := 3) o (by norm_num) (by norm_num) (by norm_num) rfl
  have q := iType_encI (base := 12307) (m := 1) (op := 4) (f3 := 3) o (by norm_num) (by norm_num) (by norm_num) rfl
  exact ofS rfl rfl p.2.2.2.2 (by simp [decodeS, decodeOpImm, p]) (by rw [encI_two]; simp [decodeS, decodeOpImm, q]) hf
theorem xori (o : IType) : Statement (.xori o) := by
  intro hf
  have p := iType_encI (base := 16401) (m := 0) (op := 4) (f3 := 4) o (by norm_num) (by norm_num) (by norm_num) rfl
  have q := iType_encI (base := 16403) (m := 1) (op := 4) (f3 := 4) o (by norm_num) (by norm_num) (by norm_num) rfl
  exact ofS rfl rfl p.2.2.2.2 (by simp [decodeS, decodeOpImm, p]) (by rw [encI_two]; simp [decodeS, decodeOpImm, q]) hf
theorem ori (o : IType) : Statement (.ori o) := by
  intro hf
  have p := iType_encI (base := 24593) (m := 0) (op := 4) (f3 := 6) o (by norm_num) (by norm_num) (by norm_num) rfl
  have q := iType_encI (base := 24595) (m := 1) (op := 4) (f3 := 6) o (by norm_num) (by norm_num) (by norm_num) rfl
  exact ofS rfl rfl p.2.2.2.2 (by simp [decodeS, decodeOpImm, p]) (by rw [encI_two]; simp [decodeS, decodeOpImm, q]) hf
theorem andi (o : IType) : Statement (.andi o) := by
  intro hf
  have p := iType_encI (base := 28689) (m := 0) (op := 4) (f3 := 7) o (by norm_num) (by norm_num) (by norm_num) rfl
  have q := iType_encI (base := 28691) (m := 1) (op := 4) (f3 := 7) o (by norm_num) (by norm_num) (by norm_num) rfl
  exact ofS rfl rfl p.2.2.2.2 (by simp [decodeS, decodeOpImm, p]) (by rw [encI_two]; simp [decodeS, decodeOpImm, q]) hf
theorem slli (o : ShType) : Statement (.slli o) := by
  intro hf
  have p := shType_encSh (base := 4113) (m := 0) (op := 4) (f3 := 1) (g := 0) o (by norm_num) (by norm_num) (by norm_num) (by norm_num) rfl
  have q := shType_encSh (base := 4115) (m := 1) (op := 4) (f3 := 1) (g := 0) o (by norm_num) (by norm_num) (by norm_num) (by norm_num) rfl
  exact ofS rfl rfl p.2.2.2.2.2 (by simp [decodeS, decodeOpImm, p]) (by rw [encSh_two]; simp [decodeS, decodeOpImm, q]) hf
theorem srli (o : ShType) : Statement (.srli o) := by
  intro hf
  have p := shType_encSh (base := 20497) (m := 0) (op := 4) (f3 := 5) (g := 0) o (by norm_num) (by norm_num) (by norm_num) (by norm_num) rfl
  have q := shType_encSh (base := 20499) (m := 1) (op := 4) (f3 := 5) (g := 0) o (by norm_num) (by norm_num) (by norm_num) (by norm_num) rfl
  exact ofS rfl rfl p.2.2.2.2.2 (by simp [decodeS, decodeOpImm, p]) (by rw [encSh_two]; simp [decodeS, decodeOpImm, q]) hf
theorem srai (o : ShType) : Statement (.srai o) := by
  intro hf
  have p := shType_encSh (base := 1073762321) (m := 0) (op := 4) (f3 := 5) (g := 16) o (by norm_num) (by norm_num) (by norm_num) (by norm_num) rfl
  have q := shType_encSh (base := 1073762323) (m := 1) (op := 4) (f3 := 5) (g := 16) o (by norm_num) (by norm_num) (by norm_num) (by norm_num) rfl
  exact ofS rfl rfl p.2.2.2.2.2 (by simp [decodeS, decodeOpImm, p]) (by rw [encSh_two]; simp [decodeS, decodeOpImm, q]) hf
theorem addiw (o : IType) : Statement (.addiw o) := by
  intro hf
  have p := iType_encI (base := 25) (m := 0) (op := 6) (f3 := 0) o (by norm_num) (by norm_num) (by norm_num) rfl
  have q := iType_encI (base := 27) (m := 1) (op := 6) (f3 := 0) o (by norm_num) (by norm_num) (by norm_num) rfl
  exact ofS rfl rfl p.2.2.2.2 (by simp [decodeS, decodeOpImm32, p]) (by rw [encI_two]; simp [decodeS, decodeOpImm32, q]) hf
theorem slliw (o : ShType) : Statement (.slliw o) := by
  intro hf
  have hs : o.sh.val < 32 := by simpa [wellFormed] using hf
  have p := shwType_encSh (base := 4121) (m := 0) (op := 6) (f3 := 1) (f7 := 0) o (by norm_num) (by norm_num) (by norm_num) (by norm_num) hs rfl
  have q := shwType_encSh (base := 4123) (m := 1) (op := 6) (f3 := 1) (f7 := 0) o (by norm_num) (by norm_num) (by norm_num) (by norm_num) hs rfl
  exact ofS rfl rfl p.2.2.2.2.2 (by simp [decodeS, decodeOpImm32, p]) (by rw [encSh_two]; simp [decodeS, decodeOpImm32, q]) hf
theorem srliw (o : ShType) : Statement (.srliw o) := by
  intro hf
  have hs : o.sh.val < 32 := by simpa [wellFormed] using hf
  have p := shwType_encSh (base := 20505) (m := 0) (op := 6) (f3 := 5) (f7 := 0) o (by norm_num) (by norm_num) (by norm_num) (by norm_num) hs rfl
  have q := shwType_encSh (base := 20507) (m := 1) (op := 6) (f3 := 5) (f7 := 0) o (by norm_num) (by norm_num) (by norm_num) (by norm_num) hs rfl
  exact ofS rfl rfl p.2.2.2.2.2 (by simp [decodeS, decodeOpImm32, p]) (by rw [encSh_two]; simp [decodeS, decodeOpImm32, q]) hf
theorem sraiw (o : ShType) : Statement (.sraiw o) := by
  intro hf
  have hs : o.sh.val < 32 := by simpa [wellFormed] using hf
  have p := shwType_encSh (base := 1073762329) (m := 0) (op := 6) (f3 := 5) (f7 := 32) o (by norm_num) (by norm_num) (by norm_num) (by norm_num) hs rfl
  have q := shwType_encSh (base := 1073762331) (m := 1) (op := 6) (f3 := 5) (f7 := 32) o (by norm_num) (by norm_num) (by norm_num) (by norm_num) hs rfl
  exact ofS rfl rfl p.2.2.2.2.2 (by simp [decodeS, decodeOpImm32, p]) (by rw [encSh_two]; simp [decodeS, decodeOpImm32, q]) hf
theorem add (o : RType) : Statement (.add o) := by
  intro hf
  have p := rType_encR (base := 49) (m := 0) (op := 12) (f3 := 0) (f7 := 0) o (by norm_num) (by norm_num) (by norm_num) (by norm_num) rfl
  have q := rType_encR (base := 51) (m := 1) (op := 12) (f3 := 0) (f7 := 0) o (by norm_num) (by norm_num) (by norm_num) (by norm_num) rfl
  exact ofS rfl rfl p.2.2.2.2.2 (by simp [decodeS, decodeOp, p]) (by rw [encR_two]; simp [decodeS, decodeOp, q]) hf
theorem sub (o : RType) : Statement (.sub o) := by
  intro hf
  have p := rType_encR (base := 1073741873) (m := 0) (op := 12) (f3 := 0) (f7 := 32) o (by norm_num) (by norm_num) (by norm_num) (by norm_num) rfl
  have q := rType_encR (base := 1073741875) (m := 1) (op := 12) (f3 := 0) (f7 := 32) o (by norm_num) (by norm_num) (by norm_num) (by norm_num) rfl
  exact ofS rfl rfl p.2.2.2.2.2 (by simp [decodeS, decodeOp, p]) (by rw [encR_two]; simp [decodeS, decodeOp, q]) hf
theorem sll (o : RType) : Statement (.sll o) := by
  intro hf
  have p := rType_encR (base := 4145) (m := 0) (op := 12) (f3 := 1) (f7 := 0) o (by norm_num) (by norm_num) (by norm_num) (by norm_num) rfl
  have q := rType_encR (base := 4147) (m := 1) (op := 12) (f3 := 1) (f7 := 0) o (by norm_num) (by norm_num) (by norm_num) (by norm_num) rfl
  exact ofS rfl rfl p.2.2.2.2.2 (by simp [decodeS, decodeOp, p]) (by rw [encR_two]; simp [decodeS, decodeOp, q]) hf
theorem slt (o : RType) : Statement (.slt o) := by
  intro hf
  have p := rType_encR (base := 8241) (m := 0) (op := 12) (f3 := 2) (f7 := 0) o (by norm_num) (by norm_num) (by norm_num) (by norm_num) rfl
  have q := rType_encR (base := 8243) (m := 1) (op := 12) (f3 := 2) (f7 := 0) o (by norm_num) (by norm_num) (by norm_num) (by norm_num) rfl
  exact ofS rfl rfl p.2.2.2.2.2 (by simp [decodeS, decodeOp, p]) (by rw [encR_two]; simp [decodeS, decodeOp, q]) hf
theorem sltu (o : RType) : Statement (.sltu o) := by
  intro hf
  have p := rType_encR (base := 12337) (m := 0) (op := 12) (f3 := 3) (f7 := 0) o (by norm_num) (by norm_num) (by norm_num) (by norm_num) rfl
  have q := rType_encR (base := 12339) (m := 1) (op := 12) (f3 := 3) (f7 := 0) o (by norm_num) (by norm_num) (by norm_num) (by norm_num) rfl
  exact ofS rfl rfl p.2.2.2.2.2 (by simp [decodeS, decodeOp, p]) (by rw [encR_two]; simp [decodeS, decodeOp, q]) hf
theorem xor (o : RType) : Statement (.xor o) := by
  intro hf
  have p := rType_encR (base := 16433) (m := 0) (op := 12) (f3 := 4) (f7 := 0) o (by norm_num) (by norm_num) (by norm_num) (by norm_num) rfl
  have q := rType_encR (base := 16435) (m := 1) (op := 12) (f3 := 4) (f7 := 0) o (by norm_num) (by norm_num) (by norm_num) (by norm_num) rfl
  exact ofS rfl rfl p.2.2.2.2.2 (by simp [decodeS, decodeOp, p]) (by rw [encR_two]; simp [decodeS, decodeOp, q]) hf
theorem srl (o : RType) : Statement (.srl o) := by
  intro hf
  have p := rType_encR (base := 20529) (m := 0) (op := 12) (f3 := 5) (f7 := 0) o (by norm_num) (by norm_num) (by norm_num) (by norm_num) rfl
  have q := rType_encR (base := 20531) (m := 1) (op := 12) (f3 := 5) (f7 := 0) o (by norm_num) (by norm_num) (by norm_num) (by norm_num) rfl
  exact ofS rfl rfl p.2.2.2.2.2 (by simp [decodeS, decodeOp, p]) (by rw [encR_two]; simp [decodeS, decodeOp, q]) hf
theorem sra (o : RType) : Statement (.sra o) := by
  intro hf
  have p := rType_encR (base := 1073762353) (m := 0) (op := 12) (f3 := 5) (f7 := 32) o (by norm_num) (by norm_num) (by norm_num) (by norm_num) rfl
  have q := rType_encR (base := 1073762355) (m := 1) (op := 12) (f3 := 5) (f7 := 32) o (by norm_num) (by norm_num) (by norm_num) (by norm_num) rfl
  exact ofS rfl rfl p.2.2.2.2.2 (by simp [decodeS, decodeOp, p]) (by rw [encR_two]; simp [decodeS, decodeOp, q]) hf
theorem or (o : RType) : Statement (.or o) := by
  intro hf
  have p := rType_encR (base := 24625) (m := 0) (op := 12) (f3 := 6) (f7 := 0) o (by norm_num) (by norm_num) (by norm_num) (by norm_num) rfl
  have q := rType_encR (base := 24627) (m := 1) (op := 12) (f3 := 6) (f7 := 0) o (by norm_num) (by norm_num) (by norm_num) (by norm_num) rfl
  exact ofS rfl rfl p.2.2.2.2.2 (by simp [decodeS, decodeOp, p]) (by rw [encR_two]; simp [decodeS, decodeOp, q]) hf
theorem and (o : RType) : Statement (.and o) := by
  intro hf
  have p := rType_encR (base := 28721) (m := 0) (op := 12) (f3 := 7) (f7 := 0) o (by norm_num) (by norm_num) (by norm_num) (by norm_num) rfl
  have q := rType_encR (base := 28723) (m := 1) (op := 12) (f3 := 7) (f7 := 0) o (by norm_num) (by norm_num) (by norm_num) (by norm_num) rfl
  exact ofS rfl rfl p.2.2.2.2.2 (by simp [decodeS, decodeOp, p]) (by rw [encR_two]; simp [decodeS, decodeOp, q]) hf
theorem mul (o : RType) : Statement (.mul o) := by
  intro hf
  have p := rType_encR (base := 33554481) (m := 0) (op := 12) (f3 := 0) (f7 := 1) o (by norm_num) (by norm_num) (by norm_num) (by norm_num) rfl
  have q := rType_encR (base := 33554483) (m := 1) (op := 12) (f3 := 0) (f7 := 1) o (by norm_num) (by norm_num) (by norm_num) (by norm_num) rfl
  exact ofS rfl rfl p.2.2.2.2.2 (by simp [decodeS, decodeOp, p]) (by rw [encR_two]; simp [decodeS, decodeOp, q]) hf
theorem mulh (o : RType) : Statement (.mulh o) := by
  intro hf
  have p := rType_encR (base := 33558577) (m := 0) (op := 12) (f3 := 1) (f7 := 1) o (by norm_num) (by norm_num) (by norm_num) (by norm_num) rfl
  have q := rType_encR (base := 33558579) (m := 1) (op := 12) (f3 := 1) (f7 := 1) o (by norm_num) (by norm_num) (by norm_num) (by norm_num) rfl
  exact ofS rfl rfl p.2.2.2.2.2 (by simp [decodeS, decodeOp, p]) (by rw [encR_two]; simp [decodeS, decodeOp, q]) hf
theorem mulhsu (o : RType) : Statement (.mulhsu o) := by
  intro hf
  have p := rType_encR (base := 33562673) (m := 0) (op := 12) (f3 := 2) (f7 := 1) o (by norm_num) (by norm_num) (by norm_num) (by norm_num) rfl
  have q := rType_encR (base := 33562675) (m := 1) (op := 12) (f3 := 2) (f7 := 1) o (by norm_num) (by norm_num) (by norm_num) (by norm_num) rfl
  exact ofS rfl rfl p.2.2.2.2.2 (by simp [decodeS, decodeOp, p]) (by rw [encR_two]; simp [decodeS, decodeOp, q]) hf
theorem mulhu (o : RType) : Statement (.mulhu o) := by
  intro hf
  have p := rType_encR (base := 33566769) (m := 0) (op := 12) (f3 := 3) (f7 := 1) o (by norm_num) (by norm_num) (by norm_num) (by norm_num) rfl
  have q := rType_encR (base := 33566771) (m := 1) (op := 12) (f3 := 3) (f7 := 1) o (by norm_num) (by norm_num) (by norm_num) (by norm_num) rfl
  exact ofS rfl rfl p.2.2.2.2.2 (by simp [decodeS, decodeOp, p]) (by rw [encR_two]; simp [decodeS, decodeOp, q]) hf
theorem div (o : RType) : Statement (.div o) := by
  intro hf
  have p := rType_encR (base := 33570865) (m := 0) (op := 12) (f3 := 4) (f7 := 1) o (by norm_num) (by norm_num) (by norm_num) (by norm_num) rfl
  have q := rType_encR (base := 33570867) (m := 1) (op := 12) (f3 := 4) (f7 := 1) o (by norm_num) (by norm_num) (by norm_num) (by norm_num) rfl
  exact ofS rfl rfl p.2.2.2.2.2 (by simp [decodeS, decodeOp, p]) (by rw [encR_two]; simp [decodeS, decodeOp, q]) hf
theorem divu (o : RType) : Statement (.divu o) := by
  intro hf
  have p := rType_encR (base := 33574961) (m := 0) (op := 12) (f3 := 5) (f7 := 1) o (by norm_num) (by norm_num) (by norm_num) (by norm_num) rfl
  have q := rType_encR (base := 33574963) (m := 1) (op := 12) (f3 := 5) (f7 := 1) o (by norm_num) (by norm_num) (by norm_num) (by norm_num) rfl
  exact ofS rfl rfl p.2.2.2.2.2 (by simp [decodeS, decodeOp, p]) (by rw [encR_two]; simp [decodeS, decodeOp, q]) hf
theorem rem (o : RType) : Statement (.rem o) := by
  intro hf
  have p := rType_encR (base := 33579057) (m := 0) (op := 12) (f3 := 6) (f7 := 1) o (by norm_num) (by norm_num) (by norm_num) (by norm_num) rfl
  have q := rType_encR (base := 33579059) (m := 1) (op := 12) (f3 := 6) (f7 := 1) o (by norm_num) (by norm_num) (by norm_num) (by norm_num) rfl
  exact ofS rfl rfl p.2.2.2.2.2 (by simp [decodeS, decodeOp, p]) (by rw [encR_two]; simp [decodeS, decodeOp, q]) hf
theorem remu (o : RType) : Statement (.remu o) := by
  intro hf
  have p := rType_encR (base := 33583153) (m := 0) (op := 12) (f3 := 7) (f7 := 1) o (by norm_num) (by norm_num) (by norm_num) (by norm_num) rfl
  have q := rType_encR (base := 33583155) (m := 1) (op := 12) (f3 := 7) (f7 := 1) o (by norm_num) (by norm_num) (by norm_num) (by norm_num) rfl
  exact ofS rfl rfl p.2.2.2.2.2 (by simp [decodeS, decodeOp, p]) (by rw [encR_two]; simp [decodeS, decodeOp, q]) hf
theorem addw (o : RType) : Statement (.addw o) := by
  intro hf
  have p := rType_encR (base := 57) (m := 0) (op := 14) (f3 := 0) (f7 := 0) o (by norm_num) (by norm_num) (by norm_num) (by norm_num) rfl
  have q := rType_encR (base := 59) (m := 1) (op := 14) (f3 := 0) (f7 := 0) o (by norm_num) (by norm_num) (by norm_num) (by norm_num) rfl
  exact ofS rfl rfl p.2.2.2.2.2 (by simp [decodeS, decodeOp32, p]) (by rw [encR_two]; simp [decodeS, decodeOp32, q]) hf
theorem subw (o : RType) : Statement (.subw o) := by
  intro hf
  have p := rType_encR (base := 1073741881) (m := 0) (op := 14) (f3 := 0) (f7 := 32) o (by norm_num) (by norm_num) (by norm_num) (by norm_num) rfl
  have q := rType_encR (base := 1073741883) (m := 1) (op := 14) (f3 := 0) (f7 := 32) o (by norm_num) (by norm_num) (by norm_num) (by norm_num) rfl
  exact ofS rfl rfl p.2.2.2.2.2 (by simp [decodeS, decodeOp32, p]) (by rw [encR_two]; simp [decodeS, decodeOp32, q]) hf
theorem sllw (o : RType) : Statement (.sllw o) := by
  intro hf
  have p := rType_encR (base := 4153) (m := 0) (op := 14) (f3 := 1) (f7 := 0) o (by norm_num) (by norm_num) (by norm_num) (by norm_num) rfl
  have q := rType_encR (base := 4155) (m := 1) (op := 14) (f3 := 1) (f7 := 0) o (by norm_num) (by norm_num) (by norm_num) (by norm_num) rfl
  exact ofS rfl rfl p.2.2.2.2.2 (by simp [decodeS, decodeOp32, p]) (by rw [encR_two]; simp [decodeS, decodeOp32, q]) hf
theorem srlw (o : RType) : Statement (.srlw o) := by
  intro hf
  have p := rType_encR (base := 20537) (m := 0) (op := 14) (f3 := 5) (f7 := 0) o (by norm_num) (by norm_num) (by norm_num) (by norm_num) rfl
  have q := rType_encR (base := 20539) (m := 1) (op := 14) (f3 := 5) (f7 := 0) o (by norm_num) (by norm_num) (by norm_num) (by norm_num) rfl
  exact ofS rfl rfl p.2.2.2.2.2 (by simp [decodeS, decodeOp32, p]) (by rw [encR_two]; simp [decodeS, decodeOp32, q]) hf
theorem sraw (o : RType) : Statement (.sraw o) := by
  intro hf
  have p := rType_encR (base := 1073762361) (m := 0) (op := 14) (f3 := 5) (f7 := 32) o (by norm_num) (by norm_num) (by norm_num) (by norm_num) rfl
  have q := rType_encR (base := 1073762363) (m := 1) (op := 14) (f3 := 5) (f7 := 32) o (by norm_num) (by norm_num) (by norm_num) (by norm_num) rfl
  exact ofS rfl rfl p.2.2.2.2.2 (by simp [decodeS, decodeOp32, p]) (by rw [encR_two]; simp [decodeS, decodeOp32, q]) hf
theorem mulw (o : RType) : Statement (.mulw o) := by
  intro hf
  have p := rType_encR (base := 33554489) (m := 0) (op := 14) (f3 := 0) (f7 := 1) o (by norm_num) (by norm_num) (by norm_num) (by norm_num) rfl
  have q := rType_encR (base := 33554491) (m := 1) (op := 14) (f3 := 0) (f7 := 1) o (by norm_num) (by norm_num) (by norm_num) (by norm_num) rfl
  exact ofS rfl rfl p.2.2.2.2.2 (by simp [decodeS, decodeOp32, p]) (by rw [encR_two]; simp [decodeS, decodeOp32, q]) hf
theorem divw (o : RType) : Statement (.divw o) := by
  intro hf
  have p := rType_encR (base := 33570873) (m := 0) (op := 14) (f3 := 4) (f7 := 1) o (by norm_num) (by norm_num) (by norm_num) (by norm_num) rfl
  have q := rType_encR (base := 33570875) (m := 1) (op := 14) (f3 := 4) (f7 := 1) o (by norm_num) (by norm_num) (by norm_num) (by norm_num) rfl
  exact ofS rfl rfl p.2.2.2.2.2 (by simp [decodeS, decodeOp32, p]) (by rw [encR_two]; simp [decodeS, decodeOp32, q]) hf
theorem divuw (o : RType) : Statement (.divuw o) := by
  intro hf
  have p := rType_encR (base := 33574969) (m := 0) (op := 14) (f3 := 5) (f7 := 1) o (by norm_num) (by norm_num) (by norm_num) (by norm_num) rfl
  have q := rType_encR (base := 33574971) (m := 1) (op := 14) (f3 := 5) (f7 := 1) o (by norm_num) (by norm_num) (by norm_num) (by norm_num) rfl
  exact ofS rfl rfl p.2.2.2.2.2 (by simp [decodeS, decodeOp32, p]) (by rw [encR_two]; simp [decodeS, decodeOp32, q]) hf
theorem remw (o : RType) : Statement (.remw o) := by
  intro hf
  have p := rType_encR (base := 33579065) (m := 0) (op := 14) (f3 := 6) (f7 := 1) o (by norm_num) (by norm_num) (by norm_num) (by norm_num) rfl
  have q := rType_encR (base := 33579067) (m := 1) (op := 14) (f3 := 6) (f7 := 1) o (by norm_num) (by norm_num) (by norm_num) (by norm_num) rfl
  exact ofS rfl rfl p.2.2.2.2.2 (by simp [decodeS, decodeOp32, p]) (by rw [encR_two]; simp [decodeS, decodeOp32, q]) hf
theorem remuw (o : RType) : Statement (.remuw o) := by
  intro hf
  have p := rType_encR (base := 33583161) (m := 0) (op := 14) (f3 := 7) (f7 := 1) o (by norm_num) (by norm_num) (by norm_num) (by norm_num) rfl
  have q := rType_encR (base := 33583163) (m := 1) (op := 14) (f3 := 7) (f7 := 1) o (by norm_num) (by norm_num) (by norm_num) (by norm_num) rfl
  exact ofS rfl rfl p.2.2.2.2.2 (by simp [decodeS, decodeOp32, p]) (by rw [encR_two]; simp [decodeS, decodeOp32, q]) hf
theorem fenceS (fields : BitVec 12) : Statement (.fenceS fields) := by
  intro hf
  have u0 := fields.isLt
  have key : ∀ m w, m < 2 → w = 13 + 2 * m + fields.toNat * 2 ^ 20 → decodeS w = some (.fenceS fields) := by
    intro m w hm hw
    have d0 : bits w 0 1 = 1 := by simp only [bits]; omega
    have d1 : bits w 2 5 = 3 := by simp only [bits]; omega
    have d2 : bits w 12 3 = 0 := by simp only [bits]; omega
    have b0 : bits w 7 13 = 0 := by rw [show bits w 7 13 = w / 2 ^ 7 % 2 ^ 13 from rfl]; omega
    have b1 : bits w 20 12 = fields.toNat := by rw [show bits w 20 12 = w / 2 ^ 20 % 2 ^ 12 from rfl]; omega
    simp [decodeS, d0, d1, d2, b0, b1]
  exact ofS rfl rfl (by omega) (key 0 _ (by omega) (by omega)) (key 1 _ (by omega) (by omega)) hf
theorem ecall : Statement .ecall := ofS rfl rfl (by decide) (by decide) (by decide)
theorem ebreak : Statement .ebreak := ofS rfl rfl (by decide) (by decide) (by decide)
theorem csrrw (rd rs1 : Fin 32) (csr : BitVec 12) : Statement (.csrrw rd rs1 csr) := by
  intro hf
  have u0 := rd.isLt
  have u1 := rs1.isLt
  have u2 := csr.isLt
  have key : ∀ m w, m < 2 → w = 4209 + 2 * m + rd.val * 2 ^ 7 + rs1.val * 2 ^ 15 + csr.toNat * 2 ^ 20 → decodeS w = some (.csrrw rd rs1 csr) := by
    intro m w hm hw
    have d0 : bits w 0 1 = 1 := by simp only [bits]; omega
    have d1 : bits w 2 5 = 28 := by simp only [bits]; omega
    have d2 : bits w 12 3 = 1 := by simp only [bits]; omega
    have b0 : bits w 7 5 = rd.val := by rw [show bits w 7 5 = w / 2 ^ 7 % 2 ^ 5 from rfl]; omega
    have b1 : bits w 15 5 = rs1.val := by rw [show bits w 15 5 = w / 2 ^ 15 % 2 ^ 5 from rfl]; omega
    have b2 : bits w 20 12 = csr.toNat := by rw [show bits w 20 12 = w / 2 ^ 20 % 2 ^ 12 from rfl]; omega
    simp [decodeS, d0, d1, d2, decodeSystem, reg_of b0, reg_of b1, b2]
  exact ofS rfl rfl (by omega) (key 0 _ (by omega) (by omega)) (key 1 _ (by omega) (by omega)) hf
theorem csrrs (rd rs1 : Fin 32) (csr : BitVec 12) : Statement (.csrrs rd rs1 csr) := by
  intro hf
  have u0 := rd.isLt
  have u1 := rs1.isLt
  have u2 := csr.isLt
  have key : ∀ m w, m < 2 → w = 8305 + 2 * m + rd.val * 2 ^ 7 + rs1.val * 2 ^ 15 + csr.toNat * 2 ^ 20 → decodeS w = some (.csrrs rd rs1 csr) := by
    intro m w hm hw
    have d0 : bits w 0 1 = 1 := by simp only [bits]; omega
    have d1 : bits w 2 5 = 28 := by simp only [bits]; omega
    have d2 : bits w 12 3 = 2 := by simp only [bits]; omega
    have b0 : bits w 7 5 = rd.val := by rw [show bits w 7 5 = w / 2 ^ 7 % 2 ^ 5 from rfl]; omega
    have b1 : bits w 15 5 = rs1.val := by rw [show bits w 15 5 = w / 2 ^ 15 % 2 ^ 5 from rfl]; omega
    have b2 : bits w 20 12 = csr.toNat := by rw [show bits w 20 12 = w / 2 ^ 20 % 2 ^ 12 from rfl]; omega
    simp [decodeS, d0, d1, d2, decodeSystem, reg_of b0, reg_of b1, b2]
  exact ofS rfl rfl (by omega) (key 0 _ (by omega) (by omega)) (key 1 _ (by omega) (by omega)) hf
theorem csrrc (rd rs1 : Fin 32) (csr : BitVec 12) : Statement (.csrrc rd rs1 csr) := by
  intro hf
  have u0 := rd.isLt
  have u1 := rs1.isLt
  have u2 := csr.isLt
  have key : ∀ m w, m < 2 → w = 12401 + 2 * m + rd.val * 2 ^ 7 + rs1.val * 2 ^ 15 + csr.toNat * 2 ^ 20 → decodeS w = some (.csrrc rd rs1 csr) := by
    intro m w hm hw
    have d0 : bits w 0 1 = 1 := by simp only [bits]; omega
    have d1 : bits w 2 5 = 28 := by simp only [bits]; omega
    have d2 : bits w 12 3 = 3 := by simp only [bits]; omega
    have b0 : bits w 7 5 = rd.val := by rw [show bits w 7 5 = w / 2 ^ 7 % 2 ^ 5 from rfl]; omega
    have b1 : bits w 15 5 = rs1.val := by rw [show bits w 15 5 = w / 2 ^ 15 % 2 ^ 5 from rfl]; omega
    have b2 : bits w 20 12 = csr.toNat := by rw [show bits w 20 12 = w / 2 ^ 20 % 2 ^ 12 from rfl]; omega
    simp [decodeS, d0, d1, d2, decodeSystem, reg_of b0, reg_of b1, b2]
  exact ofS rfl rfl (by omega) (key 0 _ (by omega) (by omega)) (key 1 _ (by omega) (by omega)) hf
theorem csrrwi (rd : Fin 32) (u : Fin 32) (csr : BitVec 12) : Statement (.csrrwi rd u csr) := by
  intro hf
  have u0 := rd.isLt
  have u1 := u.isLt
  have u2 := csr.isLt
  have key : ∀ m w, m < 2 → w = 20593 + 2 * m + rd.val * 2 ^ 7 + u.val * 2 ^ 15 + csr.toNat * 2 ^ 20 → decodeS w = some (.csrrwi rd u csr) := by
    intro m w hm hw
    have d0 : bits w 0 1 = 1 := by simp only [bits]; omega
    have d1 : bits w 2 5 = 28 := by simp only [bits]; omega
    have d2 : bits w 12 3 = 5 := by simp only [bits]; omega
    have b0 : bits w 7 5 = rd.val := by rw [show bits w 7 5 = w / 2 ^ 7 % 2 ^ 5 from rfl]; omega
    have b1 : bits w 15 5 = u.val := by rw [show bits w 15 5 = w / 2 ^ 15 % 2 ^ 5 from rfl]; omega
    have b2 : bits w 20 12 = csr.toNat := by rw [show bits w 20 12 = w / 2 ^ 20 % 2 ^ 12 from rfl]; omega
    simp [decodeS, d0, d1, d2, decodeSystem, reg_of b0, reg_of b1, b2]
  exact ofS rfl rfl (by omega) (key 0 _ (by omega) (by omega)) (key 1 _ (by omega) (by omega)) hf
theorem csrrsi (rd : Fin 32) (u : Fin 32) (csr : BitVec 12) : Statement (.csrrsi rd u csr) := by
  intro hf
  have u0 := rd.isLt
  have u1 := u.isLt
  have u2 := csr.isLt
  have key : ∀ m w, m < 2 → w = 24689 + 2 * m + rd.val * 2 ^ 7 + u.val * 2 ^ 15 + csr.toNat * 2 ^ 20 → decodeS w = some (.csrrsi rd u csr) := by
    intro m w hm hw
    have d0 : bits w 0 1 = 1 := by simp only [bits]; omega
    have d1 : bits w 2 5 = 28 := by simp only [bits]; omega
    have d2 : bits w 12 3 = 6 := by simp only [bits]; omega
    have b0 : bits w 7 5 = rd.val := by rw [show bits w 7 5 = w / 2 ^ 7 % 2 ^ 5 from rfl]; omega
    have b1 : bits w 15 5 = u.val := by rw [show bits w 15 5 = w / 2 ^ 15 % 2 ^ 5 from rfl]; omega
    have b2 : bits w 20 12 = csr.toNat := by rw [show bits w 20 12 = w / 2 ^ 20 % 2 ^ 12 from rfl]; omega
    simp [decodeS, d0, d1, d2, decodeSystem, reg_of b0, reg_of b1, b2]
  exact ofS rfl rfl (by omega) (key 0 _ (by omega) (by omega)) (key 1 _ (by omega) (by omega)) hf
theorem csrrci (rd : Fin 32) (u : Fin 32) (csr : BitVec 12) : Statement (.csrrci rd u csr) := by
  intro hf
  have u0 := rd.isLt
  have u1 := u.isLt
  have u2 := csr.isLt
  have key : ∀ m w, m < 2 → w = 28785 + 2 * m + rd.val * 2 ^ 7 + u.val * 2 ^ 15 + csr.toNat * 2 ^ 20 → decodeS w = some (.csrrci rd u csr) := by
    intro m w hm hw
    have d0 : bits w 0 1 = 1 := by simp only [bits]; omega
    have d1 : bits w 2 5 = 28 := by simp only [bits]; omega
    have d2 : bits w 12 3 = 7 := by simp only [bits]; omega
    have b0 : bits w 7 5 = rd.val := by rw [show bits w 7 5 = w / 2 ^ 7 % 2 ^ 5 from rfl]; omega
    have b1 : bits w 15 5 = u.val := by rw [show bits w 15 5 = w / 2 ^ 15 % 2 ^ 5 from rfl]; omega
    have b2 : bits w 20 12 = csr.toNat := by rw [show bits w 20 12 = w / 2 ^ 20 % 2 ^ 12 from rfl]; omega
    simp [decodeS, d0, d1, d2, decodeSystem, reg_of b0, reg_of b1, b2]
  exact ofS rfl rfl (by omega) (key 0 _ (by omega) (by omega)) (key 1 _ (by omega) (by omega)) hf
theorem loopi (cnt : BitVec 12) (off : BitVec 10) : Statement (.loopi cnt off) := by
  intro hf
  have u0 := bits_lt off.toNat 0 5
  have u1 := bits_lt off.toNat 5 5
  have u2 := cnt.isLt
  have key : ∀ m w, m < 2 → w = 9 + 2 * m + bits off.toNat 0 5 * 2 ^ 7 + bits off.toNat 5 5 * 2 ^ 15 + cnt.toNat * 2 ^ 20 → decodeS w = some (.loopi cnt off) := by
    intro m w hm hw
    have d0 : bits w 0 1 = 1 := by simp only [bits]; omega
    have d1 : bits w 2 5 = 2 := by simp only [bits]; omega
    have d2 : bits w 12 3 = 0 := by simp only [bits]; omega
    have b0 : bits w 7 5 = bits off.toNat 0 5 := by rw [show bits w 7 5 = w / 2 ^ 7 % 2 ^ 5 from rfl]; omega
    have b1 : bits w 15 5 = bits off.toNat 5 5 := by rw [show bits w 15 5 = w / 2 ^ 15 % 2 ^ 5 from rfl]; omega
    have b2 : bits w 20 12 = cnt.toNat := by rw [show bits w 20 12 = w / 2 ^ 20 % 2 ^ 12 from rfl]; omega
    have e : bits off.toNat 5 5 * 32 + bits off.toNat 0 5 = off.toNat := by have := off.isLt; simp only [bits]; omega
    have hc : cnt.toNat ≠ 0 := fun h => by simp [wellFormed, BitVec.eq_of_toNat_eq (x := cnt) (y := 0) (by simpa using h)] at hf
    simp [decodeS, d0, d1, d2, decodeCustom0, b0, b1, b2, e, hc]
  exact ofS rfl rfl (by omega) (key 0 _ (by omega) (by omega)) (key 1 _ (by omega) (by omega)) hf
theorem loopr (rs1 : Fin 32) (off : BitVec 12) : Statement (.loopr rs1 off) := by
  intro hf
  have u0 := rs1.isLt
  have u1 := off.isLt
  have key : ∀ m w, m < 2 → w = 4105 + 2 * m + rs1.val * 2 ^ 15 + off.toNat * 2 ^ 20 → decodeS w = some (.loopr rs1 off) := by
    intro m w hm hw
    have d0 : bits w 0 1 = 1 := by simp only [bits]; omega
    have d1 : bits w 2 5 = 2 := by simp only [bits]; omega
    have d2 : bits w 12 3 = 1 := by simp only [bits]; omega
    have b0 : bits w 7 5 = 0 := by rw [show bits w 7 5 = w / 2 ^ 7 % 2 ^ 5 from rfl]; omega
    have b1 : bits w 15 5 = rs1.val := by rw [show bits w 15 5 = w / 2 ^ 15 % 2 ^ 5 from rfl]; omega
    have b2 : bits w 20 12 = off.toNat := by rw [show bits w 20 12 = w / 2 ^ 20 % 2 ^ 12 from rfl]; omega
    simp [decodeS, d0, d1, d2, decodeCustom0, b0, reg_of b1, b2]
  exact ofS rfl rfl (by omega) (key 0 _ (by omega) (by omega)) (key 1 _ (by omega) (by omega)) hf
theorem lbrk : Statement .lbrk := ofS rfl rfl (by decide) (by decide) (by decide)
theorem endOp : Statement .endOp := ofS rfl rfl (by decide) (by decide) (by decide)
theorem qfeat (rd : Fin 32) (n : Fin 128) : Statement (.qfeat rd n) := by
  intro hf
  have u0 := rd.isLt
  have u1 := n.isLt
  have key : ∀ m w, m < 2 → w = 16393 + 2 * m + rd.val * 2 ^ 7 + n.val * 2 ^ 20 → decodeS w = some (.qfeat rd n) := by
    intro m w hm hw
    have d0 : bits w 0 1 = 1 := by simp only [bits]; omega
    have d1 : bits w 2 5 = 2 := by simp only [bits]; omega
    have d2 : bits w 12 3 = 4 := by simp only [bits]; omega
    have b0 : bits w 7 5 = rd.val := by rw [show bits w 7 5 = w / 2 ^ 7 % 2 ^ 5 from rfl]; omega
    have b1 : bits w 15 5 = 0 := by rw [show bits w 15 5 = w / 2 ^ 15 % 2 ^ 5 from rfl]; omega
    have b2 : bits w 20 12 = n.val := by rw [show bits w 20 12 = w / 2 ^ 20 % 2 ^ 12 from rfl]; omega
    simp [decodeS, d0, d1, d2, decodeCustom0, reg_of b0, b1, b2, (by omega : n.val < 128)]
  exact ofS rfl rfl (by omega) (key 0 _ (by omega) (by omega)) (key 1 _ (by omega) (by omega)) hf
theorem pcommit : Statement .pcommit := ofS rfl rfl (by decide) (by decide) (by decide)
theorem pswap : Statement .pswap := ofS rfl rfl (by decide) (by decide) (by decide)
theorem waitge (rs1 rs2 : Fin 32) : Statement (.waitge rs1 rs2) := by
  intro hf
  have u0 := rs1.isLt
  have u1 := rs2.isLt
  have key : ∀ m w, m < 2 → w = 41 + 2 * m + rs1.val * 2 ^ 15 + rs2.val * 2 ^ 20 → decodeS w = some (.waitge rs1 rs2) := by
    intro m w hm hw
    have d0 : bits w 0 1 = 1 := by simp only [bits]; omega
    have d1 : bits w 2 5 = 10 := by simp only [bits]; omega
    have d2 : bits w 12 3 = 0 := by simp only [bits]; omega
    have b0 : bits w 7 5 = 0 := by rw [show bits w 7 5 = w / 2 ^ 7 % 2 ^ 5 from rfl]; omega
    have b1 : bits w 25 7 = 0 := by rw [show bits w 25 7 = w / 2 ^ 25 % 2 ^ 7 from rfl]; omega
    have b2 : bits w 15 5 = rs1.val := by rw [show bits w 15 5 = w / 2 ^ 15 % 2 ^ 5 from rfl]; omega
    have b3 : bits w 20 5 = rs2.val := by rw [show bits w 20 5 = w / 2 ^ 20 % 2 ^ 5 from rfl]; omega
    simp [decodeS, d0, d1, d2, decodeCustom1, b0, b1, reg_of b2, reg_of b3]
  exact ofS rfl rfl (by omega) (key 0 _ (by omega) (by omega)) (key 1 _ (by omega) (by omega)) hf
theorem evpop (rd : Fin 32) : Statement (.evpop rd) := by
  intro hf
  have u0 := rd.isLt
  have key : ∀ m w, m < 2 → w = 4137 + 2 * m + rd.val * 2 ^ 7 → decodeS w = some (.evpop rd) := by
    intro m w hm hw
    have d0 : bits w 0 1 = 1 := by simp only [bits]; omega
    have d1 : bits w 2 5 = 10 := by simp only [bits]; omega
    have d2 : bits w 12 3 = 1 := by simp only [bits]; omega
    have b0 : bits w 7 5 = rd.val := by rw [show bits w 7 5 = w / 2 ^ 7 % 2 ^ 5 from rfl]; omega
    have b1 : bits w 15 17 = 0 := by rw [show bits w 15 17 = w / 2 ^ 15 % 2 ^ 17 from rfl]; omega
    simp [decodeS, d0, d1, d2, decodeCustom1, reg_of b0, b1]
  exact ofS rfl rfl (by omega) (key 0 _ (by omega) (by omega)) (key 1 _ (by omega) (by omega)) hf
theorem bar (scope : Scope) (id : Fin 512) : Statement (.bar scope id) := by
  intro hf
  have u0 := id.isLt
  have u1 := scopeCode_lt scope
  have key : ∀ m w, m < 2 → w = 8233 + 2 * m + id.val * 2 ^ 20 + scopeCode scope * 2 ^ 29 → decodeS w = some (.bar scope id) := by
    intro m w hm hw
    have d0 : bits w 0 1 = 1 := by simp only [bits]; omega
    have d1 : bits w 2 5 = 10 := by simp only [bits]; omega
    have d2 : bits w 12 3 = 2 := by simp only [bits]; omega
    have b0 : bits w 7 5 = 0 := by rw [show bits w 7 5 = w / 2 ^ 7 % 2 ^ 5 from rfl]; omega
    have b1 : bits w 15 5 = 0 := by rw [show bits w 15 5 = w / 2 ^ 15 % 2 ^ 5 from rfl]; omega
    have b2 : bits w 20 9 = id.val := by rw [show bits w 20 9 = w / 2 ^ 20 % 2 ^ 9 from rfl]; omega
    have b3 : bits w 29 3 = scopeCode scope := by rw [show bits w 29 3 = w / 2 ^ 29 % 2 ^ 3 from rfl]; omega
    simp [decodeS, d0, d1, d2, decodeCustom1, b0, b1, b2, b3, scopeOf_scopeCode]
  exact ofS rfl rfl (by omega) (key 0 _ (by omega) (by omega)) (key 1 _ (by omega) (by omega)) hf
theorem nextitem (rd : Fin 32) : Statement (.nextitem rd) := by
  intro hf
  have u0 := rd.isLt
  have key : ∀ m w, m < 2 → w = 12329 + 2 * m + rd.val * 2 ^ 7 → decodeS w = some (.nextitem rd) := by
    intro m w hm hw
    have d0 : bits w 0 1 = 1 := by simp only [bits]; omega
    have d1 : bits w 2 5 = 10 := by simp only [bits]; omega
    have d2 : bits w 12 3 = 3 := by simp only [bits]; omega
    have b0 : bits w 7 5 = rd.val := by rw [show bits w 7 5 = w / 2 ^ 7 % 2 ^ 5 from rfl]; omega
    have b1 : bits w 15 17 = 0 := by rw [show bits w 15 17 = w / 2 ^ 15 % 2 ^ 17 from rfl]; omega
    simp [decodeS, d0, d1, d2, decodeCustom1, reg_of b0, b1]
  exact ofS rfl rfl (by omega) (key 0 _ (by omega) (by omega)) (key 1 _ (by omega) (by omega)) hf
theorem emit (rs1 : Fin 32) (n : Fin 8) : Statement (.emit rs1 n) := by
  intro hf
  have u0 := rs1.isLt
  have u1 := n.isLt
  have key : ∀ m w, m < 2 → w = 16425 + 2 * m + rs1.val * 2 ^ 15 + n.val * 2 ^ 20 → decodeS w = some (.emit rs1 n) := by
    intro m w hm hw
    have d0 : bits w 0 1 = 1 := by simp only [bits]; omega
    have d1 : bits w 2 5 = 10 := by simp only [bits]; omega
    have d2 : bits w 12 3 = 4 := by simp only [bits]; omega
    have b0 : bits w 7 5 = 0 := by rw [show bits w 7 5 = w / 2 ^ 7 % 2 ^ 5 from rfl]; omega
    have b1 : bits w 15 5 = rs1.val := by rw [show bits w 15 5 = w / 2 ^ 15 % 2 ^ 5 from rfl]; omega
    have b2 : bits w 20 12 = n.val := by rw [show bits w 20 12 = w / 2 ^ 20 % 2 ^ 12 from rfl]; omega
    simp [decodeS, d0, d1, d2, decodeCustom1, b0, reg_of b1, b2, (by omega : n.val < 8)]
  exact ofS rfl rfl (by omega) (key 0 _ (by omega) (by omega)) (key 1 _ (by omega) (by omega)) hf
theorem ldl (o : IType) : Statement (.ldl o) := by
  intro hf
  have p := iType_encI (base := 20521) (m := 0) (op := 10) (f3 := 5) o (by norm_num) (by norm_num) (by norm_num) rfl
  have q := iType_encI (base := 20523) (m := 1) (op := 10) (f3 := 5) o (by norm_num) (by norm_num) (by norm_num) rfl
  exact ofS rfl rfl p.2.2.2.2 (by simp [decodeS, decodeCustom1, p]) (by rw [encI_two]; simp [decodeS, decodeCustom1, q]) hf
theorem stul (o : SType) : Statement (.stul o) := by
  intro hf
  have p := sType_encS (base := 24617) (m := 0) (op := 10) (f3 := 6) o (by norm_num) (by norm_num) (by norm_num) rfl
  have q := sType_encS (base := 24619) (m := 1) (op := 10) (f3 := 6) o (by norm_num) (by norm_num) (by norm_num) rfl
  exact ofS rfl rfl p.2.2.2.2 (by simp [decodeS, decodeCustom1, p]) (by rw [encS_two]; simp [decodeS, decodeCustom1, q]) hf
theorem amoaddW (o : RType) : Statement (.amoaddW o) := by
  intro hf
  have p := rType_encR (base := 8281) (m := 0) (op := 22) (f3 := 2) (f7 := 0) o (by norm_num) (by norm_num) (by norm_num) (by norm_num) rfl
  have q := rType_encR (base := 8283) (m := 1) (op := 22) (f3 := 2) (f7 := 0) o (by norm_num) (by norm_num) (by norm_num) (by norm_num) rfl
  exact ofS rfl rfl p.2.2.2.2.2 (by simp [decodeS, decodeAmo, p]) (by rw [encR_two]; simp [decodeS, decodeAmo, q]) hf
theorem amoaddD (o : RType) : Statement (.amoaddD o) := by
  intro hf
  have p := rType_encR (base := 12377) (m := 0) (op := 22) (f3 := 3) (f7 := 0) o (by norm_num) (by norm_num) (by norm_num) (by norm_num) rfl
  have q := rType_encR (base := 12379) (m := 1) (op := 22) (f3 := 3) (f7 := 0) o (by norm_num) (by norm_num) (by norm_num) (by norm_num) rfl
  exact ofS rfl rfl p.2.2.2.2.2 (by simp [decodeS, decodeAmo, p]) (by rw [encR_two]; simp [decodeS, decodeAmo, q]) hf
theorem amoandW (o : RType) : Statement (.amoandW o) := by
  intro hf
  have p := rType_encR (base := 134226009) (m := 0) (op := 22) (f3 := 2) (f7 := 4) o (by norm_num) (by norm_num) (by norm_num) (by norm_num) rfl
  have q := rType_encR (base := 134226011) (m := 1) (op := 22) (f3 := 2) (f7 := 4) o (by norm_num) (by norm_num) (by norm_num) (by norm_num) rfl
  exact ofS rfl rfl p.2.2.2.2.2 (by simp [decodeS, decodeAmo, p]) (by rw [encR_two]; simp [decodeS, decodeAmo, q]) hf
theorem amoandD (o : RType) : Statement (.amoandD o) := by
  intro hf
  have p := rType_encR (base := 134230105) (m := 0) (op := 22) (f3 := 3) (f7 := 4) o (by norm_num) (by norm_num) (by norm_num) (by norm_num) rfl
  have q := rType_encR (base := 134230107) (m := 1) (op := 22) (f3 := 3) (f7 := 4) o (by norm_num) (by norm_num) (by norm_num) (by norm_num) rfl
  exact ofS rfl rfl p.2.2.2.2.2 (by simp [decodeS, decodeAmo, p]) (by rw [encR_two]; simp [decodeS, decodeAmo, q]) hf
theorem amoorW (o : RType) : Statement (.amoorW o) := by
  intro hf
  have p := rType_encR (base := 268443737) (m := 0) (op := 22) (f3 := 2) (f7 := 8) o (by norm_num) (by norm_num) (by norm_num) (by norm_num) rfl
  have q := rType_encR (base := 268443739) (m := 1) (op := 22) (f3 := 2) (f7 := 8) o (by norm_num) (by norm_num) (by norm_num) (by norm_num) rfl
  exact ofS rfl rfl p.2.2.2.2.2 (by simp [decodeS, decodeAmo, p]) (by rw [encR_two]; simp [decodeS, decodeAmo, q]) hf
theorem amoorD (o : RType) : Statement (.amoorD o) := by
  intro hf
  have p := rType_encR (base := 268447833) (m := 0) (op := 22) (f3 := 3) (f7 := 8) o (by norm_num) (by norm_num) (by norm_num) (by norm_num) rfl
  have q := rType_encR (base := 268447835) (m := 1) (op := 22) (f3 := 3) (f7 := 8) o (by norm_num) (by norm_num) (by norm_num) (by norm_num) rfl
  exact ofS rfl rfl p.2.2.2.2.2 (by simp [decodeS, decodeAmo, p]) (by rw [encR_two]; simp [decodeS, decodeAmo, q]) hf
theorem amoxorW (o : RType) : Statement (.amoxorW o) := by
  intro hf
  have p := rType_encR (base := 402661465) (m := 0) (op := 22) (f3 := 2) (f7 := 12) o (by norm_num) (by norm_num) (by norm_num) (by norm_num) rfl
  have q := rType_encR (base := 402661467) (m := 1) (op := 22) (f3 := 2) (f7 := 12) o (by norm_num) (by norm_num) (by norm_num) (by norm_num) rfl
  exact ofS rfl rfl p.2.2.2.2.2 (by simp [decodeS, decodeAmo, p]) (by rw [encR_two]; simp [decodeS, decodeAmo, q]) hf
theorem amoxorD (o : RType) : Statement (.amoxorD o) := by
  intro hf
  have p := rType_encR (base := 402665561) (m := 0) (op := 22) (f3 := 3) (f7 := 12) o (by norm_num) (by norm_num) (by norm_num) (by norm_num) rfl
  have q := rType_encR (base := 402665563) (m := 1) (op := 22) (f3 := 3) (f7 := 12) o (by norm_num) (by norm_num) (by norm_num) (by norm_num) rfl
  exact ofS rfl rfl p.2.2.2.2.2 (by simp [decodeS, decodeAmo, p]) (by rw [encR_two]; simp [decodeS, decodeAmo, q]) hf
theorem amominW (o : RType) : Statement (.amominW o) := by
  intro hf
  have p := rType_encR (base := 536879193) (m := 0) (op := 22) (f3 := 2) (f7 := 16) o (by norm_num) (by norm_num) (by norm_num) (by norm_num) rfl
  have q := rType_encR (base := 536879195) (m := 1) (op := 22) (f3 := 2) (f7 := 16) o (by norm_num) (by norm_num) (by norm_num) (by norm_num) rfl
  exact ofS rfl rfl p.2.2.2.2.2 (by simp [decodeS, decodeAmo, p]) (by rw [encR_two]; simp [decodeS, decodeAmo, q]) hf
theorem amominD (o : RType) : Statement (.amominD o) := by
  intro hf
  have p := rType_encR (base := 536883289) (m := 0) (op := 22) (f3 := 3) (f7 := 16) o (by norm_num) (by norm_num) (by norm_num) (by norm_num) rfl
  have q := rType_encR (base := 536883291) (m := 1) (op := 22) (f3 := 3) (f7 := 16) o (by norm_num) (by norm_num) (by norm_num) (by norm_num) rfl
  exact ofS rfl rfl p.2.2.2.2.2 (by simp [decodeS, decodeAmo, p]) (by rw [encR_two]; simp [decodeS, decodeAmo, q]) hf
theorem amomaxW (o : RType) : Statement (.amomaxW o) := by
  intro hf
  have p := rType_encR (base := 671096921) (m := 0) (op := 22) (f3 := 2) (f7 := 20) o (by norm_num) (by norm_num) (by norm_num) (by norm_num) rfl
  have q := rType_encR (base := 671096923) (m := 1) (op := 22) (f3 := 2) (f7 := 20) o (by norm_num) (by norm_num) (by norm_num) (by norm_num) rfl
  exact ofS rfl rfl p.2.2.2.2.2 (by simp [decodeS, decodeAmo, p]) (by rw [encR_two]; simp [decodeS, decodeAmo, q]) hf
theorem amomaxD (o : RType) : Statement (.amomaxD o) := by
  intro hf
  have p := rType_encR (base := 671101017) (m := 0) (op := 22) (f3 := 3) (f7 := 20) o (by norm_num) (by norm_num) (by norm_num) (by norm_num) rfl
  have q := rType_encR (base := 671101019) (m := 1) (op := 22) (f3 := 3) (f7 := 20) o (by norm_num) (by norm_num) (by norm_num) (by norm_num) rfl
  exact ofS rfl rfl p.2.2.2.2.2 (by simp [decodeS, decodeAmo, p]) (by rw [encR_two]; simp [decodeS, decodeAmo, q]) hf
theorem amominnW (o : RType) : Statement (.amominnW o) := by
  intro hf
  have p := rType_encR (base := 805314649) (m := 0) (op := 22) (f3 := 2) (f7 := 24) o (by norm_num) (by norm_num) (by norm_num) (by norm_num) rfl
  have q := rType_encR (base := 805314651) (m := 1) (op := 22) (f3 := 2) (f7 := 24) o (by norm_num) (by norm_num) (by norm_num) (by norm_num) rfl
  exact ofS rfl rfl p.2.2.2.2.2 (by simp [decodeS, decodeAmo, p]) (by rw [encR_two]; simp [decodeS, decodeAmo, q]) hf
theorem amominnD (o : RType) : Statement (.amominnD o) := by
  intro hf
  have p := rType_encR (base := 805318745) (m := 0) (op := 22) (f3 := 3) (f7 := 24) o (by norm_num) (by norm_num) (by norm_num) (by norm_num) rfl
  have q := rType_encR (base := 805318747) (m := 1) (op := 22) (f3 := 3) (f7 := 24) o (by norm_num) (by norm_num) (by norm_num) (by norm_num) rfl
  exact ofS rfl rfl p.2.2.2.2.2 (by simp [decodeS, decodeAmo, p]) (by rw [encR_two]; simp [decodeS, decodeAmo, q]) hf
theorem amomaxnW (o : RType) : Statement (.amomaxnW o) := by
  intro hf
  have p := rType_encR (base := 939532377) (m := 0) (op := 22) (f3 := 2) (f7 := 28) o (by norm_num) (by norm_num) (by norm_num) (by norm_num) rfl
  have q := rType_encR (base := 939532379) (m := 1) (op := 22) (f3 := 2) (f7 := 28) o (by norm_num) (by norm_num) (by norm_num) (by norm_num) rfl
  exact ofS rfl rfl p.2.2.2.2.2 (by simp [decodeS, decodeAmo, p]) (by rw [encR_two]; simp [decodeS, decodeAmo, q]) hf
theorem amomaxnD (o : RType) : Statement (.amomaxnD o) := by
  intro hf
  have p := rType_encR (base := 939536473) (m := 0) (op := 22) (f3 := 3) (f7 := 28) o (by norm_num) (by norm_num) (by norm_num) (by norm_num) rfl
  have q := rType_encR (base := 939536475) (m := 1) (op := 22) (f3 := 3) (f7 := 28) o (by norm_num) (by norm_num) (by norm_num) (by norm_num) rfl
  exact ofS rfl rfl p.2.2.2.2.2 (by simp [decodeS, decodeAmo, p]) (by rw [encR_two]; simp [decodeS, decodeAmo, q]) hf
theorem amoswapW (o : RType) : Statement (.amoswapW o) := by
  intro hf
  have p := rType_encR (base := 1073750105) (m := 0) (op := 22) (f3 := 2) (f7 := 32) o (by norm_num) (by norm_num) (by norm_num) (by norm_num) rfl
  have q := rType_encR (base := 1073750107) (m := 1) (op := 22) (f3 := 2) (f7 := 32) o (by norm_num) (by norm_num) (by norm_num) (by norm_num) rfl
  exact ofS rfl rfl p.2.2.2.2.2 (by simp [decodeS, decodeAmo, p]) (by rw [encR_two]; simp [decodeS, decodeAmo, q]) hf
theorem amoswapD (o : RType) : Statement (.amoswapD o) := by
  intro hf
  have p := rType_encR (base := 1073754201) (m := 0) (op := 22) (f3 := 3) (f7 := 32) o (by norm_num) (by norm_num) (by norm_num) (by norm_num) rfl
  have q := rType_encR (base := 1073754203) (m := 1) (op := 22) (f3 := 3) (f7 := 32) o (by norm_num) (by norm_num) (by norm_num) (by norm_num) rfl
  exact ofS rfl rfl p.2.2.2.2.2 (by simp [decodeS, decodeAmo, p]) (by rw [encR_two]; simp [decodeS, decodeAmo, q]) hf
theorem casW (o : RType) : Statement (.casW o) := by
  intro hf
  have p := rType_encR (base := 1207967833) (m := 0) (op := 22) (f3 := 2) (f7 := 36) o (by norm_num) (by norm_num) (by norm_num) (by norm_num) rfl
  have q := rType_encR (base := 1207967835) (m := 1) (op := 22) (f3 := 2) (f7 := 36) o (by norm_num) (by norm_num) (by norm_num) (by norm_num) rfl
  exact ofS rfl rfl p.2.2.2.2.2 (by simp [decodeS, decodeAmo, p]) (by rw [encR_two]; simp [decodeS, decodeAmo, q]) hf
theorem casD (o : RType) : Statement (.casD o) := by
  intro hf
  have p := rType_encR (base := 1207971929) (m := 0) (op := 22) (f3 := 3) (f7 := 36) o (by norm_num) (by norm_num) (by norm_num) (by norm_num) rfl
  have q := rType_encR (base := 1207971931) (m := 1) (op := 22) (f3 := 3) (f7 := 36) o (by norm_num) (by norm_num) (by norm_num) (by norm_num) rfl
  exact ofS rfl rfl p.2.2.2.2.2 (by simp [decodeS, decodeAmo, p]) (by rw [encR_two]; simp [decodeS, decodeAmo, q]) hf
theorem tret : Statement .tret := ofS rfl rfl (by decide) (by decide) (by decide)
theorem ctxsave (rs1 : Fin 32) : Statement (.ctxsave rs1) := by
  intro hf
  have u0 := rs1.isLt
  have key : ∀ m w, m < 2 → w = 4217 + 2 * m + rs1.val * 2 ^ 15 → decodeS w = some (.ctxsave rs1) := by
    intro m w hm hw
    have d0 : bits w 0 1 = 1 := by simp only [bits]; omega
    have d1 : bits w 2 5 = 30 := by simp only [bits]; omega
    have d2 : bits w 12 3 = 1 := by simp only [bits]; omega
    have b0 : bits w 7 5 = 0 := by rw [show bits w 7 5 = w / 2 ^ 7 % 2 ^ 5 from rfl]; omega
    have b1 : bits w 15 5 = rs1.val := by rw [show bits w 15 5 = w / 2 ^ 15 % 2 ^ 5 from rfl]; omega
    have b2 : bits w 20 12 = 0 := by rw [show bits w 20 12 = w / 2 ^ 20 % 2 ^ 12 from rfl]; omega
    simp [decodeS, d0, d1, d2, decodeCustom3, b0, reg_of b1, b2]
  exact ofS rfl rfl (by omega) (key 0 _ (by omega) (by omega)) (key 1 _ (by omega) (by omega)) hf
theorem ctxload (rs1 : Fin 32) : Statement (.ctxload rs1) := by
  intro hf
  have u0 := rs1.isLt
  have key : ∀ m w, m < 2 → w = 8313 + 2 * m + rs1.val * 2 ^ 15 → decodeS w = some (.ctxload rs1) := by
    intro m w hm hw
    have d0 : bits w 0 1 = 1 := by simp only [bits]; omega
    have d1 : bits w 2 5 = 30 := by simp only [bits]; omega
    have d2 : bits w 12 3 = 2 := by simp only [bits]; omega
    have b0 : bits w 7 5 = 0 := by rw [show bits w 7 5 = w / 2 ^ 7 % 2 ^ 5 from rfl]; omega
    have b1 : bits w 15 5 = rs1.val := by rw [show bits w 15 5 = w / 2 ^ 15 % 2 ^ 5 from rfl]; omega
    have b2 : bits w 20 12 = 0 := by rw [show bits w 20 12 = w / 2 ^ 20 % 2 ^ 12 from rfl]; omega
    simp [decodeS, d0, d1, d2, decodeCustom3, b0, reg_of b1, b2]
  exact ofS rfl rfl (by omega) (key 0 _ (by omega) (by omega)) (key 1 _ (by omega) (by omega)) hf
theorem kgen (rd : Fin 32) : Statement (.kgen rd) := by
  intro hf
  have u0 := rd.isLt
  have key : ∀ m w, m < 2 → w = 12409 + 2 * m + rd.val * 2 ^ 7 → decodeS w = some (.kgen rd) := by
    intro m w hm hw
    have d0 : bits w 0 1 = 1 := by simp only [bits]; omega
    have d1 : bits w 2 5 = 30 := by simp only [bits]; omega
    have d2 : bits w 12 3 = 3 := by simp only [bits]; omega
    have b0 : bits w 7 5 = rd.val := by rw [show bits w 7 5 = w / 2 ^ 7 % 2 ^ 5 from rfl]; omega
    have b1 : bits w 15 17 = 0 := by rw [show bits w 15 17 = w / 2 ^ 15 % 2 ^ 17 from rfl]; omega
    simp [decodeS, d0, d1, d2, decodeCustom3, reg_of b0, b1]
  exact ofS rfl rfl (by omega) (key 0 _ (by omega) (by omega)) (key 1 _ (by omega) (by omega)) hf
theorem krot (rd rs1 : Fin 32) : Statement (.krot rd rs1) := by
  intro hf
  have u0 := rd.isLt
  have u1 := rs1.isLt
  have key : ∀ m w, m < 2 → w = 16505 + 2 * m + rd.val * 2 ^ 7 + rs1.val * 2 ^ 15 → decodeS w = some (.krot rd rs1) := by
    intro m w hm hw
    have d0 : bits w 0 1 = 1 := by simp only [bits]; omega
    have d1 : bits w 2 5 = 30 := by simp only [bits]; omega
    have d2 : bits w 12 3 = 4 := by simp only [bits]; omega
    have b0 : bits w 7 5 = rd.val := by rw [show bits w 7 5 = w / 2 ^ 7 % 2 ^ 5 from rfl]; omega
    have b1 : bits w 15 5 = rs1.val := by rw [show bits w 15 5 = w / 2 ^ 15 % 2 ^ 5 from rfl]; omega
    have b2 : bits w 20 12 = 0 := by rw [show bits w 20 12 = w / 2 ^ 20 % 2 ^ 12 from rfl]; omega
    simp [decodeS, d0, d1, d2, decodeCustom3, reg_of b0, reg_of b1, b2]
  exact ofS rfl rfl (by omega) (key 0 _ (by omega) (by omega)) (key 1 _ (by omega) (by omega)) hf
theorem scrub (rd rs1 : Fin 32) : Statement (.scrub rd rs1) := by
  intro hf
  have u0 := rd.isLt
  have u1 := rs1.isLt
  have key : ∀ m w, m < 2 → w = 28793 + 2 * m + rd.val * 2 ^ 7 + rs1.val * 2 ^ 15 → decodeS w = some (.scrub rd rs1) := by
    intro m w hm hw
    have d0 : bits w 0 1 = 1 := by simp only [bits]; omega
    have d1 : bits w 2 5 = 30 := by simp only [bits]; omega
    have d2 : bits w 12 3 = 7 := by simp only [bits]; omega
    have b0 : bits w 7 5 = rd.val := by rw [show bits w 7 5 = w / 2 ^ 7 % 2 ^ 5 from rfl]; omega
    have b1 : bits w 15 5 = rs1.val := by rw [show bits w 15 5 = w / 2 ^ 15 % 2 ^ 5 from rfl]; omega
    have b2 : bits w 20 12 = 0 := by rw [show bits w 20 12 = w / 2 ^ 20 % 2 ^ 12 from rfl]; omega
    simp [decodeS, d0, d1, d2, decodeCustom3, reg_of b0, reg_of b1, b2]
  exact ofS rfl rfl (by omega) (key 0 _ (by omega) (by omega)) (key 1 _ (by omega) (by omega)) hf
theorem mclrchk (rd rs1 : Fin 32) : Statement (.mclrchk rd rs1) := by
  intro hf
  have u0 := rd.isLt
  have u1 := rs1.isLt
  have key : ∀ m w, m < 2 → w = 33583225 + 2 * m + rd.val * 2 ^ 7 + rs1.val * 2 ^ 15 → decodeS w = some (.mclrchk rd rs1) := by
    intro m w hm hw
    have d0 : bits w 0 1 = 1 := by simp only [bits]; omega
    have d1 : bits w 2 5 = 30 := by simp only [bits]; omega
    have d2 : bits w 12 3 = 7 := by simp only [bits]; omega
    have b0 : bits w 7 5 = rd.val := by rw [show bits w 7 5 = w / 2 ^ 7 % 2 ^ 5 from rfl]; omega
    have b1 : bits w 15 5 = rs1.val := by rw [show bits w 15 5 = w / 2 ^ 15 % 2 ^ 5 from rfl]; omega
    have b2 : bits w 20 12 = 32 := by rw [show bits w 20 12 = w / 2 ^ 20 % 2 ^ 12 from rfl]; omega
    simp [decodeS, d0, d1, d2, decodeCustom3, reg_of b0, reg_of b1, b2]
  exact ofS rfl rfl (by omega) (key 0 _ (by omega) (by omega)) (key 1 _ (by omega) (by omega)) hf
theorem token (rep : Fin 32) (index : Fin 512) (mark : Bool) : Statement (.token rep index mark) := by
  intro _
  have h1 := rep.isLt
  have h2 := index.isLt
  have h3 := one_lt mark
  simp only [slotOf, encode]
  obtain ⟨w, hw⟩ : ∃ w, w = rep.val * 2 ^ 11 + index.val * 2 ^ 2 + one mark * 2 := ⟨_, rfl⟩
  rw [← hw]
  have b0 : bits w 0 1 = 0 := by simp only [bits]; omega
  have b1 : bits w 11 5 = rep.val := by simp only [bits]; omega
  have b2 : bits w 2 9 = index.val := by simp only [bits]; omega
  have b3 : bits w 1 1 = one mark := by simp only [bits]; omega
  exact ⟨by omega, by simp [decodeToken, b0, b1, b2, flag_of b3]⟩
theorem nop (slot : Slot) : Statement (.nop slot) := by
  intro h
  cases slot <;> first | exact absurd h (by decide) | exact ⟨by decide, by decide, by decide⟩
theorem vld (o : LM) : Statement (.vld o) := by
  intro hf
  have p := lm_encLM (op := 1) o (by norm_num)
  exact ofSlot rfl (by decide) rfl p.2.2 (by simp [decodeSlot, decodeL, p]) hf
theorem vst (o : LM) : Statement (.vst o) := by
  intro hf
  have p := lm_encLM (op := 2) o (by norm_num)
  exact ofSlot rfl (by decide) rfl p.2.2 (by simp [decodeSlot, decodeL, p]) hf
theorem vldb (o : LM) : Statement (.vldb o) := by
  intro hf
  have p := lm_encLM (op := 3) o (by norm_num)
  exact ofSlot rfl (by decide) rfl p.2.2 (by simp [decodeSlot, decodeL, p]) hf
theorem vstp (o : LM) : Statement (.vstp o) := by
  intro hf
  have p := lm_encLM (op := 4) o (by norm_num)
  exact ofSlot rfl (by decide) rfl p.2.2 (by simp [decodeSlot, decodeL, p]) hf
theorem vldx (o : LM) : Statement (.vldx o) := by
  intro hf
  have p := lm_encLM (op := 5) o (by norm_num)
  exact ofSlot rfl (by decide) rfl p.2.2 (by simp [decodeSlot, decodeL, p]) hf
theorem vlds (o : LS) : Statement (.vlds o) := by
  intro hf
  have p := lsForm_encLS (op := 6) o (by norm_num)
  exact ofSlot rfl (by decide) rfl p.2.2 (by simp [decodeSlot, decodeL, p]) hf
theorem vsts (o : LS) : Statement (.vsts o) := by
  intro hf
  have p := lsForm_encLS (op := 7) o (by norm_num)
  exact ofSlot rfl (by decide) rfl p.2.2 (by simp [decodeSlot, decodeL, p]) hf
theorem sld (o : LM) : Statement (.sld o) := by
  intro hf
  have p := lm_encLM (op := 8) o (by norm_num)
  exact ofSlot rfl (by decide) rfl p.2.2 (by simp [decodeSlot, decodeL, p]) hf
theorem sst (o : LM) : Statement (.sst o) := by
  intro hf
  have p := lm_encLM (op := 9) o (by norm_num)
  exact ofSlot rfl (by decide) rfl p.2.2 (by simp [decodeSlot, decodeL, p]) hf
theorem vpush (vs : Fin 32) (qd : Fin 4) (pg : Option (Fin 48)) : Statement (.vpush vs qd pg) := by
  intro hf
  have u1 := vs.isLt
  have u2 := qd.isLt
  have u3 := pgCode_lt pg
  obtain ⟨w', hw⟩ : ∃ w', w' = 10 * 2 ^ 26 + vs.val * 2 ^ 21 + qd.val * 2 ^ 19 + pgCode pg := ⟨_, rfl⟩
  have hl : w' < 2 ^ 32 := by omega
  have d0 : bits w' 26 6 = 10 := bits_top (low := (vs.val) * 2097152 + (qd.val) * 524288 + (pgCode pg)) (Q := 67108864) (by norm_num)
      (by rw [hw]; ring) (by clear hw; omega) (by omega)
  have b0 : bits w' 21 5 = vs.val := bits_mid (hi := 10) (low := (qd.val) * 524288 + (pgCode pg)) (P := 67108864) (Q := 2097152) (by norm_num) (by norm_num)
      (by rw [hw]; ring) (by clear hw; omega) (by omega)
  have b1 : bits w' 6 13 = 0 := bits_mid (hi := 10 * 128 + (vs.val) * 4 + (qd.val)) (low := (pgCode pg)) (P := 524288) (Q := 64) (by norm_num) (by norm_num)
      (by rw [hw]; ring) (by clear hw; omega) (by omega)
  have b2 : bits w' 19 2 = qd.val := bits_mid (hi := 10 * 32 + (vs.val)) (low := (pgCode pg)) (P := 2097152) (Q := 524288) (by norm_num) (by norm_num)
      (by rw [hw]; ring) (by clear hw; omega) (by omega)
  have b3 : bits w' 0 6 = pgCode pg := bits_mid (hi := 10 * 1048576 + (vs.val) * 32768 + (qd.val) * 8192) (low := 0) (P := 64) (Q := 1) (by norm_num) (by norm_num)
      (by rw [hw]; ring) (by clear hw; omega) (by omega)
  exact ofSlot (sl := .l) (w := w') rfl (by decide) (by rw [hw]; rfl) hl (by simp [decodeSlot, decodeL, d0, reg_of b0, b1, b2, b3, pgOf_pgCode, (by simpa [wellFormed] using hf : 2 ≤ qd.val)]) hf
theorem hset (h : Fin 16) (xa : Fin 32) : Statement (.hset h xa) := by
  intro hf
  have u1 := h.isLt
  have u2 := xa.isLt
  obtain ⟨w', hw⟩ : ∃ w', w' = 16 * 2 ^ 26 + h.val * 2 ^ 22 + xa.val * 2 ^ 17 := ⟨_, rfl⟩
  have hl : w' < 2 ^ 32 := by omega
  have d0 : bits w' 26 6 = 16 := bits_top (low := (h.val) * 4194304 + (xa.val) * 131072) (Q := 67108864) (by norm_num)
      (by rw [hw]; ring) (by clear hw; omega) (by omega)
  have b0 : bits w' 0 17 = 0 := bits_mid (hi := 16 * 512 + (h.val) * 32 + (xa.val)) (low := 0) (P := 131072) (Q := 1) (by norm_num) (by norm_num)
      (by rw [hw]; ring) (by clear hw; omega) (by omega)
  have b1 : bits w' 22 4 = h.val := bits_mid (hi := 16) (low := (xa.val) * 131072) (P := 67108864) (Q := 4194304) (by norm_num) (by norm_num)
      (by rw [hw]; ring) (by clear hw; omega) (by omega)
  have b2 : bits w' 22 4 = h.val := bits_mid (hi := 16) (low := (xa.val) * 131072) (P := 67108864) (Q := 4194304) (by norm_num) (by norm_num)
      (by rw [hw]; ring) (by clear hw; omega) (by omega)
  have b3 : bits w' 17 5 = xa.val := bits_mid (hi := 16 * 16 + (h.val)) (low := 0) (P := 4194304) (Q := 131072) (by norm_num) (by norm_num)
      (by rw [hw]; ring) (by clear hw; omega) (by omega)
  exact ofSlot (sl := .l) (w := w') rfl (by decide) (by rw [hw]; rfl) hl (by simp [decodeSlot, decodeL, d0, b0, hnd_of b1, b2, reg_of b3, (by simpa [wellFormed] using hf : h.val ≠ 15)]) hf
theorem hget (h : Fin 16) (xd : Fin 32) (sel : Fin 4) : Statement (.hget h xd sel) := by
  intro hf
  have u1 := h.isLt
  have u2 := xd.isLt
  have u3 := sel.isLt
  obtain ⟨w', hw⟩ : ∃ w', w' = 17 * 2 ^ 26 + h.val * 2 ^ 22 + xd.val * 2 ^ 17 + sel.val * 2 ^ 14 := ⟨_, rfl⟩
  have hl : w' < 2 ^ 32 := by omega
  have d0 : bits w' 26 6 = 17 := bits_top (low := (h.val) * 4194304 + (xd.val) * 131072 + (sel.val) * 16384) (Q := 67108864) (by norm_num)
      (by rw [hw]; ring) (by clear hw; omega) (by omega)
  have b0 : bits w' 0 14 = 0 := bits_mid (hi := 17 * 4096 + (h.val) * 256 + (xd.val) * 8 + (sel.val)) (low := 0) (P := 16384) (Q := 1) (by norm_num) (by norm_num)
      (by rw [hw]; ring) (by clear hw; omega) (by omega)
  have b1 : bits w' 22 4 = h.val := bits_mid (hi := 17) (low := (xd.val) * 131072 + (sel.val) * 16384) (P := 67108864) (Q := 4194304) (by norm_num) (by norm_num)
      (by rw [hw]; ring) (by clear hw; omega) (by omega)
  have b2 : bits w' 17 5 = xd.val := bits_mid (hi := 17 * 16 + (h.val)) (low := (sel.val) * 16384) (P := 4194304) (Q := 131072) (by norm_num) (by norm_num)
      (by rw [hw]; ring) (by clear hw; omega) (by omega)
  have b3 : bits w' 14 3 = sel.val := bits_mid (hi := 17 * 512 + (h.val) * 32 + (xd.val)) (low := 0) (P := 131072) (Q := 16384) (by norm_num) (by norm_num)
      (by rw [hw]; ring) (by clear hw; omega) (by omega)
  exact ofSlot (sl := .l) (w := w') rfl (by decide) (by rw [hw]; rfl) hl (by simp [decodeSlot, decodeL, d0, b0, hnd_of b1, reg_of b2, b3, (by omega : sel.val < 4)]) hf
theorem hclr (h : Fin 16) : Statement (.hclr h) := by
  intro hf
  have u1 := h.isLt
  obtain ⟨w', hw⟩ : ∃ w', w' = 18 * 2 ^ 26 + h.val * 2 ^ 22 := ⟨_, rfl⟩
  have hl : w' < 2 ^ 32 := by omega
  have d0 : bits w' 26 6 = 18 := bits_top (low := (h.val) * 4194304) (Q := 67108864) (by norm_num)
      (by rw [hw]; ring) (by clear hw; omega) (by omega)
  have b0 : bits w' 0 22 = 0 := bits_mid (hi := 18 * 16 + (h.val)) (low := 0) (P := 4194304) (Q := 1) (by norm_num) (by norm_num)
      (by rw [hw]; ring) (by clear hw; omega) (by omega)
  have b1 : bits w' 22 4 = h.val := bits_mid (hi := 18) (low := 0) (P := 67108864) (Q := 4194304) (by norm_num) (by norm_num)
      (by rw [hw]; ring) (by clear hw; omega) (by omega)
  have b2 : bits w' 22 4 = h.val := bits_mid (hi := 18) (low := 0) (P := 67108864) (Q := 4194304) (by norm_num) (by norm_num)
      (by rw [hw]; ring) (by clear hw; omega) (by omega)
  exact ofSlot (sl := .l) (w := w') rfl (by decide) (by rw [hw]; rfl) hl (by simp [decodeSlot, decodeL, d0, b0, hnd_of b1, b2, (by simpa [wellFormed] using hf : h.val ≠ 15)]) hf
theorem fence (kind : FenceKind) (o : LF) : Statement (.fence kind o) := by
  intro hf
  have p := lfForm_encLF (op := 24) (kind := fenceKindCode kind) o (by norm_num) (fenceKindCode_lt kind)
  exact ofSlot rfl (by decide) rfl p.2.2.2 (by simp [decodeSlot, decodeL, p, fenceKindOf_fenceKindCode]) hf
theorem acqH (o : LF) : Statement (.acqH o) := by
  intro hf
  have p := lfForm_encLF (op := 25) (kind := 0) o (by norm_num) (by norm_num)
  exact ofSlot rfl (by decide) rfl p.2.2.2 (by simp [decodeSlot, decodeL, p, fenceKindOf_fenceKindCode]) hf
theorem relH (o : LF) : Statement (.relH o) := by
  intro hf
  have p := lfForm_encLF (op := 26) (kind := 0) o (by norm_num) (by norm_num)
  exact ofSlot rfl (by decide) rfl p.2.2.2 (by simp [decodeSlot, decodeL, p, fenceKindOf_fenceKindCode]) hf
theorem errfence (paths : BitVec 5) (hmask : BitVec 16) : Statement (.errfence paths hmask) := by
  intro hf
  have u1 := paths.isLt
  have u2 := hmask.isLt
  obtain ⟨w', hw⟩ : ∃ w', w' = 27 * 2 ^ 26 + paths.toNat * 2 ^ 16 + hmask.toNat := ⟨_, rfl⟩
  have hl : w' < 2 ^ 32 := by omega
  have d0 : bits w' 26 6 = 27 := bits_top (low := (paths.toNat) * 65536 + (hmask.toNat)) (Q := 67108864) (by norm_num)
      (by rw [hw]; ring) (by clear hw; omega) (by omega)
  have b0 : bits w' 21 5 = 0 := bits_mid (hi := 27) (low := (paths.toNat) * 65536 + (hmask.toNat)) (P := 67108864) (Q := 2097152) (by norm_num) (by norm_num)
      (by rw [hw]; ring) (by clear hw; omega) (by omega)
  have b1 : bits w' 16 5 = paths.toNat := bits_mid (hi := 27 * 32) (low := (hmask.toNat)) (P := 2097152) (Q := 65536) (by norm_num) (by norm_num)
      (by rw [hw]; ring) (by clear hw; omega) (by omega)
  have b2 : bits w' 0 16 = hmask.toNat := bits_mid (hi := 27 * 1024 + (paths.toNat)) (low := 0) (P := 65536) (Q := 1) (by norm_num) (by norm_num)
      (by rw [hw]; ring) (by clear hw; omega) (by omega)
  exact ofSlot (sl := .l) (w := w') rfl (by decide) (by rw [hw]; rfl) hl (by simp [decodeSlot, decodeL, d0, b0, b1, b2]) hf
theorem vadd (e : VEng) (o : V3R) : Statement (.vadd e o) := by
  intro hf
  have p := v3r_encV3R (e := e) (op := 1) o (by norm_num) hf
  cases e
  · exact ofSlot (sl := .v0) rfl (by decide) rfl p.2.2 (by simp [decodeSlot, decodeV, p]) hf
  · exact ofSlot (sl := .v1) rfl (by decide) rfl p.2.2 (by simp [decodeSlot, decodeV, p]) hf
theorem vsub (e : VEng) (o : V3R) : Statement (.vsub e o) := by
  intro hf
  have p := v3r_encV3R (e := e) (op := 2) o (by norm_num) hf
  cases e
  · exact ofSlot (sl := .v0) rfl (by decide) rfl p.2.2 (by simp [decodeSlot, decodeV, p]) hf
  · exact ofSlot (sl := .v1) rfl (by decide) rfl p.2.2 (by simp [decodeSlot, decodeV, p]) hf
theorem vaddsI (e : VEng) (o : V3R) : Statement (.vaddsI e o) := by
  intro hf
  have p := v3r_encV3R (e := e) (op := 3) o (by norm_num) hf
  cases e
  · exact ofSlot (sl := .v0) rfl (by decide) rfl p.2.2 (by simp [decodeSlot, decodeV, p]) hf
  · exact ofSlot (sl := .v1) rfl (by decide) rfl p.2.2 (by simp [decodeSlot, decodeV, p]) hf
theorem vaddsN (e : VEng) (o : V3R) : Statement (.vaddsN e o) := by
  intro hf
  have p := v3r_encV3R (e := e) (op := 4) o (by norm_num) hf
  cases e
  · exact ofSlot (sl := .v0) rfl (by decide) rfl p.2.2 (by simp [decodeSlot, decodeV, p]) hf
  · exact ofSlot (sl := .v1) rfl (by decide) rfl p.2.2 (by simp [decodeSlot, decodeV, p]) hf
theorem vsubsI (e : VEng) (o : V3R) : Statement (.vsubsI e o) := by
  intro hf
  have p := v3r_encV3R (e := e) (op := 5) o (by norm_num) hf
  cases e
  · exact ofSlot (sl := .v0) rfl (by decide) rfl p.2.2 (by simp [decodeSlot, decodeV, p]) hf
  · exact ofSlot (sl := .v1) rfl (by decide) rfl p.2.2 (by simp [decodeSlot, decodeV, p]) hf
theorem vsubsN (e : VEng) (o : V3R) : Statement (.vsubsN e o) := by
  intro hf
  have p := v3r_encV3R (e := e) (op := 6) o (by norm_num) hf
  cases e
  · exact ofSlot (sl := .v0) rfl (by decide) rfl p.2.2 (by simp [decodeSlot, decodeV, p]) hf
  · exact ofSlot (sl := .v1) rfl (by decide) rfl p.2.2 (by simp [decodeSlot, decodeV, p]) hf
theorem vmul (e : VEng) (o : V3R) : Statement (.vmul e o) := by
  intro hf
  have p := v3r_encV3R (e := e) (op := 7) o (by norm_num) hf
  cases e
  · exact ofSlot (sl := .v0) rfl (by decide) rfl p.2.2 (by simp [decodeSlot, decodeV, p]) hf
  · exact ofSlot (sl := .v1) rfl (by decide) rfl p.2.2 (by simp [decodeSlot, decodeV, p]) hf
theorem vmulhI (e : VEng) (o : V3R) : Statement (.vmulhI e o) := by
  intro hf
  have p := v3r_encV3R (e := e) (op := 8) o (by norm_num) hf
  cases e
  · exact ofSlot (sl := .v0) rfl (by decide) rfl p.2.2 (by simp [decodeSlot, decodeV, p]) hf
  · exact ofSlot (sl := .v1) rfl (by decide) rfl p.2.2 (by simp [decodeSlot, decodeV, p]) hf
theorem vmulhN (e : VEng) (o : V3R) : Statement (.vmulhN e o) := by
  intro hf
  have p := v3r_encV3R (e := e) (op := 9) o (by norm_num) hf
  cases e
  · exact ofSlot (sl := .v0) rfl (by decide) rfl p.2.2 (by simp [decodeSlot, decodeV, p]) hf
  · exact ofSlot (sl := .v1) rfl (by decide) rfl p.2.2 (by simp [decodeSlot, decodeV, p]) hf
theorem vminI (e : VEng) (o : V3R) : Statement (.vminI e o) := by
  intro hf
  have p := v3r_encV3R (e := e) (op := 10) o (by norm_num) hf
  cases e
  · exact ofSlot (sl := .v0) rfl (by decide) rfl p.2.2 (by simp [decodeSlot, decodeV, p]) hf
  · exact ofSlot (sl := .v1) rfl (by decide) rfl p.2.2 (by simp [decodeSlot, decodeV, p]) hf
theorem vminN (e : VEng) (o : V3R) : Statement (.vminN e o) := by
  intro hf
  have p := v3r_encV3R (e := e) (op := 11) o (by norm_num) hf
  cases e
  · exact ofSlot (sl := .v0) rfl (by decide) rfl p.2.2 (by simp [decodeSlot, decodeV, p]) hf
  · exact ofSlot (sl := .v1) rfl (by decide) rfl p.2.2 (by simp [decodeSlot, decodeV, p]) hf
theorem vmaxI (e : VEng) (o : V3R) : Statement (.vmaxI e o) := by
  intro hf
  have p := v3r_encV3R (e := e) (op := 12) o (by norm_num) hf
  cases e
  · exact ofSlot (sl := .v0) rfl (by decide) rfl p.2.2 (by simp [decodeSlot, decodeV, p]) hf
  · exact ofSlot (sl := .v1) rfl (by decide) rfl p.2.2 (by simp [decodeSlot, decodeV, p]) hf
theorem vmaxN (e : VEng) (o : V3R) : Statement (.vmaxN e o) := by
  intro hf
  have p := v3r_encV3R (e := e) (op := 13) o (by norm_num) hf
  cases e
  · exact ofSlot (sl := .v0) rfl (by decide) rfl p.2.2 (by simp [decodeSlot, decodeV, p]) hf
  · exact ofSlot (sl := .v1) rfl (by decide) rfl p.2.2 (by simp [decodeSlot, decodeV, p]) hf
theorem vabs (e : VEng) (o : V2R) : Statement (.vabs e o) := by
  intro hf
  have p := v2r_encV2R (e := e) (op := 14) o (by norm_num) hf
  cases e
  · exact ofSlot (sl := .v0) rfl (by decide) rfl p.2.2 (by simp [decodeSlot, decodeV, p]) hf
  · exact ofSlot (sl := .v1) rfl (by decide) rfl p.2.2 (by simp [decodeSlot, decodeV, p]) hf
theorem vnot (e : VEng) (o : V2R) : Statement (.vnot e o) := by
  intro hf
  have p := v2r_encV2R (e := e) (op := 15) o (by norm_num) hf
  cases e
  · exact ofSlot (sl := .v0) rfl (by decide) rfl p.2.2 (by simp [decodeSlot, decodeV, p]) hf
  · exact ofSlot (sl := .v1) rfl (by decide) rfl p.2.2 (by simp [decodeSlot, decodeV, p]) hf
theorem vsll (e : VEng) (o : V3R) : Statement (.vsll e o) := by
  intro hf
  have p := v3r_encV3R (e := e) (op := 16) o (by norm_num) hf
  cases e
  · exact ofSlot (sl := .v0) rfl (by decide) rfl p.2.2 (by simp [decodeSlot, decodeV, p]) hf
  · exact ofSlot (sl := .v1) rfl (by decide) rfl p.2.2 (by simp [decodeSlot, decodeV, p]) hf
theorem vsrl (e : VEng) (o : V3R) : Statement (.vsrl e o) := by
  intro hf
  have p := v3r_encV3R (e := e) (op := 17) o (by norm_num) hf
  cases e
  · exact ofSlot (sl := .v0) rfl (by decide) rfl p.2.2 (by simp [decodeSlot, decodeV, p]) hf
  · exact ofSlot (sl := .v1) rfl (by decide) rfl p.2.2 (by simp [decodeSlot, decodeV, p]) hf
theorem vsra (e : VEng) (o : V3R) : Statement (.vsra e o) := by
  intro hf
  have p := v3r_encV3R (e := e) (op := 18) o (by norm_num) hf
  cases e
  · exact ofSlot (sl := .v0) rfl (by decide) rfl p.2.2 (by simp [decodeSlot, decodeV, p]) hf
  · exact ofSlot (sl := .v1) rfl (by decide) rfl p.2.2 (by simp [decodeSlot, decodeV, p]) hf
theorem vand (e : VEng) (o : V3R) : Statement (.vand e o) := by
  intro hf
  have p := v3r_encV3R (e := e) (op := 19) o (by norm_num) hf
  cases e
  · exact ofSlot (sl := .v0) rfl (by decide) rfl p.2.2 (by simp [decodeSlot, decodeV, p]) hf
  · exact ofSlot (sl := .v1) rfl (by decide) rfl p.2.2 (by simp [decodeSlot, decodeV, p]) hf
theorem vor (e : VEng) (o : V3R) : Statement (.vor e o) := by
  intro hf
  have p := v3r_encV3R (e := e) (op := 20) o (by norm_num) hf
  cases e
  · exact ofSlot (sl := .v0) rfl (by decide) rfl p.2.2 (by simp [decodeSlot, decodeV, p]) hf
  · exact ofSlot (sl := .v1) rfl (by decide) rfl p.2.2 (by simp [decodeSlot, decodeV, p]) hf
theorem vxor (e : VEng) (o : V3R) : Statement (.vxor e o) := by
  intro hf
  have p := v3r_encV3R (e := e) (op := 21) o (by norm_num) hf
  cases e
  · exact ofSlot (sl := .v0) rfl (by decide) rfl p.2.2 (by simp [decodeSlot, decodeV, p]) hf
  · exact ofSlot (sl := .v1) rfl (by decide) rfl p.2.2 (by simp [decodeSlot, decodeV, p]) hf
theorem vandn (e : VEng) (o : V3R) : Statement (.vandn e o) := by
  intro hf
  have p := v3r_encV3R (e := e) (op := 22) o (by norm_num) hf
  cases e
  · exact ofSlot (sl := .v0) rfl (by decide) rfl p.2.2 (by simp [decodeSlot, decodeV, p]) hf
  · exact ofSlot (sl := .v1) rfl (by decide) rfl p.2.2 (by simp [decodeSlot, decodeV, p]) hf
theorem vsel (e : VEng) (o : V3R) : Statement (.vsel e o) := by
  intro hf
  have p := v3r_encV3R (e := e) (op := 23) o (by norm_num) hf
  cases e
  · exact ofSlot (sl := .v0) rfl (by decide) rfl p.2.2 (by simp [decodeSlot, decodeV, p]) hf
  · exact ofSlot (sl := .v1) rfl (by decide) rfl p.2.2 (by simp [decodeSlot, decodeV, p]) hf
theorem vcmpI (e : VEng) (o : VCP) : Statement (.vcmpI e o) := by
  intro hf
  have p := vcp_encVCP (op := 24) o (by norm_num)
  cases e
  · exact ofSlot (sl := .v0) rfl (by decide) rfl p.2.2 (by simp [decodeSlot, decodeV, p]) hf
  · exact ofSlot (sl := .v1) rfl (by decide) rfl p.2.2 (by simp [decodeSlot, decodeV, p]) hf
theorem vcmpN (e : VEng) (o : VCP) : Statement (.vcmpN e o) := by
  intro hf
  have p := vcp_encVCP (op := 25) o (by norm_num)
  cases e
  · exact ofSlot (sl := .v0) rfl (by decide) rfl p.2.2 (by simp [decodeSlot, decodeV, p]) hf
  · exact ofSlot (sl := .v1) rfl (by decide) rfl p.2.2 (by simp [decodeSlot, decodeV, p]) hf
theorem vcmpF (e : VEng) (o : VCP) : Statement (.vcmpF e o) := by
  intro hf
  have p := vcp_encVCP (op := 26) o (by norm_num)
  cases e
  · exact ofSlot (sl := .v0) rfl (by decide) rfl p.2.2 (by simp [decodeSlot, decodeV, p]) hf
  · exact ofSlot (sl := .v1) rfl (by decide) rfl p.2.2 (by simp [decodeSlot, decodeV, p]) hf
theorem vcmpBf (e : VEng) (o : VCP) : Statement (.vcmpBf e o) := by
  intro hf
  have p := vcp_encVCP (op := 27) o (by norm_num)
  cases e
  · exact ofSlot (sl := .v0) rfl (by decide) rfl p.2.2 (by simp [decodeSlot, decodeV, p]) hf
  · exact ofSlot (sl := .v1) rfl (by decide) rfl p.2.2 (by simp [decodeSlot, decodeV, p]) hf
theorem vredI (e : VEng) (o : VRed) : Statement (.vredI e o) := by
  intro hf
  have p := vred_encVRed (e := e) (op := 28) o (by norm_num) hf
  cases e
  · exact ofSlot (sl := .v0) rfl (by decide) rfl p.2.2 (by simp [decodeSlot, decodeV, p]) hf
  · exact ofSlot (sl := .v1) rfl (by decide) rfl p.2.2 (by simp [decodeSlot, decodeV, p]) hf
theorem vredN (e : VEng) (o : VRed) : Statement (.vredN e o) := by
  intro hf
  have p := vred_encVRed (e := e) (op := 29) o (by norm_num) hf
  cases e
  · exact ofSlot (sl := .v0) rfl (by decide) rfl p.2.2 (by simp [decodeSlot, decodeV, p]) hf
  · exact ofSlot (sl := .v1) rfl (by decide) rfl p.2.2 (by simp [decodeSlot, decodeV, p]) hf
theorem vredF (e : VEng) (o : VRed) : Statement (.vredF e o) := by
  intro hf
  have p := vred_encVRed (e := e) (op := 30) o (by norm_num) hf
  cases e
  · exact ofSlot (sl := .v0) rfl (by decide) rfl p.2.2 (by simp [decodeSlot, decodeV, p]) hf
  · exact ofSlot (sl := .v1) rfl (by decide) rfl p.2.2 (by simp [decodeSlot, decodeV, p]) hf
theorem vredBf (e : VEng) (o : VRed) : Statement (.vredBf e o) := by
  intro hf
  have p := vred_encVRed (e := e) (op := 31) o (by norm_num) hf
  cases e
  · exact ofSlot (sl := .v0) rfl (by decide) rfl p.2.2 (by simp [decodeSlot, decodeV, p]) hf
  · exact ofSlot (sl := .v1) rfl (by decide) rfl p.2.2 (by simp [decodeSlot, decodeV, p]) hf
theorem vfadd (e : VEng) (o : V3R) : Statement (.vfadd e o) := by
  intro hf
  have p := v3r_encV3R (e := e) (op := 32) o (by norm_num) hf
  cases e
  · exact ofSlot (sl := .v0) rfl (by decide) rfl p.2.2 (by simp [decodeSlot, decodeV, p]) hf
  · exact ofSlot (sl := .v1) rfl (by decide) rfl p.2.2 (by simp [decodeSlot, decodeV, p]) hf
theorem vfsub (e : VEng) (o : V3R) : Statement (.vfsub e o) := by
  intro hf
  have p := v3r_encV3R (e := e) (op := 33) o (by norm_num) hf
  cases e
  · exact ofSlot (sl := .v0) rfl (by decide) rfl p.2.2 (by simp [decodeSlot, decodeV, p]) hf
  · exact ofSlot (sl := .v1) rfl (by decide) rfl p.2.2 (by simp [decodeSlot, decodeV, p]) hf
theorem vfmul (e : VEng) (o : V3R) : Statement (.vfmul e o) := by
  intro hf
  have p := v3r_encV3R (e := e) (op := 34) o (by norm_num) hf
  cases e
  · exact ofSlot (sl := .v0) rfl (by decide) rfl p.2.2 (by simp [decodeSlot, decodeV, p]) hf
  · exact ofSlot (sl := .v1) rfl (by decide) rfl p.2.2 (by simp [decodeSlot, decodeV, p]) hf
theorem vfma (e : VEng) (o : V3R) : Statement (.vfma e o) := by
  intro hf
  have p := v3r_encV3R (e := e) (op := 35) o (by norm_num) hf
  cases e
  · exact ofSlot (sl := .v0) rfl (by decide) rfl p.2.2 (by simp [decodeSlot, decodeV, p]) hf
  · exact ofSlot (sl := .v1) rfl (by decide) rfl p.2.2 (by simp [decodeSlot, decodeV, p]) hf
theorem vfms (e : VEng) (o : V3R) : Statement (.vfms e o) := by
  intro hf
  have p := v3r_encV3R (e := e) (op := 36) o (by norm_num) hf
  cases e
  · exact ofSlot (sl := .v0) rfl (by decide) rfl p.2.2 (by simp [decodeSlot, decodeV, p]) hf
  · exact ofSlot (sl := .v1) rfl (by decide) rfl p.2.2 (by simp [decodeSlot, decodeV, p]) hf
theorem vfnma (e : VEng) (o : V3R) : Statement (.vfnma e o) := by
  intro hf
  have p := v3r_encV3R (e := e) (op := 37) o (by norm_num) hf
  cases e
  · exact ofSlot (sl := .v0) rfl (by decide) rfl p.2.2 (by simp [decodeSlot, decodeV, p]) hf
  · exact ofSlot (sl := .v1) rfl (by decide) rfl p.2.2 (by simp [decodeSlot, decodeV, p]) hf
theorem vfmin (e : VEng) (o : V3R) : Statement (.vfmin e o) := by
  intro hf
  have p := v3r_encV3R (e := e) (op := 38) o (by norm_num) hf
  cases e
  · exact ofSlot (sl := .v0) rfl (by decide) rfl p.2.2 (by simp [decodeSlot, decodeV, p]) hf
  · exact ofSlot (sl := .v1) rfl (by decide) rfl p.2.2 (by simp [decodeSlot, decodeV, p]) hf
theorem vfmax (e : VEng) (o : V3R) : Statement (.vfmax e o) := by
  intro hf
  have p := v3r_encV3R (e := e) (op := 39) o (by norm_num) hf
  cases e
  · exact ofSlot (sl := .v0) rfl (by decide) rfl p.2.2 (by simp [decodeSlot, decodeV, p]) hf
  · exact ofSlot (sl := .v1) rfl (by decide) rfl p.2.2 (by simp [decodeSlot, decodeV, p]) hf
theorem vbfadd (e : VEng) (o : V3R) : Statement (.vbfadd e o) := by
  intro hf
  have p := v3r_encV3R (e := e) (op := 40) o (by norm_num) hf
  cases e
  · exact ofSlot (sl := .v0) rfl (by decide) rfl p.2.2 (by simp [decodeSlot, decodeV, p]) hf
  · exact ofSlot (sl := .v1) rfl (by decide) rfl p.2.2 (by simp [decodeSlot, decodeV, p]) hf
theorem vbfsub (e : VEng) (o : V3R) : Statement (.vbfsub e o) := by
  intro hf
  have p := v3r_encV3R (e := e) (op := 41) o (by norm_num) hf
  cases e
  · exact ofSlot (sl := .v0) rfl (by decide) rfl p.2.2 (by simp [decodeSlot, decodeV, p]) hf
  · exact ofSlot (sl := .v1) rfl (by decide) rfl p.2.2 (by simp [decodeSlot, decodeV, p]) hf
theorem vbfmul (e : VEng) (o : V3R) : Statement (.vbfmul e o) := by
  intro hf
  have p := v3r_encV3R (e := e) (op := 42) o (by norm_num) hf
  cases e
  · exact ofSlot (sl := .v0) rfl (by decide) rfl p.2.2 (by simp [decodeSlot, decodeV, p]) hf
  · exact ofSlot (sl := .v1) rfl (by decide) rfl p.2.2 (by simp [decodeSlot, decodeV, p]) hf
theorem vbfma (e : VEng) (o : V3R) : Statement (.vbfma e o) := by
  intro hf
  have p := v3r_encV3R (e := e) (op := 43) o (by norm_num) hf
  cases e
  · exact ofSlot (sl := .v0) rfl (by decide) rfl p.2.2 (by simp [decodeSlot, decodeV, p]) hf
  · exact ofSlot (sl := .v1) rfl (by decide) rfl p.2.2 (by simp [decodeSlot, decodeV, p]) hf
theorem vbfms (e : VEng) (o : V3R) : Statement (.vbfms e o) := by
  intro hf
  have p := v3r_encV3R (e := e) (op := 44) o (by norm_num) hf
  cases e
  · exact ofSlot (sl := .v0) rfl (by decide) rfl p.2.2 (by simp [decodeSlot, decodeV, p]) hf
  · exact ofSlot (sl := .v1) rfl (by decide) rfl p.2.2 (by simp [decodeSlot, decodeV, p]) hf
theorem vbfnma (e : VEng) (o : V3R) : Statement (.vbfnma e o) := by
  intro hf
  have p := v3r_encV3R (e := e) (op := 45) o (by norm_num) hf
  cases e
  · exact ofSlot (sl := .v0) rfl (by decide) rfl p.2.2 (by simp [decodeSlot, decodeV, p]) hf
  · exact ofSlot (sl := .v1) rfl (by decide) rfl p.2.2 (by simp [decodeSlot, decodeV, p]) hf
theorem vbfmin (e : VEng) (o : V3R) : Statement (.vbfmin e o) := by
  intro hf
  have p := v3r_encV3R (e := e) (op := 46) o (by norm_num) hf
  cases e
  · exact ofSlot (sl := .v0) rfl (by decide) rfl p.2.2 (by simp [decodeSlot, decodeV, p]) hf
  · exact ofSlot (sl := .v1) rfl (by decide) rfl p.2.2 (by simp [decodeSlot, decodeV, p]) hf
theorem vbfmax (e : VEng) (o : V3R) : Statement (.vbfmax e o) := by
  intro hf
  have p := v3r_encV3R (e := e) (op := 47) o (by norm_num) hf
  cases e
  · exact ofSlot (sl := .v0) rfl (by decide) rfl p.2.2 (by simp [decodeSlot, decodeV, p]) hf
  · exact ofSlot (sl := .v1) rfl (by decide) rfl p.2.2 (by simp [decodeSlot, decodeV, p]) hf
theorem vmov (e : VEng) (o : V2R) : Statement (.vmov e o) := by
  intro hf
  have p := v2r_encV2R (e := e) (op := 48) o (by norm_num) hf
  cases e
  · exact ofSlot (sl := .v0) rfl (by decide) rfl p.2.2 (by simp [decodeSlot, decodeV, p]) hf
  · exact ofSlot (sl := .v1) rfl (by decide) rfl p.2.2 (by simp [decodeSlot, decodeV, p]) hf
theorem vbcast (e : VEng) (vd : Fin 32) (imm : BitVec 16) : Statement (.vbcast e vd imm) := by
  intro hf
  have u1 := vd.isLt
  have u2 := imm.isLt
  obtain ⟨w', hw⟩ : ∃ w', w' = 49 * 2 ^ 26 + vd.val * 2 ^ 21 + imm.toNat := ⟨_, rfl⟩
  have hl : w' < 2 ^ 32 := by omega
  have d0 : bits w' 26 6 = 49 := bits_top (low := (vd.val) * 2097152 + (imm.toNat)) (Q := 67108864) (by norm_num)
      (by rw [hw]; ring) (by clear hw; omega) (by omega)
  have b0 : bits w' 16 5 = 0 := bits_mid (hi := 49 * 32 + (vd.val)) (low := (imm.toNat)) (P := 2097152) (Q := 65536) (by norm_num) (by norm_num)
      (by rw [hw]; ring) (by clear hw; omega) (by omega)
  have b1 : bits w' 21 5 = vd.val := bits_mid (hi := 49) (low := (imm.toNat)) (P := 67108864) (Q := 2097152) (by norm_num) (by norm_num)
      (by rw [hw]; ring) (by clear hw; omega) (by omega)
  have b2 : bits w' 0 16 = imm.toNat := bits_mid (hi := 49 * 1024 + (vd.val) * 32) (low := 0) (P := 65536) (Q := 1) (by norm_num) (by norm_num)
      (by rw [hw]; ring) (by clear hw; omega) (by omega)
  cases e
  · exact ofSlot (sl := .v0) (w := w') rfl (by decide) (by rw [hw]; rfl) hl (by simp [decodeSlot, decodeV, d0, b0, reg_of b1, b2]) hf
  · exact ofSlot (sl := .v1) (w := w') rfl (by decide) (by rw [hw]; rfl) hl (by simp [decodeSlot, decodeV, d0, b0, reg_of b1, b2]) hf
theorem vbcx (e : VEng) (vd xs : Fin 32) : Statement (.vbcx e vd xs) := by
  intro hf
  have u1 := vd.isLt
  have u2 := xs.isLt
  obtain ⟨w', hw⟩ : ∃ w', w' = 50 * 2 ^ 26 + vd.val * 2 ^ 21 + xs.val * 2 ^ 16 := ⟨_, rfl⟩
  have hl : w' < 2 ^ 32 := by omega
  have d0 : bits w' 26 6 = 50 := bits_top (low := (vd.val) * 2097152 + (xs.val) * 65536) (Q := 67108864) (by norm_num)
      (by rw [hw]; ring) (by clear hw; omega) (by omega)
  have b0 : bits w' 0 16 = 0 := bits_mid (hi := 50 * 1024 + (vd.val) * 32 + (xs.val)) (low := 0) (P := 65536) (Q := 1) (by norm_num) (by norm_num)
      (by rw [hw]; ring) (by clear hw; omega) (by omega)
  have b1 : bits w' 21 5 = vd.val := bits_mid (hi := 50) (low := (xs.val) * 65536) (P := 67108864) (Q := 2097152) (by norm_num) (by norm_num)
      (by rw [hw]; ring) (by clear hw; omega) (by omega)
  have b2 : bits w' 16 5 = xs.val := bits_mid (hi := 50 * 32 + (vd.val)) (low := 0) (P := 2097152) (Q := 65536) (by norm_num) (by norm_num)
      (by rw [hw]; ring) (by clear hw; omega) (by omega)
  cases e
  · exact ofSlot (sl := .v0) (w := w') rfl (by decide) (by rw [hw]; rfl) hl (by simp [decodeSlot, decodeV, d0, b0, reg_of b1, reg_of b2]) hf
  · exact ofSlot (sl := .v1) (w := w') rfl (by decide) (by rw [hw]; rfl) hl (by simp [decodeSlot, decodeV, d0, b0, reg_of b1, reg_of b2]) hf
theorem vcvt (e : VEng) (o : VCV) : Statement (.vcvt e o) := by
  intro hf
  have p := vcv_encVCV o hf
  cases e
  · exact ofSlot (sl := .v0) rfl (by decide) rfl p.2.2 (by simp [decodeSlot, decodeV, p]) hf
  · exact ofSlot (sl := .v1) rfl (by decide) rfl p.2.2 (by simp [decodeSlot, decodeV, p]) hf
theorem vunp3 (e : VEng) (vd vs1 : Fin 32) (fout : Fmt) (strict w1 : Bool) : Statement (.vunp3 e vd vs1 fout strict w1) := by
  intro hf
  have u1 := vd.isLt
  have u2 := vs1.isLt
  have u4 := fmtCode_lt fout
  have u5 := one_lt strict
  have u6 := one_lt w1
  obtain ⟨w', hw⟩ : ∃ w', w' = 52 * 2 ^ 26 + vd.val * 2 ^ 21 + vs1.val * 2 ^ 16 + 10 * 2 ^ 12 + fmtCode fout * 2 ^ 8 + one strict * 2 ^ 3 + one w1 * 2 ^ 2 := ⟨_, rfl⟩
  have hl : w' < 2 ^ 32 := by omega
  have d0 : bits w' 26 6 = 52 := bits_top (low := (vd.val) * 2097152 + (vs1.val) * 65536 + 10 * 4096 + (fmtCode fout) * 256 + (one strict) * 8 + (one w1) * 4) (Q := 67108864) (by norm_num)
      (by rw [hw]; ring) (by clear hw; omega) (by omega)
  have b0 : bits w' 12 4 = 10 := bits_mid (hi := 52 * 1024 + (vd.val) * 32 + (vs1.val)) (low := (fmtCode fout) * 256 + (one strict) * 8 + (one w1) * 4) (P := 65536) (Q := 4096) (by norm_num) (by norm_num)
      (by rw [hw]; ring) (by clear hw; omega) (by omega)
  have b1 : bits w' 4 4 = 0 := bits_mid (hi := 52 * 262144 + (vd.val) * 8192 + (vs1.val) * 256 + 10 * 16 + (fmtCode fout)) (low := (one strict) * 8 + (one w1) * 4) (P := 256) (Q := 16) (by norm_num) (by norm_num)
      (by rw [hw]; ring) (by clear hw; omega) (by omega)
  have b2 : bits w' 0 2 = 0 := bits_mid (hi := 52 * 16777216 + (vd.val) * 524288 + (vs1.val) * 16384 + 10 * 1024 + (fmtCode fout) * 64 + (one strict) * 2 + (one w1)) (low := 0) (P := 4) (Q := 1) (by norm_num) (by norm_num)
      (by rw [hw]; ring) (by clear hw; omega) (by omega)
  have b3 : bits w' 8 4 = fmtCode fout := bits_mid (hi := 52 * 16384 + (vd.val) * 512 + (vs1.val) * 16 + 10) (low := (one strict) * 8 + (one w1) * 4) (P := 4096) (Q := 256) (by norm_num) (by norm_num)
      (by rw [hw]; ring) (by clear hw; omega) (by omega)
  have b4 : bits w' 21 5 = vd.val := bits_mid (hi := 52) (low := (vs1.val) * 65536 + 10 * 4096 + (fmtCode fout) * 256 + (one strict) * 8 + (one w1) * 4) (P := 67108864) (Q := 2097152) (by norm_num) (by norm_num)
      (by rw [hw]; ring) (by clear hw; omega) (by omega)
  have b5 : bits w' 16 5 = vs1.val := bits_mid (hi := 52 * 32 + (vd.val)) (low := 10 * 4096 + (fmtCode fout) * 256 + (one strict) * 8 + (one w1) * 4) (P := 2097152) (Q := 65536) (by norm_num) (by norm_num)
      (by rw [hw]; ring) (by clear hw; omega) (by omega)
  have b6 : bits w' 3 1 = one strict := bits_mid (hi := 52 * 4194304 + (vd.val) * 131072 + (vs1.val) * 4096 + 10 * 256 + (fmtCode fout) * 16) (low := (one w1) * 4) (P := 16) (Q := 8) (by norm_num) (by norm_num)
      (by rw [hw]; ring) (by clear hw; omega) (by omega)
  have b7 : bits w' 2 1 = one w1 := bits_mid (hi := 52 * 8388608 + (vd.val) * 262144 + (vs1.val) * 8192 + 10 * 512 + (fmtCode fout) * 32 + (one strict)) (low := 0) (P := 8) (Q := 4) (by norm_num) (by norm_num)
      (by rw [hw]; ring) (by clear hw; omega) (by omega)
  cases e
  · exact ofSlot (sl := .v0) (w := w') rfl (by decide) (by rw [hw]; rfl) hl (by simp [decodeSlot, decodeV, d0, b0, b1, b2, b3, reg_of b4, reg_of b5, flag_of b6, flag_of b7, fmtOf_fmtCode, (by simp only [wellFormed] at hf; cases fout <;> simp_all [fmtCode] : 1 ≤ fmtCode fout), (by simp only [wellFormed] at hf; cases fout <;> simp_all [fmtCode] : fmtCode fout ≤ 3)]) hf
  · exact ofSlot (sl := .v1) (w := w') rfl (by decide) (by rw [hw]; rfl) hl (by simp [decodeSlot, decodeV, d0, b0, b1, b2, b3, reg_of b4, reg_of b5, flag_of b6, flag_of b7, fmtOf_fmtCode, (by simp only [wellFormed] at hf; cases fout <;> simp_all [fmtCode] : 1 ≤ fmtCode fout), (by simp only [wellFormed] at hf; cases fout <;> simp_all [fmtCode] : fmtCode fout ≤ 3)]) hf
theorem vpack (e : VEng) (o : V3R) : Statement (.vpack e o) := by
  intro hf
  have p := v3r_encV3R (e := e) (op := 53) o (by norm_num) hf
  cases e
  · exact ofSlot (sl := .v0) rfl (by decide) rfl p.2.2 (by simp [decodeSlot, decodeV, p]) hf
  · exact ofSlot (sl := .v1) rfl (by decide) rfl p.2.2 (by simp [decodeSlot, decodeV, p]) hf
theorem vsetshape (e : VEng) (xs : Fin 32) : Statement (.vsetshape e xs) := by
  intro hf
  have u1 := xs.isLt
  obtain ⟨w', hw⟩ : ∃ w', w' = 54 * 2 ^ 26 + xs.val * 2 ^ 16 := ⟨_, rfl⟩
  have hl : w' < 2 ^ 32 := by omega
  have d0 : bits w' 26 6 = 54 := bits_top (low := (xs.val) * 65536) (Q := 67108864) (by norm_num)
      (by rw [hw]; ring) (by clear hw; omega) (by omega)
  have b0 : bits w' 21 5 = 0 := bits_mid (hi := 54) (low := (xs.val) * 65536) (P := 67108864) (Q := 2097152) (by norm_num) (by norm_num)
      (by rw [hw]; ring) (by clear hw; omega) (by omega)
  have b1 : bits w' 0 16 = 0 := bits_mid (hi := 54 * 1024 + (xs.val)) (low := 0) (P := 65536) (Q := 1) (by norm_num) (by norm_num)
      (by rw [hw]; ring) (by clear hw; omega) (by omega)
  have b2 : bits w' 16 5 = xs.val := bits_mid (hi := 54 * 32) (low := 0) (P := 2097152) (Q := 65536) (by norm_num) (by norm_num)
      (by rw [hw]; ring) (by clear hw; omega) (by omega)
  cases e
  · exact ofSlot (sl := .v0) (w := w') rfl (by decide) (by rw [hw]; rfl) hl (by simp [decodeSlot, decodeV, d0, b0, b1, reg_of b2]) hf
  · exact ofSlot (sl := .v1) (w := w') rfl (by decide) (by rw [hw]; rfl) hl (by simp [decodeSlot, decodeV, d0, b0, b1, reg_of b2]) hf
theorem pand (e : VEng) (o : VPR) : Statement (.pand e o) := by
  intro hf
  have p := vpr_encVPR (op := 56) o (by norm_num)
  cases e
  · exact ofSlot (sl := .v0) rfl (by decide) rfl p.2.2 (by simp [decodeSlot, decodeV, p]) hf
  · exact ofSlot (sl := .v1) rfl (by decide) rfl p.2.2 (by simp [decodeSlot, decodeV, p]) hf
theorem por (e : VEng) (o : VPR) : Statement (.por e o) := by
  intro hf
  have p := vpr_encVPR (op := 57) o (by norm_num)
  cases e
  · exact ofSlot (sl := .v0) rfl (by decide) rfl p.2.2 (by simp [decodeSlot, decodeV, p]) hf
  · exact ofSlot (sl := .v1) rfl (by decide) rfl p.2.2 (by simp [decodeSlot, decodeV, p]) hf
theorem pxor (e : VEng) (o : VPR) : Statement (.pxor e o) := by
  intro hf
  have p := vpr_encVPR (op := 58) o (by norm_num)
  cases e
  · exact ofSlot (sl := .v0) rfl (by decide) rfl p.2.2 (by simp [decodeSlot, decodeV, p]) hf
  · exact ofSlot (sl := .v1) rfl (by decide) rfl p.2.2 (by simp [decodeSlot, decodeV, p]) hf
theorem pnot (e : VEng) (pd pa : Fin 48) : Statement (.pnot e pd pa) := by
  intro hf
  have u1 := pd.isLt
  have u2 := pa.isLt
  obtain ⟨w', hw⟩ : ∃ w', w' = 59 * 2 ^ 26 + pd.val * 2 ^ 20 + pa.val * 2 ^ 14 := ⟨_, rfl⟩
  have hl : w' < 2 ^ 32 := by omega
  have d0 : bits w' 26 6 = 59 := bits_top (low := (pd.val) * 1048576 + (pa.val) * 16384) (Q := 67108864) (by norm_num)
      (by rw [hw]; ring) (by clear hw; omega) (by omega)
  have b0 : bits w' 0 14 = 0 := bits_mid (hi := 59 * 4096 + (pd.val) * 64 + (pa.val)) (low := 0) (P := 16384) (Q := 1) (by norm_num) (by norm_num)
      (by rw [hw]; ring) (by clear hw; omega) (by omega)
  have b1 : bits w' 20 6 = pd.val := bits_mid (hi := 59) (low := (pa.val) * 16384) (P := 67108864) (Q := 1048576) (by norm_num) (by norm_num)
      (by rw [hw]; ring) (by clear hw; omega) (by omega)
  have b2 : bits w' 14 6 = pa.val := bits_mid (hi := 59 * 64 + (pd.val)) (low := 0) (P := 1048576) (Q := 16384) (by norm_num) (by norm_num)
      (by rw [hw]; ring) (by clear hw; omega) (by omega)
  cases e
  · exact ofSlot (sl := .v0) (w := w') rfl (by decide) (by rw [hw]; rfl) hl (by simp [decodeSlot, decodeV, d0, b0, b1, b2, prOf_val]) hf
  · exact ofSlot (sl := .v1) (w := w') rfl (by decide) (by rw [hw]; rfl) hl (by simp [decodeSlot, decodeV, d0, b0, b1, b2, prOf_val]) hf
theorem pset (e : VEng) (pd : Fin 48) (n : Fin 513) : Statement (.pset e pd n) := by
  intro hf
  have u1 := pd.isLt
  have u2 := n.isLt
  obtain ⟨w', hw⟩ : ∃ w', w' = 60 * 2 ^ 26 + pd.val * 2 ^ 20 + n.val * 2 ^ 10 := ⟨_, rfl⟩
  have hl : w' < 2 ^ 32 := by omega
  have d0 : bits w' 26 6 = 60 := bits_top (low := (pd.val) * 1048576 + (n.val) * 1024) (Q := 67108864) (by norm_num)
      (by rw [hw]; ring) (by clear hw; omega) (by omega)
  have b0 : bits w' 0 10 = 0 := bits_mid (hi := 60 * 65536 + (pd.val) * 1024 + (n.val)) (low := 0) (P := 1024) (Q := 1) (by norm_num) (by norm_num)
      (by rw [hw]; ring) (by clear hw; omega) (by omega)
  have b1 : bits w' 20 6 = pd.val := bits_mid (hi := 60) (low := (n.val) * 1024) (P := 67108864) (Q := 1048576) (by norm_num) (by norm_num)
      (by rw [hw]; ring) (by clear hw; omega) (by omega)
  have b2 : bits w' 10 10 = n.val := bits_mid (hi := 60 * 64 + (pd.val)) (low := 0) (P := 1048576) (Q := 1024) (by norm_num) (by norm_num)
      (by rw [hw]; ring) (by clear hw; omega) (by omega)
  cases e
  · exact ofSlot (sl := .v0) (w := w') rfl (by decide) (by rw [hw]; rfl) hl (by simp [decodeSlot, decodeV, d0, b0, b1, b2, prOf_val, Nat.lt_succ_iff.1 n.isLt]) hf
  · exact ofSlot (sl := .v1) (w := w') rfl (by decide) (by rw [hw]; rfl) hl (by simp [decodeSlot, decodeV, d0, b0, b1, b2, prOf_val, Nat.lt_succ_iff.1 n.isLt]) hf
theorem pcount (e : VEng) (xd : Fin 32) (pa : Fin 48) : Statement (.pcount e xd pa) := by
  intro hf
  have u1 := xd.isLt
  have u2 := pa.isLt
  obtain ⟨w', hw⟩ : ∃ w', w' = 61 * 2 ^ 26 + xd.val * 2 ^ 20 + pa.val * 2 ^ 14 := ⟨_, rfl⟩
  have hl : w' < 2 ^ 32 := by omega
  have d0 : bits w' 26 6 = 61 := bits_top (low := (xd.val) * 1048576 + (pa.val) * 16384) (Q := 67108864) (by norm_num)
      (by rw [hw]; ring) (by clear hw; omega) (by omega)
  have b0 : bits w' 0 14 = 0 := bits_mid (hi := 61 * 4096 + (xd.val) * 64 + (pa.val)) (low := 0) (P := 16384) (Q := 1) (by norm_num) (by norm_num)
      (by rw [hw]; ring) (by clear hw; omega) (by omega)
  have b1 : bits w' 25 1 = 0 := bits_mid (hi := 61) (low := (xd.val) * 1048576 + (pa.val) * 16384) (P := 67108864) (Q := 33554432) (by norm_num) (by norm_num)
      (by rw [hw]; ring) (by clear hw; omega) (by omega)
  have b2 : bits w' 14 6 = pa.val := bits_mid (hi := 61 * 64 + (xd.val)) (low := 0) (P := 1048576) (Q := 16384) (by norm_num) (by norm_num)
      (by rw [hw]; ring) (by clear hw; omega) (by omega)
  have b3 : bits w' 20 5 = xd.val := bits_mid (hi := 61 * 2) (low := (pa.val) * 16384) (P := 33554432) (Q := 1048576) (by norm_num) (by norm_num)
      (by rw [hw]; ring) (by clear hw; omega) (by omega)
  cases e
  · exact ofSlot (sl := .v0) (w := w') rfl (by decide) (by rw [hw]; rfl) hl (by simp [decodeSlot, decodeV, d0, b0, b1, b2, reg_of b3, prOf_val]) hf
  · exact ofSlot (sl := .v1) (w := w') rfl (by decide) (by rw [hw]; rfl) hl (by simp [decodeSlot, decodeV, d0, b0, b1, b2, reg_of b3, prOf_val]) hf
theorem exp2 (o : F2R) : Statement (.exp2 o) := by
  intro hf
  have p := f2r_encF2R (op := 1) o (by norm_num) hf
  exact ofSlot rfl (by decide) rfl p.2.2 (by simp [decodeSlot, decodeF, p]) hf
theorem log2 (o : F2R) : Statement (.log2 o) := by
  intro hf
  have p := f2r_encF2R (op := 2) o (by norm_num) hf
  exact ofSlot rfl (by decide) rfl p.2.2 (by simp [decodeSlot, decodeF, p]) hf
theorem rcp (o : F2R) : Statement (.rcp o) := by
  intro hf
  have p := f2r_encF2R (op := 3) o (by norm_num) hf
  exact ofSlot rfl (by decide) rfl p.2.2 (by simp [decodeSlot, decodeF, p]) hf
theorem rsqrt (o : F2R) : Statement (.rsqrt o) := by
  intro hf
  have p := f2r_encF2R (op := 4) o (by norm_num) hf
  exact ofSlot rfl (by decide) rfl p.2.2 (by simp [decodeSlot, decodeF, p]) hf
theorem sqrt (o : F2R) : Statement (.sqrt o) := by
  intro hf
  have p := f2r_encF2R (op := 5) o (by norm_num) hf
  exact ofSlot rfl (by decide) rfl p.2.2 (by simp [decodeSlot, decodeF, p]) hf
theorem fDiv (o : F3R) : Statement (.fDiv o) := by
  intro hf
  have p := f3r_encF3R (op := 6) o (by norm_num) hf
  exact ofSlot rfl (by decide) rfl p.2.2 (by simp [decodeSlot, decodeF, p]) hf
theorem tanh (o : F2R) : Statement (.tanh o) := by
  intro hf
  have p := f2r_encF2R (op := 7) o (by norm_num) hf
  exact ofSlot rfl (by decide) rfl p.2.2 (by simp [decodeSlot, decodeF, p]) hf
theorem wupd (o : F3R) : Statement (.wupd o) := by
  intro hf
  have p := f3r_encF3R (op := 8) o (by norm_num) hf
  exact ofSlot rfl (by decide) rfl p.2.2 (by simp [decodeSlot, decodeF, p]) hf
theorem wmrg (o : F3R) : Statement (.wmrg o) := by
  intro hf
  have p := f3r_encF3R (op := 9) o (by norm_num) hf
  exact ofSlot rfl (by decide) rfl p.2.2 (by simp [decodeSlot, decodeF, p]) hf
theorem wfin (o : F3R) : Statement (.wfin o) := by
  intro hf
  have p := f3r_encF3R (op := 10) o (by norm_num) hf
  exact ofSlot rfl (by decide) rfl p.2.2 (by simp [decodeSlot, decodeF, p]) hf
theorem bnld (vs1 : Fin 32) (pat : Fin 8) : Statement (.bnld vs1 pat) := by
  intro hf
  have u1 := vs1.isLt
  have u3 := pat.isLt
  obtain ⟨w', hw⟩ : ∃ w', w' = 16 * 2 ^ 26 + vs1.val * 2 ^ 16 + 63 * 2 ^ 5 + pat.val * 2 ^ 2 := ⟨_, rfl⟩
  have hl : w' < 2 ^ 32 := by omega
  have d0 : bits w' 26 6 = 16 := bits_top (low := (vs1.val) * 65536 + 63 * 32 + (pat.val) * 4) (Q := 67108864) (by norm_num)
      (by rw [hw]; ring) (by clear hw; omega) (by omega)
  have b0 : bits w' 21 5 = 0 := bits_mid (hi := 16) (low := (vs1.val) * 65536 + 63 * 32 + (pat.val) * 4) (P := 67108864) (Q := 2097152) (by norm_num) (by norm_num)
      (by rw [hw]; ring) (by clear hw; omega) (by omega)
  have b1 : bits w' 5 11 = 63 := bits_mid (hi := 16 * 1024 + (vs1.val)) (low := (pat.val) * 4) (P := 65536) (Q := 32) (by norm_num) (by norm_num)
      (by rw [hw]; ring) (by clear hw; omega) (by omega)
  have b2 : bits w' 0 2 = 0 := bits_mid (hi := 16 * 16777216 + (vs1.val) * 16384 + 63 * 8 + (pat.val)) (low := 0) (P := 4) (Q := 1) (by norm_num) (by norm_num)
      (by rw [hw]; ring) (by clear hw; omega) (by omega)
  have b3 : bits w' 16 5 = vs1.val := bits_mid (hi := 16 * 32) (low := 63 * 32 + (pat.val) * 4) (P := 2097152) (Q := 65536) (by norm_num) (by norm_num)
      (by rw [hw]; ring) (by clear hw; omega) (by omega)
  have b4 : bits w' 2 3 = pat.val := bits_mid (hi := 16 * 2097152 + (vs1.val) * 2048 + 63) (low := 0) (P := 32) (Q := 4) (by norm_num) (by norm_num)
      (by rw [hw]; ring) (by clear hw; omega) (by omega)
  exact ofSlot (sl := .f) (w := w') rfl (by decide) (by rw [hw]; rfl) hl (by simp [decodeSlot, decodeF, d0, b0, b1, b2, reg_of b3, b4]) hf
theorem bnet (o : FNet) : Statement (.bnet o) := by
  intro hf
  have p := fnet_encFNet o hf
  exact ofSlot rfl (by decide) rfl p.2.2 (by simp [decodeSlot, decodeF, p]) hf
theorem bmm8 (o : F3R) : Statement (.bmm8 o) := by
  intro hf
  have p := f3r_encF3R (op := 18) o (by norm_num) hf
  exact ofSlot rfl (by decide) rfl p.2.2 (by simp [decodeSlot, decodeF, p]) hf
theorem pdep (o : F3R) : Statement (.pdep o) := by
  intro hf
  have p := f3r_encF3R (op := 19) o (by norm_num) hf
  exact ofSlot rfl (by decide) rfl p.2.2 (by simp [decodeSlot, decodeF, p]) hf
theorem pext (o : F3R) : Statement (.pext o) := by
  intro hf
  have p := f3r_encF3R (op := 20) o (by norm_num) hf
  exact ofSlot rfl (by decide) rfl p.2.2 (by simp [decodeSlot, decodeF, p]) hf
theorem bperm (o : F3R) : Statement (.bperm o) := by
  intro hf
  have p := f3r_encF3R (op := 21) o (by norm_num) hf
  exact ofSlot rfl (by decide) rfl p.2.2 (by simp [decodeSlot, decodeF, p]) hf
theorem vtrn (o : F2R) : Statement (.vtrn o) := by
  intro hf
  have p := f2r_encF2R (op := 22) o (by norm_num) hf
  exact ofSlot rfl (by decide) rfl p.2.2 (by simp [decodeSlot, decodeF, p]) hf
theorem mma (o : MM) : Statement (.mma o) := by
  intro hf
  have p := mmForm_encMM o
  exact ofSlot rfl (by decide) rfl p.2.2 (by simp [decodeSlot, decodeM, p]) hf
theorem mzero (z : Fin 2) : Statement (.mzero z) := by
  intro hf
  have u1 := z.isLt
  obtain ⟨w', hw⟩ : ∃ w', w' = 2 * 2 ^ 26 + z.val * 2 ^ 25 := ⟨_, rfl⟩
  have hl : w' < 2 ^ 32 := by omega
  have d0 : bits w' 26 6 = 2 := bits_top (low := (z.val) * 33554432) (Q := 67108864) (by norm_num)
      (by rw [hw]; ring) (by clear hw; omega) (by omega)
  have b0 : bits w' 0 25 = 0 := bits_mid (hi := 2 * 2 + (z.val)) (low := 0) (P := 33554432) (Q := 1) (by norm_num) (by norm_num)
      (by rw [hw]; ring) (by clear hw; omega) (by omega)
  have b1 : bits w' 25 1 = z.val := bits_mid (hi := 2) (low := 0) (P := 67108864) (Q := 33554432) (by norm_num) (by norm_num)
      (by rw [hw]; ring) (by clear hw; omega) (by omega)
  exact ofSlot (sl := .m) (w := w') rfl (by decide) (by rw [hw]; rfl) hl (by simp [decodeSlot, decodeM, d0, b0, b1]) hf
theorem mwld (o : MW) : Statement (.mwld o) := by
  intro hf
  have p := mwForm_encMW (op := 3) o (by norm_num) hf
  exact ofSlot rfl (by decide) rfl p.2.2 (by simp [decodeSlot, decodeM, p]) hf
theorem mwstrm (o : MW) : Statement (.mwstrm o) := by
  intro hf
  have p := mwForm_encMW (op := 4) o (by norm_num) hf
  exact ofSlot rfl (by decide) rfl p.2.2 (by simp [decodeSlot, decodeM, p]) hf
theorem mwswap : Statement .mwswap := ofSlot rfl (by decide) rfl (by decide) (by decide)
theorem mret (o : MR) : Statement (.mret o) := by
  intro hf
  have p := mrForm_encMR o hf
  exact ofSlot rfl (by decide) rfl p.2.2 (by simp [decodeSlot, decodeM, p]) hf
theorem mstat (xd : Fin 32) (sel : Fin 5) : Statement (.mstat xd sel) := by
  intro hf
  have u1 := xd.isLt
  have u2 := sel.isLt
  obtain ⟨w', hw⟩ : ∃ w', w' = 7 * 2 ^ 26 + xd.val * 2 ^ 21 + sel.val * 2 ^ 18 := ⟨_, rfl⟩
  have hl : w' < 2 ^ 32 := by omega
  have d0 : bits w' 26 6 = 7 := bits_top (low := (xd.val) * 2097152 + (sel.val) * 262144) (Q := 67108864) (by norm_num)
      (by rw [hw]; ring) (by clear hw; omega) (by omega)
  have b0 : bits w' 0 18 = 0 := bits_mid (hi := 7 * 256 + (xd.val) * 8 + (sel.val)) (low := 0) (P := 262144) (Q := 1) (by norm_num) (by norm_num)
      (by rw [hw]; ring) (by clear hw; omega) (by omega)
  have b1 : bits w' 21 5 = xd.val := bits_mid (hi := 7) (low := (sel.val) * 262144) (P := 67108864) (Q := 2097152) (by norm_num) (by norm_num)
      (by rw [hw]; ring) (by clear hw; omega) (by omega)
  have b2 : bits w' 18 3 = sel.val := bits_mid (hi := 7 * 32 + (xd.val)) (low := 0) (P := 2097152) (Q := 262144) (by norm_num) (by norm_num)
      (by rw [hw]; ring) (by clear hw; omega) (by omega)
  exact ofSlot (sl := .m) (w := w') rfl (by decide) (by rw [hw]; rfl) hl (by simp [decodeSlot, decodeM, d0, b0, reg_of b1, b2, (by omega : sel.val < 5)]) hf
theorem dlvl (lvl : Fin 6) (xc xss xsd : Fin 32) : Statement (.dlvl lvl xc xss xsd) := by
  intro hf
  have u1 := lvl.isLt
  have u2 := xc.isLt
  have u3 := xss.isLt
  have u4 := xsd.isLt
  obtain ⟨w', hw⟩ : ∃ w', w' = 1 * 2 ^ 26 + lvl.val * 2 ^ 23 + xc.val * 2 ^ 18 + xss.val * 2 ^ 13 + xsd.val * 2 ^ 8 := ⟨_, rfl⟩
  have hl : w' < 2 ^ 32 := by omega
  have d0 : bits w' 26 6 = 1 := bits_top (low := (lvl.val) * 8388608 + (xc.val) * 262144 + (xss.val) * 8192 + (xsd.val) * 256) (Q := 67108864) (by norm_num)
      (by rw [hw]; ring) (by clear hw; omega) (by omega)
  have b0 : bits w' 0 8 = 0 := bits_mid (hi := 1 * 262144 + (lvl.val) * 32768 + (xc.val) * 1024 + (xss.val) * 32 + (xsd.val)) (low := 0) (P := 256) (Q := 1) (by norm_num) (by norm_num)
      (by rw [hw]; ring) (by clear hw; omega) (by omega)
  have b1 : bits w' 23 3 = lvl.val := bits_mid (hi := 1) (low := (xc.val) * 262144 + (xss.val) * 8192 + (xsd.val) * 256) (P := 67108864) (Q := 8388608) (by norm_num) (by norm_num)
      (by rw [hw]; ring) (by clear hw; omega) (by omega)
  have b2 : bits w' 18 5 = xc.val := bits_mid (hi := 1 * 8 + (lvl.val)) (low := (xss.val) * 8192 + (xsd.val) * 256) (P := 8388608) (Q := 262144) (by norm_num) (by norm_num)
      (by rw [hw]; ring) (by clear hw; omega) (by omega)
  have b3 : bits w' 13 5 = xss.val := bits_mid (hi := 1 * 256 + (lvl.val) * 32 + (xc.val)) (low := (xsd.val) * 256) (P := 262144) (Q := 8192) (by norm_num) (by norm_num)
      (by rw [hw]; ring) (by clear hw; omega) (by omega)
  have b4 : bits w' 8 5 = xsd.val := bits_mid (hi := 1 * 8192 + (lvl.val) * 1024 + (xc.val) * 32 + (xss.val)) (low := 0) (P := 8192) (Q := 256) (by norm_num) (by norm_num)
      (by rw [hw]; ring) (by clear hw; omega) (by omega)
  exact ofSlot (sl := .d) (w := w') rfl (by decide) (by rw [hw]; rfl) hl (by simp [decodeSlot, decodeD, d0, b0, b1, reg_of b2, reg_of b3, reg_of b4, (by omega : lvl.val < 6)]) hf
theorem dcopyCopy (o : DC) : Statement (.dcopyCopy o) := by
  intro hf
  have p := dcForm_encDC (mode := 0) o (by norm_num)
  exact ofSlot rfl (by decide) rfl p.2.2.2 (by simp [decodeSlot, decodeD, decodeDcopy, p]) hf
theorem dcopyFill (o : DC) : Statement (.dcopyFill o) := by
  intro hf
  have p := dcForm_encDC (mode := 1) o (by norm_num)
  exact ofSlot rfl (by decide) rfl p.2.2.2 (by simp [decodeSlot, decodeD, decodeDcopy, p]) hf
theorem dcopyDecode (o : DC) : Statement (.dcopyDecode o) := by
  intro hf
  have p := dcForm_encDC (mode := 2) o (by norm_num)
  exact ofSlot rfl (by decide) rfl p.2.2.2 (by simp [decodeSlot, decodeD, decodeDcopy, p]) hf
theorem dcopyAddint (o : DC) : Statement (.dcopyAddint o) := by
  intro hf
  have p := dcForm_encDC (mode := 3) o (by norm_num)
  exact ofSlot rfl (by decide) rfl p.2.2.2 (by simp [decodeSlot, decodeD, decodeDcopy, p]) hf
theorem dcopyClone (o : DC) : Statement (.dcopyClone o) := by
  intro hf
  have p := dcForm_encDC (mode := 4) o (by norm_num)
  exact ofSlot rfl (by decide) rfl p.2.2.2 (by simp [decodeSlot, decodeD, decodeDcopy, p]) hf
theorem dpad (xv : Fin 32) : Statement (.dpad xv) := by
  intro hf
  have u1 := xv.isLt
  obtain ⟨w', hw⟩ : ∃ w', w' = 3 * 2 ^ 26 + xv.val * 2 ^ 21 := ⟨_, rfl⟩
  have hl : w' < 2 ^ 32 := by omega
  have d0 : bits w' 26 6 = 3 := bits_top (low := (xv.val) * 2097152) (Q := 67108864) (by norm_num)
      (by rw [hw]; ring) (by clear hw; omega) (by omega)
  have b0 : bits w' 0 21 = 0 := bits_mid (hi := 3 * 32 + (xv.val)) (low := 0) (P := 2097152) (Q := 1) (by norm_num) (by norm_num)
      (by rw [hw]; ring) (by clear hw; omega) (by omega)
  have b1 : bits w' 21 5 = xv.val := bits_mid (hi := 3) (low := 0) (P := 67108864) (Q := 2097152) (by norm_num) (by norm_num)
      (by rw [hw]; ring) (by clear hw; omega) (by omega)
  exact ofSlot (sl := .d) (w := w') rfl (by decide) (by rw [hw]; rfl) hl (by simp [decodeSlot, decodeD, d0, b0, reg_of b1]) hf
theorem dgcfg (hs hd : Fin 16) (xc : Fin 32) : Statement (.dgcfg hs hd xc) := by
  intro hf
  have u1 := hs.isLt
  have u2 := hd.isLt
  have u3 := xc.isLt
  obtain ⟨w', hw⟩ : ∃ w', w' = 4 * 2 ^ 26 + hs.val * 2 ^ 22 + hd.val * 2 ^ 18 + xc.val * 2 ^ 13 := ⟨_, rfl⟩
  have hl : w' < 2 ^ 32 := by omega
  have d0 : bits w' 26 6 = 4 := bits_top (low := (hs.val) * 4194304 + (hd.val) * 262144 + (xc.val) * 8192) (Q := 67108864) (by norm_num)
      (by rw [hw]; ring) (by clear hw; omega) (by omega)
  have b0 : bits w' 0 13 = 0 := bits_mid (hi := 4 * 8192 + (hs.val) * 512 + (hd.val) * 32 + (xc.val)) (low := 0) (P := 8192) (Q := 1) (by norm_num) (by norm_num)
      (by rw [hw]; ring) (by clear hw; omega) (by omega)
  have b1 : bits w' 22 4 = hs.val := bits_mid (hi := 4) (low := (hd.val) * 262144 + (xc.val) * 8192) (P := 67108864) (Q := 4194304) (by norm_num) (by norm_num)
      (by rw [hw]; ring) (by clear hw; omega) (by omega)
  have b2 : bits w' 18 4 = hd.val := bits_mid (hi := 4 * 16 + (hs.val)) (low := (xc.val) * 8192) (P := 4194304) (Q := 262144) (by norm_num) (by norm_num)
      (by rw [hw]; ring) (by clear hw; omega) (by omega)
  have b3 : bits w' 13 5 = xc.val := bits_mid (hi := 4 * 256 + (hs.val) * 16 + (hd.val)) (low := 0) (P := 262144) (Q := 8192) (by norm_num) (by norm_num)
      (by rw [hw]; ring) (by clear hw; omega) (by omega)
  exact ofSlot (sl := .d) (w := w') rfl (by decide) (by rw [hw]; rfl) hl (by simp [decodeSlot, decodeD, d0, b0, hnd_of b1, hnd_of b2, reg_of b3]) hf
theorem dgidx (o : DI) : Statement (.dgidx o) := by
  intro hf
  have p := diForm_encDI (op := 5) o (by norm_num)
  exact ofSlot rfl (by decide) rfl p.2.2 (by simp [decodeSlot, decodeD, decodeDcopy, p]) hf
theorem dsidx (o : DI) : Statement (.dsidx o) := by
  intro hf
  have p := diForm_encDI (op := 6) o (by norm_num)
  exact ofSlot rfl (by decide) rfl p.2.2 (by simp [decodeSlot, decodeD, decodeDcopy, p]) hf
theorem dtinv : Statement .dtinv := ofSlot rfl (by decide) rfl (by decide) (by decide)
theorem dcoll (o : DK) : Statement (.dcoll o) := by
  intro hf
  have p := dkForm_encDK o hf
  exact ofSlot rfl (by decide) rfl p.2.2 (by simp [decodeSlot, decodeD, decodeDcopy, p]) hf
theorem dsnap (o : DI) : Statement (.dsnap o) := by
  intro hf
  have p := diForm_encDI (op := 9) o (by norm_num)
  exact ofSlot rfl (by decide) rfl p.2.2 (by simp [decodeSlot, decodeD, decodeDcopy, p]) hf
theorem kalu (op : KOp) (kd : Fin 8) (a b : KSrc) : Statement (.kalu op kd a b) := by
  intro hf
  have u1 := kd.isLt
  have u2 := ksrcBit_lt a
  have u3 := ksrcNum_lt a
  have u4 := ksrcBit_lt b
  have u5 := ksrcNum_lt b
  have u6 := kopCode_lt op
  obtain ⟨w', hw⟩ : ∃ w', w' = 1 * 2 ^ 26 + kd.val * 2 ^ 23 + ksrcBit a * 2 ^ 22 + ksrcNum a * 2 ^ 17 + ksrcBit b * 2 ^ 16 + ksrcNum b * 2 ^ 11 + kopCode op * 2 ^ 7 := ⟨_, rfl⟩
  have hl : w' < 2 ^ 32 := by omega
  have d0 : bits w' 26 6 = 1 := bits_top (low := (kd.val) * 8388608 + (ksrcBit a) * 4194304 + (ksrcNum a) * 131072 + (ksrcBit b) * 65536 + (ksrcNum b) * 2048 + (kopCode op) * 128) (Q := 67108864) (by norm_num)
      (by rw [hw]; ring) (by clear hw; omega) (by omega)
  have b0 : bits w' 0 7 = 0 := bits_mid (hi := 1 * 524288 + (kd.val) * 65536 + (ksrcBit a) * 32768 + (ksrcNum a) * 1024 + (ksrcBit b) * 512 + (ksrcNum b) * 16 + (kopCode op)) (low := 0) (P := 128) (Q := 1) (by norm_num) (by norm_num)
      (by rw [hw]; ring) (by clear hw; omega) (by omega)
  have b1 : bits w' 23 3 = kd.val := bits_mid (hi := 1) (low := (ksrcBit a) * 4194304 + (ksrcNum a) * 131072 + (ksrcBit b) * 65536 + (ksrcNum b) * 2048 + (kopCode op) * 128) (P := 67108864) (Q := 8388608) (by norm_num) (by norm_num)
      (by rw [hw]; ring) (by clear hw; omega) (by omega)
  have b2 : bits w' 7 4 = kopCode op := bits_mid (hi := 1 * 32768 + (kd.val) * 4096 + (ksrcBit a) * 2048 + (ksrcNum a) * 64 + (ksrcBit b) * 32 + (ksrcNum b)) (low := 0) (P := 2048) (Q := 128) (by norm_num) (by norm_num)
      (by rw [hw]; ring) (by clear hw; omega) (by omega)
  have b3 : bits w' 22 1 = ksrcBit a := bits_mid (hi := 1 * 8 + (kd.val)) (low := (ksrcNum a) * 131072 + (ksrcBit b) * 65536 + (ksrcNum b) * 2048 + (kopCode op) * 128) (P := 8388608) (Q := 4194304) (by norm_num) (by norm_num)
      (by rw [hw]; ring) (by clear hw; omega) (by omega)
  have b4 : bits w' 17 5 = ksrcNum a := bits_mid (hi := 1 * 16 + (kd.val) * 2 + (ksrcBit a)) (low := (ksrcBit b) * 65536 + (ksrcNum b) * 2048 + (kopCode op) * 128) (P := 4194304) (Q := 131072) (by norm_num) (by norm_num)
      (by rw [hw]; ring) (by clear hw; omega) (by omega)
  have b5 : bits w' 16 1 = ksrcBit b := bits_mid (hi := 1 * 512 + (kd.val) * 64 + (ksrcBit a) * 32 + (ksrcNum a)) (low := (ksrcNum b) * 2048 + (kopCode op) * 128) (P := 131072) (Q := 65536) (by norm_num) (by norm_num)
      (by rw [hw]; ring) (by clear hw; omega) (by omega)
  have b6 : bits w' 11 5 = ksrcNum b := bits_mid (hi := 1 * 1024 + (kd.val) * 128 + (ksrcBit a) * 64 + (ksrcNum a) * 2 + (ksrcBit b)) (low := (kopCode op) * 128) (P := 65536) (Q := 2048) (by norm_num) (by norm_num)
      (by rw [hw]; ring) (by clear hw; omega) (by omega)
  exact ofSlot (sl := .k) (w := w') rfl (by decide) (by rw [hw]; rfl) hl (by simp [decodeSlot, decodeK, d0, b0, b1, b2, b3, b4, b5, b6, kopOf_kopCode, ksrc_code, (by simpa [wellFormed] using hf : kd.val ≠ 7)]) hf
theorem kchkX (ka : Fin 8) (xb : Fin 32) (w : Bool) : Statement (.kchkX ka xb w) := by
  intro hf
  have u1 := ka.isLt
  have u2 := xb.isLt
  have u3 := one_lt w
  obtain ⟨w', hw⟩ : ∃ w', w' = 2 * 2 ^ 26 + ka.val * 2 ^ 23 + xb.val * 2 ^ 18 + one w * 2 ^ 17 := ⟨_, rfl⟩
  have hl : w' < 2 ^ 32 := by omega
  have d0 : bits w' 26 6 = 2 := bits_top (low := (ka.val) * 8388608 + (xb.val) * 262144 + (one w) * 131072) (Q := 67108864) (by norm_num)
      (by rw [hw]; ring) (by clear hw; omega) (by omega)
  have b0 : bits w' 0 17 = 0 := bits_mid (hi := 2 * 512 + (ka.val) * 64 + (xb.val) * 2 + (one w)) (low := 0) (P := 131072) (Q := 1) (by norm_num) (by norm_num)
      (by rw [hw]; ring) (by clear hw; omega) (by omega)
  have b1 : bits w' 23 3 = ka.val := bits_mid (hi := 2) (low := (xb.val) * 262144 + (one w) * 131072) (P := 67108864) (Q := 8388608) (by norm_num) (by norm_num)
      (by rw [hw]; ring) (by clear hw; omega) (by omega)
  have b2 : bits w' 18 5 = xb.val := bits_mid (hi := 2 * 8 + (ka.val)) (low := (one w) * 131072) (P := 8388608) (Q := 262144) (by norm_num) (by norm_num)
      (by rw [hw]; ring) (by clear hw; omega) (by omega)
  have b3 : bits w' 17 1 = one w := bits_mid (hi := 2 * 256 + (ka.val) * 32 + (xb.val)) (low := 0) (P := 262144) (Q := 131072) (by norm_num) (by norm_num)
      (by rw [hw]; ring) (by clear hw; omega) (by omega)
  exact ofSlot (sl := .k) (w := w') rfl (by decide) (by rw [hw]; rfl) hl (by simp [decodeSlot, decodeK, d0, b0, b1, reg_of b2, flag_of b3]) hf
theorem kchkV (va vb : Fin 32) : Statement (.kchkV va vb) := by
  intro hf
  have u1 := va.isLt
  have u2 := vb.isLt
  obtain ⟨w', hw⟩ : ∃ w', w' = 3 * 2 ^ 26 + va.val * 2 ^ 21 + vb.val * 2 ^ 16 := ⟨_, rfl⟩
  have hl : w' < 2 ^ 32 := by omega
  have d0 : bits w' 26 6 = 3 := bits_top (low := (va.val) * 2097152 + (vb.val) * 65536) (Q := 67108864) (by norm_num)
      (by rw [hw]; ring) (by clear hw; omega) (by omega)
  have b0 : bits w' 0 16 = 0 := bits_mid (hi := 3 * 1024 + (va.val) * 32 + (vb.val)) (low := 0) (P := 65536) (Q := 1) (by norm_num) (by norm_num)
      (by rw [hw]; ring) (by clear hw; omega) (by omega)
  have b1 : bits w' 21 5 = va.val := bits_mid (hi := 3) (low := (vb.val) * 65536) (P := 67108864) (Q := 2097152) (by norm_num) (by norm_num)
      (by rw [hw]; ring) (by clear hw; omega) (by omega)
  have b2 : bits w' 16 5 = vb.val := bits_mid (hi := 3 * 32 + (va.val)) (low := 0) (P := 2097152) (Q := 65536) (by norm_num) (by norm_num)
      (by rw [hw]; ring) (by clear hw; omega) (by omega)
  exact ofSlot (sl := .k) (w := w') rfl (by decide) (by rw [hw]; rfl) hl (by simp [decodeSlot, decodeK, d0, b0, reg_of b1, reg_of b2]) hf
theorem kchkP (pa pb : Fin 48) : Statement (.kchkP pa pb) := by
  intro hf
  have u1 := pa.isLt
  have u2 := pb.isLt
  obtain ⟨w', hw⟩ : ∃ w', w' = 4 * 2 ^ 26 + pa.val * 2 ^ 20 + pb.val * 2 ^ 14 := ⟨_, rfl⟩
  have hl : w' < 2 ^ 32 := by omega
  have d0 : bits w' 26 6 = 4 := bits_top (low := (pa.val) * 1048576 + (pb.val) * 16384) (Q := 67108864) (by norm_num)
      (by rw [hw]; ring) (by clear hw; omega) (by omega)
  have b0 : bits w' 0 14 = 0 := bits_mid (hi := 4 * 4096 + (pa.val) * 64 + (pb.val)) (low := 0) (P := 16384) (Q := 1) (by norm_num) (by norm_num)
      (by rw [hw]; ring) (by clear hw; omega) (by omega)
  have b1 : bits w' 20 6 = pa.val := bits_mid (hi := 4) (low := (pb.val) * 16384) (P := 67108864) (Q := 1048576) (by norm_num) (by norm_num)
      (by rw [hw]; ring) (by clear hw; omega) (by omega)
  have b2 : bits w' 14 6 = pb.val := bits_mid (hi := 4 * 64 + (pa.val)) (low := 0) (P := 1048576) (Q := 16384) (by norm_num) (by norm_num)
      (by rw [hw]; ring) (by clear hw; omega) (by omega)
  exact ofSlot (sl := .k) (w := w') rfl (by decide) (by rw [hw]; rfl) hl (by simp [decodeSlot, decodeK, d0, b0, b1, b2, prOf_val]) hf
theorem ksig (xs : Fin 32) : Statement (.ksig xs) := by
  intro hf
  have u1 := xs.isLt
  obtain ⟨w', hw⟩ : ∃ w', w' = 5 * 2 ^ 26 + xs.val * 2 ^ 21 := ⟨_, rfl⟩
  have hl : w' < 2 ^ 32 := by omega
  have d0 : bits w' 26 6 = 5 := bits_top (low := (xs.val) * 2097152) (Q := 67108864) (by norm_num)
      (by rw [hw]; ring) (by clear hw; omega) (by omega)
  have b0 : bits w' 0 21 = 0 := bits_mid (hi := 5 * 32 + (xs.val)) (low := 0) (P := 2097152) (Q := 1) (by norm_num) (by norm_num)
      (by rw [hw]; ring) (by clear hw; omega) (by omega)
  have b1 : bits w' 21 5 = xs.val := bits_mid (hi := 5) (low := 0) (P := 67108864) (Q := 2097152) (by norm_num) (by norm_num)
      (by rw [hw]; ring) (by clear hw; omega) (by omega)
  exact ofSlot (sl := .k) (w := w') rfl (by decide) (by rw [hw]; rfl) hl (by simp [decodeSlot, decodeK, d0, b0, reg_of b1]) hf
theorem krd (xd : Fin 32) (ka : Fin 8) : Statement (.krd xd ka) := by
  intro hf
  have u1 := xd.isLt
  have u2 := ka.isLt
  obtain ⟨w', hw⟩ : ∃ w', w' = 6 * 2 ^ 26 + xd.val * 2 ^ 21 + ka.val * 2 ^ 18 := ⟨_, rfl⟩
  have hl : w' < 2 ^ 32 := by omega
  have d0 : bits w' 26 6 = 6 := bits_top (low := (xd.val) * 2097152 + (ka.val) * 262144) (Q := 67108864) (by norm_num)
      (by rw [hw]; ring) (by clear hw; omega) (by omega)
  have b0 : bits w' 0 18 = 0 := bits_mid (hi := 6 * 256 + (xd.val) * 8 + (ka.val)) (low := 0) (P := 262144) (Q := 1) (by norm_num) (by norm_num)
      (by rw [hw]; ring) (by clear hw; omega) (by omega)
  have b1 : bits w' 21 5 = xd.val := bits_mid (hi := 6) (low := (ka.val) * 262144) (P := 67108864) (Q := 2097152) (by norm_num) (by norm_num)
      (by rw [hw]; ring) (by clear hw; omega) (by omega)
  have b2 : bits w' 18 3 = ka.val := bits_mid (hi := 6 * 32 + (xd.val)) (low := 0) (P := 2097152) (Q := 262144) (by norm_num) (by norm_num)
      (by rw [hw]; ring) (by clear hw; omega) (by omega)
  exact ofSlot (sl := .k) (w := w') rfl (by decide) (by rw [hw]; rfl) hl (by simp [decodeSlot, decodeK, d0, b0, reg_of b1, b2]) hf
theorem unassignedOpcode (slot : Slot) (word : SlotWord) : Statement (.unassignedOpcode slot word) := by
  intro h
  have h2 : decodeSlot slot word.toNat = none := by simpa [wellFormed] using h
  simp only [slotOf, encode]
  refine ⟨by have := word.isLt; omega, by simp [decodeWord, h2], fun hs hd => ?_⟩
  subst hs
  exact absurd (show none = some _ from h2.symm.trans hd) (by simp)
theorem illegalToken (tok : BitVec 16) : Statement (.illegalToken tok) := by
  intro h
  have h1 := tok.isLt
  have h2 : tok.toNat % 2 = 1 := by simpa [wellFormed] using h
  simp only [slotOf, encode]
  exact ⟨by omega, by simp [decodeToken, bits, h2]⟩
theorem forcedCommit : Statement .forcedCommit := fun _ => trivial
theorem forcedCommitUndoLog : Statement .forcedCommitUndoLog := fun _ => trivial
theorem barrierArrival (core : Nat) (scope : Scope) (id : Fin 512) : Statement (.barrierArrival core scope id) := fun _ => trivial
theorem barrierComplete (scope : Scope) (id : Fin 512) : Statement (.barrierComplete scope id) := fun _ => trivial
theorem nextitemHandout (launch queue : Nat) : Statement (.nextitemHandout launch queue) := fun _ => trivial
theorem emitGrant (launch queue : Nat) : Statement (.emitGrant launch queue) := fun _ => trivial
theorem emitPublish (launch queue slot : Nat) : Statement (.emitPublish launch queue slot) := fun _ => trivial
theorem itemRelease (launch queue slot : Nat) : Statement (.itemRelease launch queue slot) := fun _ => trivial
theorem lockGrant (core bank bit : Nat) : Statement (.lockGrant core bank bit) := fun _ => trivial
theorem ldlRetry : Statement .ldlRetry := fun _ => trivial
theorem atomicPerform (n : Nat) : Statement (.atomicPerform n) := fun _ => trivial
theorem trustOpPerform (n : Nat) : Statement (.trustOpPerform n) := fun _ => trivial
theorem trustOpComplete (n : Nat) : Statement (.trustOpComplete n) := fun _ => trivial
theorem relHPerform (n : Nat) : Statement (.relHPerform n) := fun _ => trivial
theorem mmaComplete (z : Fin 2) : Statement (.mmaComplete z) := fun _ => trivial
theorem mwldComplete (b : Fin 2) : Statement (.mwldComplete b) := fun _ => trivial
theorem mwstrmComplete (b : Fin 2) : Statement (.mwstrmComplete b) := fun _ => trivial
theorem mretComplete (z : Fin 2) : Statement (.mretComplete z) := fun _ => trivial
theorem addintCopyStart (n : Nat) : Statement (.addintCopyStart n) := fun _ => trivial
theorem copyComplete (n : Nat) : Statement (.copyComplete n) := fun _ => trivial
theorem gatherEntryDeliver : Statement .gatherEntryDeliver := fun _ => trivial
theorem scatterEntryTake : Statement .scatterEntryTake := fun _ => trivial
theorem scatterComplete : Statement .scatterComplete := fun _ => trivial
theorem dtinvComplete (n : Nat) : Statement (.dtinvComplete n) := fun _ => trivial
theorem dcollContribution (n : Nat) : Statement (.dcollContribution n) := fun _ => trivial
theorem dcollComplete (n : Nat) : Statement (.dcollComplete n) := fun _ => trivial
theorem dsnapComplete (n : Nat) : Statement (.dsnapComplete n) := fun _ => trivial
theorem resultLanding : Statement .resultLanding := fun _ => trivial
theorem resultArrival (n : Nat) : Statement (.resultArrival n) := fun _ => trivial
theorem deferredTrap (f : FaultRec) : Statement (.deferredTrap f) := fun _ => trivial
theorem yardKill (launch : Nat) : Statement (.yardKill launch) := fun _ => trivial
theorem paddockEntry : Statement .paddockEntry := fun _ => trivial
theorem paddockRelease : Statement .paddockRelease := fun _ => trivial
theorem pendingListRelease (n : Nat) : Statement (.pendingListRelease n) := fun _ => trivial
theorem storePerform (n : Nat) : Statement (.storePerform n) := fun _ => trivial
theorem counterIncrementPerform (n : Nat) : Statement (.counterIncrementPerform n) := fun _ => trivial
theorem tagRefusal (n : Nat) : Statement (.tagRefusal n) := fun _ => trivial
theorem upsetReport (zone : Fin 16) : Statement (.upsetReport zone) := fun _ => trivial
theorem checkpointRelease : Statement .checkpointRelease := fun _ => trivial
theorem dryRunEnd : Statement .dryRunEnd := fun _ => trivial
theorem confirmRunEnd : Statement .confirmRunEnd := fun _ => trivial
theorem recoveryResume (launch core : Nat) : Statement (.recoveryResume launch core) := fun _ => trivial
theorem uncorrectableConsumed (place : ErrWhere) (slot : Slot) (addr : Nat) (h : Fin 16) : Statement (.uncorrectableConsumed place slot addr h) := fun _ => trivial
theorem preemptRequest (area : Word) : Statement (.preemptRequest area) := fun _ => trivial
theorem voluntaryPreempt : Statement .voluntaryPreempt := fun _ => trivial
theorem yieldOverrun : Statement .yieldOverrun := fun _ => trivial
theorem preemptComplete (part : Nat) : Statement (.preemptComplete part) := fun _ => trivial
theorem backgroundWriteback (granule : Nat) : Statement (.backgroundWriteback granule) := fun _ => trivial
theorem coreSelfTest (core : Nat) (pass : Bool) : Statement (.coreSelfTest core pass) := fun _ => trivial
theorem queueDoorbell (queue : Nat) (tail : BitVec 32) : Statement (.queueDoorbell queue tail) := fun _ => trivial
theorem queueEnable (queue : Nat) (size : Nat) : Statement (.queueEnable queue size) := fun _ => trivial
theorem queueDisable (queue : Nat) : Statement (.queueDisable queue) := fun _ => trivial
theorem noOp (queue seq : Nat) : Statement (.noOp queue seq) := fun _ => trivial
theorem launch (queue seq : Nat) (record : Word) : Statement (.launch queue seq record) := fun _ => trivial
theorem counterAdd (queue seq : Nat) (addr addend : Word) (after : Bool) : Statement (.counterAdd queue seq addr addend after) := fun _ => trivial
theorem counterAddDeferred (queue : Nat) : Statement (.counterAddDeferred queue) := fun _ => trivial
theorem resync (queue seq : Nat) : Statement (.resync queue seq) := fun _ => trivial
theorem otherTypeEntry (queue seq : Nat) (kind : Byte) : Statement (.otherTypeEntry queue seq kind) := fun _ => trivial
theorem launchStart (launch : Nat) : Statement (.launchStart launch) := fun _ => trivial
theorem launchComplete (launch : Nat) : Statement (.launchComplete launch) := fun _ => trivial
theorem eventRingEnable (vf size : Nat) : Statement (.eventRingEnable vf size) := fun _ => trivial
theorem rebalanceBoundary : Statement .rebalanceBoundary := fun _ => trivial
theorem coreAllocation (part : Nat) : Statement (.coreAllocation part) := fun _ => trivial
theorem sliceBoundary (part : Nat) : Statement (.sliceBoundary part) := fun _ => trivial
theorem partitionChange (first count size : Nat) : Statement (.partitionChange first count size) := fun _ => trivial
theorem gangSliceTimes (gang start slice : Nat) : Statement (.gangSliceTimes gang start slice) := fun _ => trivial
theorem gangSliceStart (gang : Nat) : Statement (.gangSliceStart gang) := fun _ => trivial
theorem gangPreemptTimeout (gang : Nat) : Statement (.gangPreemptTimeout gang) := fun _ => trivial
theorem invalidate (vf : Nat) (len : BitVec 64) : Statement (.invalidate vf len) := fun _ => trivial
theorem invalidateDone (vf : Nat) : Statement (.invalidateDone vf) := fun _ => trivial
theorem migrationRequest (vf : Nat) (va : Word) (tier dpa : Nat) : Statement (.migrationRequest vf va tier dpa) := fun _ => trivial
theorem migrationCopy (vf : Nat) (va : Word) : Statement (.migrationCopy vf va) := fun _ => trivial
theorem migrationSwitch (vf : Nat) (va : Word) : Statement (.migrationSwitch vf va) := fun _ => trivial
theorem perBankRefresh (stack chan pc bank : Nat) : Statement (.perBankRefresh stack chan pc bank) := fun _ => trivial
theorem activationAlert (stack chan pc bank : Nat) : Statement (.activationAlert stack chan pc bank) := fun _ => trivial
theorem channelRetrain (stack chan pc lane : Nat) (cleared : Bool) : Statement (.channelRetrain stack chan pc lane cleared) := fun _ => trivial
theorem bandwidthBoundary : Statement .bandwidthBoundary := fun _ => trivial
theorem budgetWrite (v : Word) : Statement (.budgetWrite v) := fun _ => trivial
theorem shareWrite (i : Nat) (v : Word) : Statement (.shareWrite i v) := fun _ => trivial
theorem scrubCtx (launch : Nat) : Statement (.scrubCtx launch) := fun _ => trivial
theorem scrubPages (vf : Nat) (base : Word) (size : Nat) : Statement (.scrubPages vf base size) := fun _ => trivial
theorem health : Statement .health := fun _ => trivial
theorem debugNonce : Statement .debugNonce := fun _ => trivial
theorem debugUnlock (record : List Byte) : Statement (.debugUnlock record) := fun _ => trivial
theorem fabric (peer : Nat) (msg : List Byte) : Statement (.fabric peer msg) := fun _ => trivial
theorem ready : Statement .ready := fun _ => trivial
theorem fwUpdate (tack : Bool) (version : Nat) (image : List Byte) : Statement (.fwUpdate tack version image) := fun _ => trivial
theorem shedClear : Statement .shedClear := fun _ => trivial
theorem hostmeta (base size : Nat) : Statement (.hostmeta base size) := fun _ => trivial
theorem vfAssign (vf part : Nat) : Statement (.vfAssign vf part) := fun _ => trivial
theorem unbind (vf : Nat) : Statement (.unbind vf) := fun _ => trivial
theorem rngRetest : Statement .rngRetest := fun _ => trivial
theorem rngReseed : Statement .rngReseed := fun _ => trivial
theorem getVersion (fn : Nat) : Statement (.getVersion fn) := fun _ => trivial
theorem getCapabilities (fn : Nat) : Statement (.getCapabilities fn) := fun _ => trivial
theorem negotiateAlgorithms (fn : Nat) (offered : Bool) : Statement (.negotiateAlgorithms fn offered) := fun _ => trivial
theorem getDigests (fn : Nat) : Statement (.getDigests fn) := fun _ => trivial
theorem getCertificate (fn slot : Nat) : Statement (.getCertificate fn slot) := fun _ => trivial
theorem challenge (fn slot : Nat) (nonce : List Byte) : Statement (.challenge fn slot nonce) := fun _ => trivial
theorem getMeasurements (fn index : Nat) (nonce : List Byte) : Statement (.getMeasurements fn index nonce) := fun _ => trivial
theorem keyExchange (fn : Nat) (share : List Byte) : Statement (.keyExchange fn share) := fun _ => trivial
theorem finish (fn : Nat) (mac : List Byte) : Statement (.finish fn mac) := fun _ => trivial
theorem keyUpdate (fn : Nat) : Statement (.keyUpdate fn) := fun _ => trivial
theorem heartbeat (fn : Nat) : Statement (.heartbeat fn) := fun _ => trivial
theorem endSession (fn : Nat) : Statement (.endSession fn) := fun _ => trivial
theorem peerAllow (vf : Nat) (digest : List Byte) : Statement (.peerAllow vf digest) := fun _ => trivial
theorem lockInterface (vf : Nat) : Statement (.lockInterface vf) := fun _ => trivial
theorem startInterface (vf : Nat) : Statement (.startInterface vf) := fun _ => trivial
theorem stopInterface (vf : Nat) : Statement (.stopInterface vf) := fun _ => trivial
theorem getDeviceInterfaceReport (vf : Nat) : Statement (.getDeviceInterfaceReport vf) := fun _ => trivial
theorem getDeviceInterfaceState (vf : Nat) : Statement (.getDeviceInterfaceState vf) := fun _ => trivial
theorem getTdispVersion (vf : Nat) : Statement (.getTdispVersion vf) := fun _ => trivial
theorem getTdispCapabilities (vf : Nat) : Statement (.getTdispCapabilities vf) := fun _ => trivial
theorem hs1 (peer : Nat) (msg : List Byte) : Statement (.hs1 peer msg) := fun _ => trivial
theorem hs2 (peer : Nat) (msg : List Byte) : Statement (.hs2 peer msg) := fun _ => trivial
theorem hs3 (peer : Nat) (msg : List Byte) : Statement (.hs3 peer msg) := fun _ => trivial
theorem handshakeRetry (peer : Nat) : Statement (.handshakeRetry peer) := fun _ => trivial
theorem fabricRekey (peer : Nat) : Statement (.fabricRekey peer) := fun _ => trivial
theorem dieLinkRekey (a b dir : Nat) (slot : Option Nat) : Statement (.dieLinkRekey a b dir slot) := fun _ => trivial
theorem flitRetry (a b dir : Nat) (tagOk : Bool) : Statement (.flitRetry a b dir tagOk) := fun _ => trivial
theorem packageReset : Statement .packageReset := fun _ => trivial
theorem bootStage0 (tackSig : Bool) (version : Nat) : Statement (.bootStage0 tackSig version) := fun _ => trivial
theorem bootStage1 (rngOk yardOk : Bool) : Statement (.bootStage1 rngOk yardOk) := fun _ => trivial
theorem bootStage2 (dies hbm : List Nat) : Statement (.bootStage2 dies hbm) := fun _ => trivial
theorem bootStage3 (passed : List Nat) : Statement (.bootStage3 passed) := fun _ => trivial
theorem bootStage4 (linkUp : Bool) : Statement (.bootStage4 linkUp) := fun _ => trivial
theorem bootStage5 (pod package : Nat) : Statement (.bootStage5 pod package) := fun _ => trivial
theorem bootStageTimeout : Statement .bootStageTimeout := fun _ => trivial
theorem startRestart : Statement .startRestart := fun _ => trivial
theorem railFault : Statement .railFault := fun _ => trivial
theorem thermalTrip : Statement .thermalTrip := fun _ => trivial
theorem powerLimitThrottle (power : Nat) : Statement (.powerLimitThrottle power) := fun _ => trivial
theorem functionLevelReset (vf : Nat) : Statement (.functionLevelReset vf) := fun _ => trivial
theorem ucieLaneRepair (a b module lane : Nat) (ok : Bool) : Statement (.ucieLaneRepair a b module lane ok) := fun _ => trivial
theorem ucieLinkLoss (a b : Nat) : Statement (.ucieLinkLoss a b) := fun _ => trivial
theorem pcieLinkDown : Statement .pcieLinkDown := fun _ => trivial
theorem pcieLinkUp (width : Nat) : Statement (.pcieLinkUp width) := fun _ => trivial
theorem cxlDeviceLoss : Statement .cxlDeviceLoss := fun _ => trivial
theorem ualinkPortTrain (port peer lanes : Nat) : Statement (.ualinkPortTrain port peer lanes) := fun _ => trivial
theorem ualinkPortLoss (port : Nat) : Statement (.ualinkPortLoss port) := fun _ => trivial
theorem podTimeCorrection (t : Nat) : Statement (.podTimeCorrection t) := fun _ => trivial
theorem registerWrite (reg : HostReg) (v : Word) : Statement (.registerWrite reg v) := fun _ => trivial
theorem tagFailure (queue seq : Nat) : Statement (.tagFailure queue seq) := fun _ => trivial
theorem scrubComplete (target : Nat) : Statement (.scrubComplete target) := fun _ => trivial
theorem ideIntegrityFailure (vf : Nat) : Statement (.ideIntegrityFailure vf) := fun _ => trivial
theorem unsupportedRequest (vf msg : Nat) : Statement (.unsupportedRequest vf msg) := fun _ => trivial
theorem ualinkLaneLoss (port lanes : Nat) : Statement (.ualinkLaneLoss port lanes) := fun _ => trivial

end Sys2Proof.Laws.RoundTrip

namespace Sys2Proof.Laws

open Sys2Proof

theorem RoundTrip.seal (rd rs1 : Fin 32) : RoundTrip.Statement (.seal rd rs1) := by
  intro hf
  have u0 := rd.isLt
  have u1 := rs1.isLt
  have key : ∀ m w, m < 2 → w = 20601 + 2 * m + rd.val * 2 ^ 7 + rs1.val * 2 ^ 15 → decodeS w = some (.seal rd rs1) := by
    intro m w hm hw
    have d0 : bits w 0 1 = 1 := by simp only [bits]; omega
    have d1 : bits w 2 5 = 30 := by simp only [bits]; omega
    have d2 : bits w 12 3 = 5 := by simp only [bits]; omega
    have b0 : bits w 7 5 = rd.val := by rw [show bits w 7 5 = w / 2 ^ 7 % 2 ^ 5 from rfl]; omega
    have b1 : bits w 15 5 = rs1.val := by rw [show bits w 15 5 = w / 2 ^ 15 % 2 ^ 5 from rfl]; omega
    have b2 : bits w 20 12 = 0 := by rw [show bits w 20 12 = w / 2 ^ 20 % 2 ^ 12 from rfl]; omega
    simp [decodeS, d0, d1, d2, decodeCustom3, reg_of b0, reg_of b1, b2]
  exact RoundTrip.ofS rfl rfl (by omega) (key 0 _ (by omega) (by omega)) (key 1 _ (by omega) (by omega)) hf
theorem RoundTrip.unseal (rd rs1 : Fin 32) : RoundTrip.Statement (.unseal rd rs1) := by
  intro hf
  have u0 := rd.isLt
  have u1 := rs1.isLt
  have key : ∀ m w, m < 2 → w = 24697 + 2 * m + rd.val * 2 ^ 7 + rs1.val * 2 ^ 15 → decodeS w = some (.unseal rd rs1) := by
    intro m w hm hw
    have d0 : bits w 0 1 = 1 := by simp only [bits]; omega
    have d1 : bits w 2 5 = 30 := by simp only [bits]; omega
    have d2 : bits w 12 3 = 6 := by simp only [bits]; omega
    have b0 : bits w 7 5 = rd.val := by rw [show bits w 7 5 = w / 2 ^ 7 % 2 ^ 5 from rfl]; omega
    have b1 : bits w 15 5 = rs1.val := by rw [show bits w 15 5 = w / 2 ^ 15 % 2 ^ 5 from rfl]; omega
    have b2 : bits w 20 12 = 0 := by rw [show bits w 20 12 = w / 2 ^ 20 % 2 ^ 12 from rfl]; omega
    simp [decodeS, d0, d1, d2, decodeCustom3, reg_of b0, reg_of b1, b2]
  exact RoundTrip.ofS rfl rfl (by omega) (key 0 _ (by omega) (by omega)) (key 1 _ (by omega) (by omega)) hf

end Sys2Proof.Laws
end

