-- ==== Sys2Proof/Safety.lean ====
section
/-! DEFINITION. What counts as a sound state and a safe run, and the conditions under which statements speak of an operation: that
nothing keeps it from issuing. -/

namespace Sys2Proof.Machine

open Sys2Proof

/-- No bundle's issue cycle is open: so the machine stands between steps. -/
def State.closed (s : State) : Bool := s.cyc.isNone

/-- Memory has its canonical form. -/
def State.memOk (s : State) : Bool := Memory.wf s.mem

/-- A run of n steps that stops nowhere. -/
def safeRun : Nat → State → Prop
  | 0, _ => True
  | n + 1, s => match step s with
    | .next t => safeRun n t
    | _ => False

/-- Nothing keeps a scalar operation of a class from issuing: its sources and its destination are full (R50, R51), and a record for
its result is to be had (R144). -/
def canIssueX (rd : Fin 32) (srcs : List (Fin 32)) (cls : Nat) (s : State) : Prop :=
  (∀ r ∈ srcs, xEmpty s r = false) ∧ xEmpty s rd = false ∧ xRecordsFull s rd (lat s cls) = false

/-- The same for a variable producer, whose result is recorded whatever its class (R50, R144). -/
def canIssueVar (rd : Fin 32) (srcs : List (Fin 32)) (s : State) : Prop :=
  (∀ r ∈ srcs, xEmpty s r = false) ∧ xEmpty s rd = false ∧ xRecordsFull s rd 2 = false

/-- A result of the divide group in flight (R50, R116): it is in its destination n wall cycles after issue at the earliest, and the
divider is occupied until then; one free latency has been drawn. -/
def postDivide (rd : Fin 32) (w : Word) (n : Nat) (s : State) : State :=
  push { Flight.start s .s (xDest rd) (.x w) (lat s 2) with
    variable' := true
    due := s.pipe.wall + n
    shadow := if shadowed s then some w else none } { s with draws := s.draws + 1, pipe := { s.pipe with busyDiv := s.pipe.wall + n } }

/-- A quiet core at program level: no bundle is open, no result is in flight, no rerun is on. -/
def quiet (s : State) : Bool :=
  s.cyc.isNone && s.pipe.flight.isEmpty && s.rcv.rerun.isNone && s.seq.level == .program && s.seq.run == .running

/-- What a CSR instruction that writes w leaves: the old value on its way to rd and the new one to the CSR, or the trap that the value
raises (R119). -/
def csrWritten (i : Instr) (rd : Fin 32) (n : BitVec 12) (old w : Word) (s : State) : State :=
  if w &&& csrReserved n.toNat ≠ 0 then record .s (fun _ => .trap (trapOp .s (wordOfInstr s i))) s
  else if n = 0x800 ∧ shapeOk (w.setWidth 20) = false then record .s (fun _ => .trap (trapWord cIllegalShape .s w.toNat)) s
  else postCsr n w (postX .s rd old 0 s)

/-- The writes of a counter that are not yet performed at a scope (R170, R173). -/
def unperformed (sc : Scope) (c : Counts) : BitVec 16 := match sc with | .pkg => c.wk | .pod => c.wo | _ => c.wd

/-- A variable producer of slot S in flight whose value another event brings (R50). -/
def awaitedBy (rd : Fin 32) (k : Await) (s : State) : State :=
  push { Flight.start s .s (xDest rd) (.awaited k) 1 with variable' := true } s

/-- A variable producer of slot S in flight whose value arrives n wall cycles after issue, a free number (R50, assumption 4). -/
def arrivesIn (rd : Fin 32) (w : Word) (n : Nat) (s : State) : State :=
  push { Flight.start { s with draws := s.draws + 1 } .s (xDest rd) (.x w) 1 with variable' := true, due := s.pipe.wall + n }
    { s with draws := s.draws + 1 }

/-- An operation that ends its phase with an effect of its own, the last of the commit (R125). -/
def endsWith (e : Effect) (s : State) : State := addLast e (setCommit .commit s)

/-- The open bundle stalls: no slot of it acts in this cycle (R51). -/
def stalls (s : State) : State := updCyc (fun c => { c with stalled := true }) s

/-- A NEXTITEM's commit: the item slot that the core holds is released as its last effect (R130). -/
def itemReleased (s : State) : State :=
  match s.seq.item with
  | some i => endsWith (.release i.launch i.queue i.slot i.addr) s
  | none => setCommit .commit s

/-- A trust operation that ends its phase as the last effect of its commit, its status awaited where it has a destination (R380). -/
def trustPosted (op : TrustOp) (rd : Fin 32) (block base size aux : Nat) (keys : List Nat) (s : State) : State :=
  let e := Effect.trust op (BitVec.ofNat 64 block) (BitVec.ofNat 64 base) (BitVec.ofNat 64 size) (BitVec.ofNat 64 aux) keys
  if rd = 0 then endsWith (e none) s else endsWith (e (some s.nextId)) (awaitedBy rd .trust s)

/-- A slot's trap in the open bundle. -/
def traps (sl : Slot) (t : Trap) (s : State) : State := record sl (fun _ => .trap t) s

/-- Nothing keeps a vector or function operation from issuing (R51, R144, R184, R187): its engine is free, its destination and its
sources are full, its queue is q0 or q1 and holds an entry, and a record for its result is to be had. A duplicate takes no entry and
no record of its own (R203). -/
def canIssueV (sl : Slot) (dest : Dest) (srcs : List Dest) (q : Option (Fin 4)) (dup : Bool) (latency : Nat) (s : State) : Prop :=
  s.cyc.isSome = true ∧ busyOf s sl ≤ s.pipe.wall ∧ isEmpty s dest = false ∧ (∀ d ∈ srcs, isEmpty s d = false)
    ∧ (∀ n, q = some n → n.val < 2 ∧ (dup = false → readQ s n ≠ []))
    ∧ (dup = true ∨ dest.recorded = false ∨ recordsFull s latency = false)

/-- The sources of a word with two vector operands, one of them possibly a queue, and a predicate. -/
def srcs3 (vs1 vs2 : Fin 32) (q : Bool) (pg : Option (Fin 48)) : List Dest :=
  .v vs1 :: (if q then [] else [.v vs2]) ++ pg.toList.map .p

/-- The queue that a word names as its second operand (R184). -/
def queueNo (q : Bool) (vs2 : Fin 32) : Option (Fin 4) := if q then some (Fin.ofNat 4 vs2.val) else none

/-- The bytes of the second operand: the register's, the queue's oldest entry's, or for a duplicate those that V0 took. -/
def secondOperand (s : State) (q dup : Bool) (vs2 : Fin 32) : Nat :=
  if !q then (readV s vs2).toNat
  else if dup then ((s.cyc.bind (·.popped)).getD ⟨0, 0⟩).bytes.toNat
  else ((readQ s (Fin.ofNat 4 vs2.val)).headD ⟨0, 0⟩).bytes.toNat

/-- The latency of a class, with class 14's where an operand comes from a queue (R50, R186). -/
def latQ (s : State) (cls : Nat) (q : Bool) : Nat := lat s cls + (if q then lat s 14 else 0)

/-- A vector or function operation issues (R48, R186, R205): its result, its flags with it, is in flight for its latency, a variable
producer where an operand comes from a queue; its engine is occupied; the queue loses its oldest entry; every register, every other
flag, memory and the way out are as before. -/
def starts (i : Instr) (sl : Slot) (dest : Dest) (v : FVal) (fl : BitVec 7) (q : Option (Fin 4)) (l occ : Nat) (s : State) : Prop :=
  ∃ t f, exec i s = .next t ∧ t.pipe.flight = s.pipe.flight ++ [f] ∧ f.dest = dest ∧ f.val = v ∧ f.vfl = fl ∧ f.mfl = 0
    ∧ f.rem = l - 1 ∧ f.variable' = q.isSome ∧ f.late = false ∧ f.dup = none ∧ busyOf t sl = s.pipe.wall + occ
    ∧ (∀ n, readQ t n = if q = some n then (readQ s n).tail else readQ s n)
    ∧ t.regs.v = s.regs.v ∧ t.regs.p = s.regs.p ∧ t.regs.h = s.regs.h ∧ t.regs.k = s.regs.k ∧ t.regs.pat = s.regs.pat
    ∧ t.seq = s.seq ∧ t.mem = s.mem ∧ t.out = s.out ∧ t.mat = s.mat ∧ t.cpy = s.cpy

/-- A vector operation in either form (R43, R203): it starts, or as V1's duplicate leaves its result with that of V0's word. -/
def computes (i : Instr) (e : VEng) (dup : Bool) (dest : Dest) (q : Option (Fin 4)) (l occ : Nat) (r : VReg × BitVec 7) (s : State) : Prop :=
  (dup = false → starts i (vslot e) dest (.v r.1) r.2 q l occ s)
  ∧ (dup = true → ∀ c id, s.cyc = some c → c.v0 = some id →
    exec i s = .next (updFlight id (fun f => { f with dup := some r }) (occupy (vslot e) occ s)))

/-- Elements by R188 and R183: g where the predicate is 1, elsewhere 0 or the old element, zero beyond the shape; and the flags of the
active ones. -/
def vecResult (s : State) (pg : Option (Fin 48)) (zm : Bool) (vd : Fin 32) (g : Nat → Nat × BitVec 7) : VReg × BitVec 7 :=
  let b := shapeB s.seq.vshape
  let n := shapeN s.seq.vshape
  (regOf b ((List.range n).map (fun i => if activeAt s pg i then (g i).1 else if zm then 0 else elem (readV s vd).toNat b i)),
    ((List.range n).filter (activeAt s pg)).foldl (fun a i => a ||| (g i).2) 0)

/-- The wall cycles that an engine of so many bytes a cycle is occupied by the shape (R185, R208). -/
def occOf (s : State) (per : Nat) : Nat := ceilDiv (shapeN s.seq.vshape * shapeB s.seq.vshape) per

/-- An integer clamped to the codes of w bits, signed or natural, with SAT where the clamp acts (R189). -/
def saturate (w : Nat) (sg : Bool) (i : Int) : Nat × BitVec 7 :=
  let lo : Int := if sg then -(2 ^ (w - 1) : Nat) else 0
  let hi : Int := if sg then (2 ^ (w - 1) : Nat) - 1 else (2 ^ w : Nat) - 1
  if i < lo then (wrapNat w lo, fSat) else if hi < i then (wrapNat w hi, fSat) else (wrapNat w i, 0)

/-- A row's new record (R213): its elements folded one by one, or with none active the old record, or 0 in zeroing mode. -/
def welfordRow (x i : Nat) (es : List Nat) (zm : Bool) : Nat × BitVec 7 :=
  if es = [] then (if zm then 0 else welfordWord (welfordAt x i), 0)
  else
    let r := es.foldl welfordStep (welfordAt x i, 0)
    (welfordWord r.1, r.2)

/-- The core's turn of a wall cycle, in which it takes a unit: no input of the environment is due before it, no bundle is open, and nothing goes
before its next unit (R51, R142, R148). -/
def coreTurn (s : State) : Prop :=
  (∀ e ∈ s.agenda.head?, s.pipe.wall < e.1 ∨ afterCore e.2 s = true) ∧ s.links.clocks = true ∧ s.pipe.done = false ∧ s.cyc = none ∧ beforeIssue s = none

/-- The canonical form of memory, and of the scratchpad that each checkpoint keeps. -/
def memoryInv (s : State) : Bool := Memory.wf s.mem && s.rcv.ckpts.all (fun c => Memory.wf c.spad)

/-- A program that runs, with one result in flight and nothing else that its landing meets. -/
def oneFlight (s : State) (f : Flight) : Prop :=
  s.seq.level = .program ∧ s.seq.run = .running ∧ s.pipe.flight = [f] ∧ f.late = false ∧ f.sys = false ∧ f.dup = none ∧ f.shadow = none

/-- A record of the copy engine is posted into the event queue: it has room, and no EVPOP waits (R271). -/
def recordRoom (s : State) : Prop := (∀ f ∈ s.pipe.flight, f.val ≠ .awaited .evpop) ∧ s.cpy.events.length < 32

/-- What a collective brings to a core is written piece by piece (R277). -/
def receiveAll (commit : Nat) (l : List (Nat × List Byte)) (s : State) : Engine (Option State) :=
  l.foldl (fun (r : Engine (Option State)) e => match r with
    | .ok (some t) => receive commit (e.2.length / 64 + 2) e.1 e.2 t
    | r => r) (.ok (some s))

/-- A program that runs on a core that saves nothing, and no other fault of this cycle to be put in order with: a deferred fault of it is
taken at once (R142). -/
def takesFaults (s : State) : Prop := s.seq.level = .program ∧ s.seq.run = .running ∧ s.pipe.found = none

/-- A deferred trap taken at program level (R141, R142): its cause with the deferred bit, its `tval`, the unit that would have
issued next in `tpc`, the handler's address. -/
def deferredTaken (code : BitVec 8) (tval : Word) (s t : State) : Prop :=
  t.seq.level = .system ∧ t.seq.tcause = BitVec.ofNat 9 (256 + code.toNat) ∧ t.seq.tval = tval.setWidth 60
    ∧ t.seq.tpc = BitVec.ofNat 21 (s.seq.reps % 32 * 2 ^ 16 + s.seq.pc % 2 ^ 16) ∧ t.seq.pc = s.seq.tvec.toNat * 32

/-- The state of a checkpoint is back (R297, R301): fetch resumes at its next unit with its registers, at program level; what the
discarded execution had put into the Paddock and the pending list is gone, and what had left the Paddock stays; `cycle` and
`instret` are not restored; memory outside the own scratchpad is as it was unless a snapshot's record is lost with its page's dirty
mark (R279), and the scratchpad is the checkpoint's where no other party wrote it since. -/
def returned (c : Ckpt) (s t : State) : Prop :=
  t.seq.pc = c.seq.pc ∧ t.seq.reps = c.seq.reps ∧ t.seq.level = .program ∧ t.seq.x = c.seq.x ∧ t.seq.loops = c.seq.loops
    ∧ t.seq.vshape = c.seq.vshape ∧ t.seq.vflags = c.seq.vflags ∧ t.seq.mflags = c.seq.mflags ∧ t.seq.phase = c.seq.phase
    ∧ t.seq.parity = c.seq.parity ∧ t.seq.latcon = c.seq.latcon ∧ t.seq.cycle = s.seq.cycle ∧ t.seq.instret = s.seq.instret
    ∧ t.regs = c.regs ∧ t.rcv.commits = c.commit
    ∧ t.out.paddock = s.out.paddock.filter (fun e => decide (e.entry.commit < c.commit))
    ∧ t.out.pending = s.out.pending.filter (fun e => decide (e.commit < c.commit)) ∧ t.out.leaving = s.out.leaving
    ∧ (Memory.wf s.mem = true → Memory.wf c.spad = true → lostPages c s = [] → ∀ k, 393216 ≤ k → memGet t.mem k = memGet s.mem k)
    ∧ (Memory.wf s.mem = true → Memory.wf c.spad = true → c.foreign = [] → ∀ k, k < 393216 → memGet t.mem k = memGet c.spad k)

/-- The launch that the core ran is killed, with its cause and the core (R338). -/
def launchKilled (cause : Nat) (l : Launch) (s t : State) : Prop :=
  t.seq.ctx = none ∧ ∃ k, launchAt t l.id = some k ∧ k.state = .killed ∧ k.killInfo = some (cause, pkgIndex s, 0, 0)

/-- A record of the error log (R310) with its kind, place and what the return to a checkpoint undid. -/
def logged (kind place : Nat) (c : Ckpt) (s t : State) : Prop :=
  ∃ e, t.rcv.errlog = s.rcv.errlog ++ [e] ∧ e.kind = BitVec.ofNat 8 kind ∧ e.place = BitVec.ofNat 8 place
    ∧ e.commits = s.rcv.commits - c.commit ∧ e.entries = discarded c s ∧ e.phase = c.seq.phase ∧ e.cycle = s.seq.cycle

/-- A record for a function's event ring (R320, R399, R411): while the host link is down it waits; an enabled ring with room gets its
32 bytes at the tail, the tail and vector 0 go on by one; else it is counted as lost. -/
def told (vf : Nat) (r : EvRec) (s t : State) : Prop :=
  (s.links.pcie = false → t.hub.posts = s.hub.posts ++ [(vf, r)])
  ∧ ∀ v, s.links.pcie = true → vfAt s vf = some v → ∃ w, vfAt t vf = some w
    ∧ (flag v.ringCtl.toNat 8 = true → (v.ringTail - v.ringHead).toNat < ringCount v → w.ringTail = v.ringTail + 1 ∧ w.msix = v.msix + 1
        ∧ t.mem = memPutN s.mem (tierKey 2 (v.ringBase.toNat + 32 * (v.ringTail.toNat % ringCount v))) (evBytes r))
    ∧ (flag v.ringCtl.toNat 8 = false ∨ ringCount v ≤ (v.ringTail - v.ringHead).toNat → w.ringLost = satAdd64 v.ringLost 1 ∧ w.ringTail = v.ringTail
        ∧ t.mem = s.mem)

/-- What runs on the core is as it was. -/
def coreKept (s t : State) : Prop := t.seq = s.seq ∧ t.regs = s.regs ∧ t.pipe = s.pipe ∧ t.out = s.out ∧ t.mat = s.mat ∧ t.cpy = s.cpy ∧ t.rcv = s.rcv

/-- A function's progress counter at a virtual address is raised at its home, at 2^64 − 1 it stays (R104, R317); on a page that migrates
the increment waits (R351). -/
def counterRaised (v : Vf) (a addend : Word) (s t : State) : Prop :=
  ∀ x, walkVf v s a.toNat = .ok x → tierBase ≤ globalKey [x] a.toNat →
  (ptFrozen x.w0.toNat = true → t.mem = s.mem ∧ ⟨v.vf, a.toNat, [], some addend.toNat, none⟩ ∈ t.sys.stalled)
  ∧ ∀ u, ptFrozen x.w0.toNat = false →
    recordLines (v.slot.getD 0) (ptLpid x.w1.toNat, (a.toNat - x.va) / 4096) (globalKey [x] a.toNat) 8 (markDirty x s) = some u →
    t.mem = memPutN u.mem (globalKey [x] a.toNat) (leBytes 8 (min (leNat (readHome (globalKey [x] a.toNat) 8 s) + addend.toNat) (2 ^ 64 - 1)))

/-- A core after a kill (R109, R110): it holds no context, its registers, engines, queues and scratchpad are clear, nothing of it is in
the Paddock or waits to leave. -/
def coreCleared (s t : State) : Prop :=
  t.seq = bareSeq s ∧ t.regs = Regs.afterReset ∧ t.mat = Mat.afterReset ∧ t.cpy = Cpy.afterReset ∧ t.pipe.flight = [] ∧ t.out.heldBack = []
    ∧ t.out.pending = [] ∧ t.out.port = [] ∧ t.out.paddock = [] ∧ t.out.cnt = Vector.replicate 80 ⟨0, 0, 0, 0⟩ ∧ t.rcv.ckpts = [] ∧ t.rcv.rerun = none
    ∧ t.dict = Vector.replicate 512 0x13 ∧ (Memory.wf s.mem = true → ∀ k, k < 393216 → memGet t.mem k = 0)

/-- The device answers one request and nothing else moves on the core or in memory (R365, R389, R391): `dest` is 0 for Yard, function + 1 for
a host, 2,000 and its index for a peer package. -/
def replied (dest : Nat) (kind : String) (status : Nat) (data : List Byte) (s t : State) : Prop :=
  t.trust.replies = s.trust.replies ++ [⟨dest, kind, status, data⟩] ∧ coreKept s t ∧ t.mem = s.mem

/-- The generator answers the next request (R368, R369): it is not in FAULT, no retest runs, and every sample passed. -/
def rngHealthy (s : State) : Prop := s.trust.fault = false ∧ s.trust.retesting = false ∧ s.trust.health.tripped = false

/-- A key slot that was EMPTY is LIVE for a function under a drawn secret, or, when the draw failed or none was EMPTY, the function has
none (R367, R368). -/
def bound (vf : Nat) (s t : State) : Prop :=
  ∃ w, vfAt t vf = some w ∧ (w.slot = none ∨ ∃ n k, w.slot = some n ∧ n < 4096 ∧ (keySlot s n).state = .empty
    ∧ keySlot t n = ⟨n, .live, k, List.replicate 32 0, false, 0, BitVec.ofNat 16 vf⟩)

/-- A function's work is over (R367): its launches that had not completed are killed or gone, its key slot is REVOKED and every block
under it is in the zero state. -/
def revoked (vf : Nat) (v : Vf) (s t : State) : Prop :=
  (∀ l, launchAt s l.id = some l → l.vf = vf → killable l = true → ∃ k, launchAt t l.id = some k ∧ (k.state = .killed ∨ k.state = .gone))
  ∧ ∀ n, v.slot = some n → (keySlot t n).state = .revoked ∧ ∀ r ∈ t.sys.recs, r.slot = n → r.zero = true

/-- A start has failed (R404, R405): the reason leads the record, the package is held in reset from now on, in stage 0, its cores
without a context; the count, host memory and the flash stay. -/
def startFailed (reason : Byte) (count : Nat) (s t : State) : Prop :=
  t.links.reasons = reason :: s.links.reasons.take 2 ∧ t.links.holding = some s.pipe.ref ∧ t.links.count = count ∧ t.links.stage = 0
    ∧ t.links.shed = false ∧ t.links.readyDone = false ∧ t.seq = Seq.afterReset ∧ t.regs = Regs.afterReset ∧ t.trust.slots = []
    ∧ t.trust.flash = s.trust.flash ∧ t.hub.vfs = [] ∧ (Memory.wf s.mem = true → ∀ k, memGet t.mem k = if tierKey 2 0 ≤ k then memGet s.mem k else 0)

end Sys2Proof.Machine
end

