-- ==== Sys2Proof/Certificates/Slice0/Obligations.lean ====
section
/-! DEFINITION. The statements for the provers. Most results are stated in an open bundle, `s.cyc` being some issue cycle: there
`exec` does its slot's part, and the statements on bundles and steps (`Obligations.step_…`, `Obligations.bundle_…`) say how the
parts come together. `postX`, `push` and `Flight.start` put a result in flight; the statements on landing say when it arrives. -/

open Sys2Proof Sys2Proof.Machine

/-! ### Scalar arithmetic (R116) -/

/-- R116 (LUI to ANDI, ADDIW and the immediate shifts): each result, in its class, at x[rd]; nothing else changes. AUIPC adds to the
unit's address, in a Ubrov set to the record's index (R29). R116 (the OP and OP-32 spaces but the divide group): each result, in class 0, or 1 for a product, at x[rd]; a shift takes six
bits of its amount, a W shift five; nothing else changes. The divide group (R116, R50), while the divider is free: the result is posted as a variable producer that arrives 8 to 66 wall cycles after issue; division
by zero gives all ones or the dividend, and −2^63 ÷ −1 gives −2^63 with remainder 0. -/
def Obligations.integer_operations_complete : Prop :=
  (∀ s : State, s.cyc.isSome = true →
    (∀ (rd : Fin 32) (imm : BitVec 20), canIssueX rd [] 0 s →
      exec (.lui rd imm) s = .next (postX .s rd (BitVec.ofInt 64 (imm.toInt * 4096)) 0 s)
      ∧ ∀ c, s.cyc = some c →
        exec (.auipc rd imm) s = .next (postX .s rd (linkOf s c.pc + BitVec.ofInt 64 (imm.toInt * 4096)) 0 s))
    ∧ (∀ o : IType, canIssueX o.rd [o.rs1] 0 s →
      exec (.addi o) s = .next (postX .s o.rd (readX s o.rs1 + o.imm.signExtend 64) 0 s)
      ∧ exec (.slti o) s = .next (postX .s o.rd (if (readX s o.rs1).toInt < o.imm.toInt then 1 else 0) 0 s)
      ∧ exec (.sltiu o) s = .next (postX .s o.rd (if (readX s o.rs1).toNat < (o.imm.signExtend 64).toNat then 1 else 0) 0 s)
      ∧ exec (.xori o) s = .next (postX .s o.rd (readX s o.rs1 ^^^ o.imm.signExtend 64) 0 s)
      ∧ exec (.ori o) s = .next (postX .s o.rd (readX s o.rs1 ||| o.imm.signExtend 64) 0 s)
      ∧ exec (.andi o) s = .next (postX .s o.rd (readX s o.rs1 &&& o.imm.signExtend 64) 0 s)
      ∧ exec (.addiw o) s = .next (postX .s o.rd (((readX s o.rs1).setWidth 32 + o.imm.signExtend 32).signExtend 64) 0 s))
    ∧ (∀ o : ShType, canIssueX o.rd [o.rs1] 0 s →
      exec (.slli o) s = .next (postX .s o.rd (readX s o.rs1 <<< o.sh.val) 0 s)
      ∧ exec (.srli o) s = .next (postX .s o.rd (readX s o.rs1 >>> o.sh.val) 0 s)
      ∧ exec (.srai o) s = .next (postX .s o.rd ((readX s o.rs1).sshiftRight o.sh.val) 0 s)
      ∧ (o.sh.val < 32 →
        exec (.slliw o) s = .next (postX .s o.rd (((readX s o.rs1).setWidth 32 <<< o.sh.val).signExtend 64) 0 s)
        ∧ exec (.srliw o) s = .next (postX .s o.rd (((readX s o.rs1).setWidth 32 >>> o.sh.val).signExtend 64) 0 s)
        ∧ exec (.sraiw o) s = .next (postX .s o.rd ((((readX s o.rs1).setWidth 32).sshiftRight o.sh.val).signExtend 64) 0 s))))
  ∧ (∀ (s : State) (o : RType), s.cyc.isSome = true → ∀ a b : Word, a = readX s o.rs1 → b = readX s o.rs2 →
    (canIssueX o.rd [o.rs1, o.rs2] 0 s →
      exec (.add o) s = .next (postX .s o.rd (a + b) 0 s)
      ∧ exec (.sub o) s = .next (postX .s o.rd (a - b) 0 s)
      ∧ exec (.sll o) s = .next (postX .s o.rd (a <<< (b.toNat % 64)) 0 s)
      ∧ exec (.slt o) s = .next (postX .s o.rd (if a.toInt < b.toInt then 1 else 0) 0 s)
      ∧ exec (.sltu o) s = .next (postX .s o.rd (if a.toNat < b.toNat then 1 else 0) 0 s)
      ∧ exec (.xor o) s = .next (postX .s o.rd (a ^^^ b) 0 s)
      ∧ exec (.srl o) s = .next (postX .s o.rd (a >>> (b.toNat % 64)) 0 s)
      ∧ exec (.sra o) s = .next (postX .s o.rd (a.sshiftRight (b.toNat % 64)) 0 s)
      ∧ exec (.or o) s = .next (postX .s o.rd (a ||| b) 0 s)
      ∧ exec (.and o) s = .next (postX .s o.rd (a &&& b) 0 s)
      ∧ exec (.addw o) s = .next (postX .s o.rd ((a.setWidth 32 + b.setWidth 32).signExtend 64) 0 s)
      ∧ exec (.subw o) s = .next (postX .s o.rd ((a.setWidth 32 - b.setWidth 32).signExtend 64) 0 s)
      ∧ exec (.sllw o) s = .next (postX .s o.rd ((a.setWidth 32 <<< (b.toNat % 32)).signExtend 64) 0 s)
      ∧ exec (.srlw o) s = .next (postX .s o.rd ((a.setWidth 32 >>> (b.toNat % 32)).signExtend 64) 0 s)
      ∧ exec (.sraw o) s = .next (postX .s o.rd (((a.setWidth 32).sshiftRight (b.toNat % 32)).signExtend 64) 0 s))
    ∧ (canIssueX o.rd [o.rs1, o.rs2] 1 s →
      exec (.mul o) s = .next (postX .s o.rd (BitVec.ofInt 64 (a.toInt * b.toInt)) 1 s)
      ∧ exec (.mulh o) s = .next (postX .s o.rd (BitVec.ofInt 64 (a.toInt * b.toInt / 2 ^ 64)) 1 s)
      ∧ exec (.mulhsu o) s = .next (postX .s o.rd (BitVec.ofInt 64 (a.toInt * b.toNat / 2 ^ 64)) 1 s)
      ∧ exec (.mulhu o) s = .next (postX .s o.rd (BitVec.ofInt 64 ((a.toNat : Int) * b.toNat / 2 ^ 64)) 1 s)
      ∧ exec (.mulw o) s = .next (postX .s o.rd ((a.setWidth 32 * b.setWidth 32).signExtend 64) 1 s)))
  ∧ (∀ (s : State) (o : RType), s.cyc.isSome = true → canIssueVar o.rd [o.rs1, o.rs2] s → s.pipe.busyDiv ≤ s.pipe.wall →
    ∀ a b : Word, a = readX s o.rs1 → b = readX s o.rs2 →
    ∃ n, 8 ≤ n ∧ n ≤ 66 ∧
      exec (.div o) s = .next (postDivide o.rd
        (if b = 0 then BitVec.allOnes 64 else if a = BitVec.intMin 64 ∧ b = BitVec.allOnes 64 then a
          else BitVec.ofInt 64 (a.toInt.tdiv b.toInt)) n s)
      ∧ exec (.divu o) s = .next (postDivide o.rd (if b = 0 then BitVec.allOnes 64 else BitVec.ofNat 64 (a.toNat / b.toNat)) n s)
      ∧ exec (.rem o) s = .next (postDivide o.rd (if b = 0 then a else BitVec.ofInt 64 (a.toInt.tmod b.toInt)) n s)
      ∧ exec (.remu o) s = .next (postDivide o.rd (if b = 0 then a else BitVec.ofNat 64 (a.toNat % b.toNat)) n s)
      ∧ ∀ c d : BitVec 32, c = a.setWidth 32 → d = b.setWidth 32 →
        exec (.divw o) s = .next (postDivide o.rd
          ((if d = 0 then BitVec.allOnes 32 else BitVec.ofInt 32 (c.toInt.tdiv d.toInt)).signExtend 64) n s)
        ∧ exec (.divuw o) s = .next (postDivide o.rd
          ((if d = 0 then BitVec.allOnes 32 else BitVec.ofNat 32 (c.toNat / d.toNat)).signExtend 64) n s)
        ∧ exec (.remw o) s = .next (postDivide o.rd ((if d = 0 then c else BitVec.ofInt 32 (c.toInt.tmod d.toInt)).signExtend 64) n s)
        ∧ exec (.remuw o) s = .next (postDivide o.rd ((if d = 0 then c else BitVec.ofNat 32 (c.toNat % d.toNat)).signExtend 64) n s))


/-! ### Transfers, traps, CSRs, loops, phases (R29, R118 to R125, R134, R135, R141, R145) -/

/-- R118, R29, R59: a jump links the next fetch address, or the next record's index, and transfers; a branch transfers where its
condition holds and does nothing where it fails; a target outside the code raises TRANSLATION and has no effect. In a Ubrov set JALR's
base counts records of two bytes. -/
def Obligations.transfers_complete : Prop :=
  ∀ (s : State) (c : Cycle), s.cyc = some c →
    (∀ (rd : Fin 32) (imm : BitVec 20), xEmpty s rd = false → xRecordsFull s rd (lat s 0) = false → ∀ t : Int, t = c.pc + 2 * imm.toInt →
      exec (.jal rd imm) s = .next (if 0 ≤ t ∧ t < codeEnd s then postX .s rd (linkOf s c.next) 0 (setTarget t.toNat s)
        else record .s (fun _ => .trap (trapAt cTranslation .s (wrapNat 57 t))) s))
    ∧ (∀ o : IType, xEmpty s o.rs1 = false → xEmpty s o.rd = false → xRecordsFull s o.rd (lat s 0) = false →
      ∀ (b : Word) (t : Nat), b = (if (records s).isSome then readX s o.rs1 <<< 1 else readX s o.rs1) → t = ((b + o.imm.signExtend 64) &&& ~~~1).toNat →
      exec (.jalr o) s = .next (if t < codeEnd s then postX .s o.rd (linkOf s c.next) 0 (setTarget t s)
        else record .s (fun _ => .trap (trapAt cTranslation .s t)) s))
    ∧ (∀ o : BType, xEmpty s o.rs1 = false → xEmpty s o.rs2 = false →
      ∀ a b : Word, a = readX s o.rs1 → b = readX s o.rs2 → ∀ taken : Bool → State,
      (∀ p, taken p = if p = false then s
        else if 0 ≤ (c.pc + 2 * o.imm.toInt : Int) ∧ (c.pc + 2 * o.imm.toInt : Int) < codeEnd s
          then setTarget (c.pc + 2 * o.imm.toInt).toNat s
          else record .s (fun _ => .trap (trapAt cTranslation .s (wrapNat 57 (c.pc + 2 * o.imm.toInt)))) s) →
      exec (.beq o) s = .next (taken (decide (a = b)))
      ∧ exec (.bne o) s = .next (taken (decide (a ≠ b)))
      ∧ exec (.blt o) s = .next (taken (decide (a.toInt < b.toInt)))
      ∧ exec (.bge o) s = .next (taken (decide (b.toInt ≤ a.toInt)))
      ∧ exec (.bltu o) s = .next (taken (decide (a.toNat < b.toNat)))
      ∧ exec (.bgeu o) s = .next (taken (decide (b.toNat ≤ a.toNat))))

/-- R118, R141: an environment call alone at program level, with nothing in flight, takes its trap after its bundle: `tcause` and `tpc`
are saved, the system bank is reset, the handler's level and address are entered, `tpc` being the next fetch address. R125, R134, R135, R145, R100: PCOMMIT and PSWAP mark the bundle's commit, END also the end of fetch, with the release of the held
item at program level; QFEAT gives the feature bit; TRET marks the return at system level; FENCE in slot S is `fence sc, die` on path L,
whatever its fields. A NOP does nothing. -/
def Obligations.environment_calls_phases_and_marks_complete : Prop :=
  (∀ (s : State), quiet s = true → s.rcv.forceDue = false → s.seq.token = none → s.seq.pc < 0xFFE0 → s.seq.loops = [] →
    ∀ (i : Instr) (code : BitVec 8), (i = .ecall ∧ code = 0x0E ∨ i = .ebreak ∧ code = 0x0F) →
    ∃ t, exec i s = .next t
      ∧ t.seq.level = .system ∧ t.seq.tcause = code.setWidth 9 ∧ t.seq.tval = 0
      ∧ t.seq.tpc = BitVec.ofNat 21 (s.seq.pc + if s.ubrov.isSome then 2 else 32) ∧ t.seq.pc = s.seq.tvec.toNat * 32
      ∧ t.seq.sx = Vector.replicate 32 0 ∧ t.seq.x = s.seq.x ∧ t.seq.run = s.seq.run
      ∧ t.seq.vshape = s.seq.vshape ∧ t.seq.vflags = s.seq.vflags ∧ t.seq.mflags = s.seq.mflags
      ∧ t.regs = s.regs ∧ t.mem = s.mem ∧ t.mat = s.mat ∧ t.cpy = s.cpy ∧ t.out = s.out ∧ t.rcv = s.rcv)
  ∧ (∀ (s : State) (c : Cycle), s.cyc = some c →
    exec .pcommit s = .next { s with cyc := some { c with commit := some .commit } }
    ∧ exec .pswap s = .next { s with cyc := some { c with commit := some .swap } }
    ∧ (atSystem s = false → s.seq.item = none → exec .endOp s = .next { s with cyc := some { c with commit := some .commit, ended := true } })
    ∧ (atSystem s = false → ∀ it, s.seq.item = some it → ∃ t d, exec .endOp s = .next t ∧ t.seq = { s.seq with item := none }
      ∧ t.cyc = some d ∧ d.commit = some .commit ∧ d.ended = true
      ∧ (d.last.map (·.body)) = c.last.map (·.body) ++ [.effect (.release it.launch it.queue it.slot it.addr)])
    ∧ (atSystem s = true → exec .endOp s = .next { s with cyc := some { c with ended := true } })
    ∧ (∀ rd n, canIssueX rd [] 0 s → exec (.qfeat rd n) s = .next (postX .s rd (if n.val < 17 then 1 else 0) 0 s))
    ∧ (atSystem s = true → exec .tret s = .next { s with cyc := some { c with tret := true } })
    ∧ (atSystem s = false → exec .tret s = .next (record .s (fun _ => .trap (trapOp .s (wordOfInstr s .tret))) s))
    ∧ (∀ f, (∀ h, (cntBefore s .l h).rd = 0 ∧ (cntBefore s .l h).wd = 0) → exec (.fenceS f) s = .next (acquire .die 1 0xFFFF s))
    ∧ (∀ sl, exec (.nop sl) s = .next s))

/-- R119: a CSR instruction at a level that has the CSR gives the CSR's value to rd; where it writes, the new value lands in the issue
cycle. A value with a reserved bit traps ILLEGAL_OP, a shape that cannot be held ILLEGAL_SHAPE; neither has an effect. R119, R136: which CSRs exist, and who may access them: at program level the flags and the shape are writable, the loop CSRs,
counters and identity CSRs readable, the system CSRs none; at system level the loop CSRs and `latcon` are writable too. -/
def Obligations.csr_operations_complete : Prop :=
  (∀ (s : State) (rd : Fin 32) (n : BitVec 12), s.cyc.isSome = true → xEmpty s rd = false → xRecordsFull s rd (lat s 0) = false →
    ∀ old : Word, old = csrRead s n.toNat →
    (∀ r, csrIllegal n.toNat (decide (r ≠ 0)) (atSystem s) = false → xEmpty s r = false →
      (r = 0 → exec (.csrrs rd r n) s = .next (postX .s rd old 0 s) ∧ exec (.csrrc rd r n) s = .next (postX .s rd old 0 s))
      ∧ (r ≠ 0 →
        exec (.csrrs rd r n) s = .next (csrWritten (.csrrs rd r n) rd n old (old ||| readX s r) s)
        ∧ exec (.csrrc rd r n) s = .next (csrWritten (.csrrc rd r n) rd n old (old &&& ~~~readX s r) s)))
    ∧ (∀ r, csrIllegal n.toNat true (atSystem s) = false → xEmpty s r = false →
      exec (.csrrw rd r n) s = .next (csrWritten (.csrrw rd r n) rd n old (readX s r) s))
    ∧ (∀ u : Fin 32, csrIllegal n.toNat true (atSystem s) = false →
      exec (.csrrwi rd u n) s = .next (csrWritten (.csrrwi rd u n) rd n old (BitVec.ofNat 64 u.val) s))
    ∧ (∀ u : Fin 32, csrIllegal n.toNat (decide (u ≠ 0)) (atSystem s) = false →
      (u = 0 → exec (.csrrsi rd u n) s = .next (postX .s rd old 0 s) ∧ exec (.csrrci rd u n) s = .next (postX .s rd old 0 s))
      ∧ (u ≠ 0 →
        exec (.csrrsi rd u n) s = .next (csrWritten (.csrrsi rd u n) rd n old (old ||| BitVec.ofNat 64 u.val) s)
        ∧ exec (.csrrci rd u n) s = .next (csrWritten (.csrrci rd u n) rd n old (old &&& ~~~BitVec.ofNat 64 u.val) s))))
  ∧ ((∀ n, n ∈ [0x800, 0x801, 0x802] → ∀ w l, csrIllegal n w l = false)
  ∧ (∀ n, n ∈ [0x803, 0x804, 0xC00, 0xC02, 0xCC0, 0xCC1, 0xCC2, 0xCC3] → ∀ w l, csrIllegal n w l = w)
  ∧ (∀ n, n ∈ [0x808, 0x809, 0x80A, 0x80B, 0x80C, 0x80D, 0x810, 0x811, 0x812, 0x813, 0x814, 0x815, 0xCC4] →
    ∀ w l, csrIllegal n w l = (w && !l))
  ∧ (∀ n, n ∈ [0x5C0, 0x5C1, 0x5C2, 0x5C3, 0x5C5, 0x5C7] → ∀ w l, csrIllegal n w l = !l)
  ∧ (∀ n, n ∈ [0x5C4, 0x5C6] → ∀ w l, csrIllegal n w l = (w || !l))
  ∧ ∀ n, n ∉ [0x800, 0x801, 0x802, 0x803, 0x804, 0xC00, 0xC02, 0xCC0, 0xCC1, 0xCC2, 0xCC3, 0x808, 0x809, 0x80A, 0x80B, 0x80C, 0x80D,
      0x810, 0x811, 0x812, 0x813, 0x814, 0x815, 0xCC4, 0x5C0, 0x5C1, 0x5C2, 0x5C3, 0x5C4, 0x5C5, 0x5C6, 0x5C7] →
    ∀ w l, csrIllegal n w l = true)


/-- R120, R122: at program level a loop instruction pushes an entry that starts at the next fetch address, or with count 0 continues after
the end unit; LBRK pops the top entry and continues after its end unit. A full or an empty stack, an end that names no unit or lies
before the next fetch address, and system level raise ILLEGAL_OP. R121: the end check. Entries whose end is this unit each count a pass: the first that has not reached its count sends fetch to its
start, those that have are popped. -/
def Obligations.loop_operations_complete : Prop :=
  (∀ (s : State) (c : Cycle), s.cyc = some c →
    (∀ (i : Instr) (e : Nat) (n : Word),
      ((∃ (cnt : BitVec 12) (off : BitVec 10), i = .loopi cnt off ∧ e = c.pc + 2 * off.toNat ∧ n = cnt.zeroExtend 64)
        ∨ ∃ (r : Fin 32) (off : BitVec 12), i = .loopr r off ∧ xEmpty s r = false ∧ e = c.pc + 2 * off.toNat ∧ n = readX s r) →
      (atSystem s = false → s.seq.loops.length < 6 → namesUnit s e = true → c.next ≤ e →
        (n = 0 → exec i s = .next (setTarget (nextFetch s e) s))
        ∧ (n ≠ 0 → ∃ t, exec i s = .next t ∧ t.seq = { s.seq with loops := s.seq.loops ++ [⟨0, n, c.next, e⟩] }
          ∧ t.regs = s.regs ∧ t.mem = s.mem ∧ t.pipe = s.pipe ∧ t.cyc = s.cyc ∧ t.out = s.out))
      ∧ (atSystem s = true ∨ 6 ≤ s.seq.loops.length ∨ namesUnit s e = false ∨ e < c.next →
        exec i s = .next (record .s (fun _ => .trap (trapOp .s (wordOfInstr s i))) s)))
    ∧ (∀ e r, s.seq.loops = r ++ [e] → atSystem s = false →
      ∃ t, exec .lbrk s = .next t ∧ t.seq = { s.seq with loops := r } ∧ t.cyc = some { c with target := some (nextFetch s e.stop) }
        ∧ t.regs = s.regs ∧ t.mem = s.mem ∧ t.pipe = s.pipe ∧ t.out = s.out)
    ∧ (s.seq.loops = [] ∨ atSystem s = true → exec .lbrk s = .next (record .s (fun _ => .trap (trapOp .s (wordOfInstr s .lbrk))) s)))
  ∧ (∀ (pc next : Nat) (e : LoopEntry) (r : List LoopEntry),
    endCheck pc next [] = ([], next)
    ∧ (e.stop ≠ pc → endCheck pc next (e :: r) = (e :: r, next))
    ∧ (e.stop = pc → (e.index + 1).toNat < e.count.toNat →
      endCheck pc next (e :: r) = ({ e with index := e.index + 1 } :: r, e.start))
    ∧ (e.stop = pc → e.count.toNat ≤ (e.index + 1).toNat → endCheck pc next (e :: r) = endCheck pc next r))


/-! ### Loads, stores, handles, queues (R117, R150 to R168, R178) -/


/-- R6, R117, R168: a scalar load at an exact sum whose checks pass is counted on path L and in flight to its register: from the local window or the code
store in class 3, else as a variable producer whose value arrives later. R117, R164: how a load's bytes become its value: little-endian, sign- or zero-extended to 64 bits by the instruction; a vector's in
order. R117, R154: a scalar access through h15 passes its checks wherever R86 puts memory: naturally aligned in the local window or the
code store without translation. Misaligned it is MISALIGNED; where R86 marks "none" it is TRANSLATION; a store to the code store is
PERMISSION. -/
def Obligations.scalar_loads_complete : Prop :=
  (∀ (s t : State) (xs : List Xlat), s.cyc.isSome = true →
    (∀ (mk : IType → Instr) (n : Nat) (sg : Bool),
      (mk, n, sg) ∈ [(Instr.lb, 1, true), (.lh, 2, true), (.lw, 4, true), (.ld, 8, true), (.lbu, 1, false), (.lhu, 2, false), (.lwu, 4, false)] →
      ∀ (o : IType) (a : Nat), xEmpty s o.rs1 = false → xEmpty s o.rd = false → cntReadFull s .l 15 = false →
      (a : Int) = (readX s o.rs1).toNat + o.imm.toInt →
      checkRange s 15 h15Descriptor n winAny kindsH15 .read a n = .ok (xs, t) →
      (isLocal a = true → recordsFull s (lat s 3) = false →
        exec (mk o) s = .next (postLoad .s (xDest o.rd) (keysAt a n) (.scalar n sg) 3 15 t))
      ∧ (isLocal a = false → recordsFull s 2 = false →
        exec (mk o) s = .next (postFar .s (xDest o.rd) a ((keysAt a n).map (keyOf xs)) (.scalar n sg) 15 t)))
    ∧ (∀ (o : LM) (a : Nat), xEmpty s o.xb = false → xEmpty s o.vd = false → hEmpty s o.h = false → cntReadFull s .l o.h = false → (a : Int) = (readX s o.xb).toNat + o.off.toInt * 8 →
      checkRange s o.h (readH s o.h) 8 winAny kindsScalar .read a 8 = .ok (xs, t) →
      (isLocal a = true → recordsFull s (lat s 3) = false →
        exec (.sld o) s = .next (postLoad .l (xDest o.vd) (keysAt a 8) (.scalar 8 false) 3 o.h t))
      ∧ (isLocal a = false → recordsFull s 2 = false →
        exec (.sld o) s = .next (postFar .l (xDest o.vd) a ((keysAt a 8).map (keyOf xs)) (.scalar 8 false) o.h t))))
  ∧ (∀ (bs : List Byte),
    (∀ n, n ∈ [1, 2, 4, 8] → bs.length = n →
      shapeVal (.scalar n false) bs = .x (BitVec.ofNat 64 (leNat bs))
      ∧ shapeVal (.scalar n true) bs = .x ((BitVec.ofNat (8 * n) (leNat bs)).signExtend 64))
    ∧ shapeVal .vector bs = .v (BitVec.ofNat 16384 (leNat bs))
    ∧ shapeVal .descriptor bs = .h (BitVec.ofNat 256 (leNat bs)))
  ∧ (∀ (s : State) (n a : Nat), n ∈ [1, 2, 4, 8] → ∀ r w : Except (Option (BitVec 8 × Nat)) (List Xlat × State),
    r = checkRange s 15 h15Descriptor n winAny kindsH15 .read a n → w = checkRange s 15 h15Descriptor n winStore kindsH15 .write a n →
    (a % n ≠ 0 → r = .error (some (cMisaligned, a)) ∧ w = .error (some (cMisaligned, a)))
    ∧ (a % n = 0 → a < 0x60000 → r = .ok ([], s) ∧ w = .ok ([], s))
    ∧ (a % n = 0 → 0x20000000 ≤ a → a < 0x20010000 → r = .ok ([], s) ∧ w = .error (some (cPermission, a)))
    ∧ (a % n = 0 → windowOf a = .hole → r = .error (some (cTranslation, a)) ∧ w = .error (some (cTranslation, a))))

/-- R117, R168: a scalar store whose checks pass is counted on path L; to the local window its bytes, the register's low ones with the
lowest first, are in flight to the banks in class 3; elsewhere they leave through the outbound port. R162, R165, R171: what a local store still has to write when its bank serves a part of it. Every byte of memory outside the granted
ones reads as before, and a granted byte, written once, reads as stored. -/
def Obligations.scalar_stores_complete : Prop :=
  (∀ (s t : State) (xs : List Xlat), s.cyc.isSome = true →
    (∀ (mk : SType → Instr) (n : Nat), (mk, n) ∈ [(Instr.sb, 1), (.sh, 2), (.sw, 4), (.sd, 8)] →
      ∀ (o : SType) (a : Nat), xEmpty s o.rs1 = false → xEmpty s o.rs2 = false → cntWriteFull s .l 15 = false →
      (a : Int) = (readX s o.rs1).toNat + o.imm.toInt →
      ∀ bs : List Byte, bs = (List.range n).map (fun i => BitVec.ofNat 8 ((readX s o.rs2).toNat / 256 ^ i)) →
      checkRange s 15 h15Descriptor n winStore kindsH15 .write a n = .ok (xs, t) →
      exec (mk o) s = .next (if isLocal a then postStore .s .mem (cellsAt a bs) 3 15 t else sendStore .s 15 [(a, keyOf xs a, bs)] t))
    ∧ (∀ (o : LM) (a : Nat), xEmpty s o.xb = false → xEmpty s o.vd = false → hEmpty s o.h = false → cntWriteFull s .l o.h = false → (a : Int) = (readX s o.xb).toNat + o.off.toInt * 8 →
      ∀ bs : List Byte, bs = (List.range 8).map (fun i => BitVec.ofNat 8 ((readX s o.vd).toNat / 256 ^ i)) →
      checkRange s o.h (readH s o.h) 8 winStore kindsScalar .write a 8 = .ok (xs, t) →
      exec (.sst o) s = .next (if isLocal a then postStore .l .mem (cellsAt a bs) 3 o.h t else sendStore .l o.h [(a, keyOf xs a, bs)] t)))
  ∧ (∀ (s : State) (f : Flight) (cells : List Host.Cell) (gs : List (Nat × Nat)), Memory.wf s.mem = true →
    s.pipe.flight.find? (fun x => x.id == f.id) = some f → f.val = .bytes cells →
    ∀ t us, t = serveWrite (f.id, gs) s → us = cells.zip (runsOf 0 0 (cells.map (·.1))) →
      Memory.wf t.mem = true
      ∧ (∀ a, (∀ u ∈ us, u.2 ∈ gs → u.1.1 ≠ a) → memGet t.mem a = memGet s.mem a)
      ∧ (∀ u ∈ us, u.2 ∈ gs → (∀ d ∈ us, d.2 ∈ gs → d.1.1 = u.1.1 → d = u) → memGet t.mem u.1.1 = u.1.2)
      ∧ t.regs = s.regs ∧ t.seq = s.seq ∧ t.out = s.out ∧ t.cpy = s.cpy ∧ t.mat = s.mat)

/-- R163 to R167: a vector load or store whose checks pass. VLD reads the shape's bytes, VLDB one row for all, VLDS rows a stride
apart, VLDX through the die window as a variable producer; VST and VSTS write the register's bytes row by row to the banks or out of
the core; VSTP writes the planes of its rows. Each is counted on path L. -/
def Obligations.vector_accesses_complete : Prop :=
  ∀ (s t : State) (xs : List Xlat), s.cyc.isSome = true →
    (∀ o : LM, xEmpty s o.xb = false → hEmpty s o.h = false → isEmpty s (.v o.vd) = false →
      ∀ a n : Nat, (a : Int) = (readX s o.xb).toNat + o.off.toInt * 32 → n = shapeRows s.seq.vshape * shapeCols s.seq.vshape * shapeB s.seq.vshape →
      (cntReadFull s .l o.h = false → recordsFull s (lat s 4) = false →
        checkRange s o.h (readH s o.h) 32 winLocal kindsVec .read a n = .ok (xs, t) →
        exec (.vld o) s = .next (postLoad .l (.v o.vd) (keysAt a n) .vector 4 o.h t))
      ∧ (cntReadFull s .l o.h = false → recordsFull s (lat s 4) = false →
        checkRange s o.h (readH s o.h) 32 winLocal kindsVec .read a (rowSize s) = .ok (xs, t) →
        exec (.vldb o) s = .next (postLoad .l (.v o.vd)
          ((List.replicate (shapeRows s.seq.vshape) (keysAt a (rowSize s))).flatten) .vector 4 o.h t))
      ∧ (cntReadFull s .l o.h = false → recordsFull s 2 = false →
        checkRange s o.h (readH s o.h) 32 winDie kindsVec .read a n = .ok (xs, t) →
        exec (.vldx o) s = .next (postFar .l (.v o.vd) a (keysAt a n) .vector o.h t))
      ∧ (cntWriteFull s .l o.h = false → recordsFull s 1 = false →
        checkRange s o.h (readH s o.h) 32 winLocalDie kindsVec .write a n = .ok (xs, t) →
        exec (.vst o) s = .next (storeRows o.h [(a, regBytes (readV s o.vd).toNat 0 n)] t))
      ∧ (cntWriteFull s .l o.h = false → recordsFull s 1 = false → shapeB s.seq.vshape ≠ 4 → shapeCols s.seq.vshape = 256 →
        ∀ p, planesOf (hFmt (readH s o.h)) = some p →
        checkRange s o.h (readH s o.h) 32 winLocal kindsVec .write a (shapeRows s.seq.vshape * p * 32) = .ok (xs, t) →
        exec (.vstp o) s = .next (postStore .l .mem (cellsAt a ((List.range (shapeRows s.seq.vshape)).flatMap (fun i =>
          (List.range p).flatMap (fun j => planeGranule (readV s o.vd).toNat (planesUnsigned (hFmt (readH s o.h))) (shapeB s.seq.vshape) i j))))
          4 o.h t)))
    ∧ (∀ o : LS, xEmpty s o.xb = false → xEmpty s o.xs = false → hEmpty s o.h = false → isEmpty s (.v o.vd) = false → (readX s o.xs).toNat % 32 = 0 →
      ∀ rows : List Nat, rows.map Int.ofNat = (List.range (shapeRows s.seq.vshape)).map (fun i => ((readX s o.xb).toNat : Int) + i * (readX s o.xs).toInt) →
      (cntReadFull s .l o.h = false → recordsFull s (lat s 4) = false →
        checkRanges o.h (readH s o.h) 32 winLocal kindsVec .read (rowSize s) rows s = .ok (xs, t) →
        exec (.vlds o) s = .next (postLoad .l (.v o.vd) (rows.flatMap (fun a => keysAt a (rowSize s))) .vector 4 o.h t))
      ∧ (cntWriteFull s .l o.h = false → recordsFull s 1 = false →
        checkRanges o.h (readH s o.h) 32 winLocalDie kindsVec .write (rowSize s) rows s = .ok (xs, t) →
        exec (.vsts o) s = .next (storeRows o.h (rows.zipIdx.map (fun r =>
          (r.1, regBytes (readV s o.vd).toNat (r.2 * rowSize s) (rowSize s)))) t)))

/-- R156 to R158, R178: HSET reads its granule from the local window through h15, HGET gives a doubleword of the descriptor, HCLR the
all-zero one, and neither HSET nor HCLR touches h15 (ILLEGAL_OP); VPUSH appends an entry of the shape's bytes to q2 or q3. -/
def Obligations.handle_and_queue_operations_complete : Prop :=
  ∀ s : State, s.cyc.isSome = true →
    (∀ (h : Fin 16) (xa : Fin 32), h ≠ 15 → xEmpty s xa = false → isEmpty s (.h h) = false → cntReadFull s .l 15 = false →
      recordsFull s (lat s 3) = false → (readX s xa).toNat % 32 = 0 → (readX s xa).toNat < 0x60000 →
      exec (.hset h xa) s = .next (push { Flight.start s .l (.h h) (.load ((keysAt (readX s xa).toNat 32).map (fun k => (k, none))) .descriptor)
        (lat s 3) with acc := some (.l, 15), read := some ⟨.l, 15, (readX s xa).toNat, none, false⟩ } (cntRead .l 15 s)))
    ∧ (∀ (h : Fin 16) (xd : Fin 32) (sel : Fin 4), xEmpty s xd = false → isEmpty s (.h h) = false → recordsFull s (lat s 0) = false →
      exec (.hget h xd sel) s = .next (postX .l xd ((readH s h).extractLsb' (64 * sel.val) 64) 0 s))
    ∧ (∀ h : Fin 16, h ≠ 15 → isEmpty s (.h h) = false → recordsFull s (lat s 0) = false →
      exec (.hclr h) s = .next (push (Flight.start s .l (.h h) (.h 0) (lat s 0)) s))
    ∧ (∀ xa, exec (.hset 15 xa) s = .next (record .l (fun _ => .trap (trapOp .l (wordOfInstr s (.hset 15 xa)))) s))
    ∧ (exec (.hclr 15) s = .next (record .l (fun _ => .trap (trapOp .l (wordOfInstr s (.hclr 15)))) s))
    ∧ (∀ (vs : Fin 32) (qd : Fin 4) (pg : Option (Fin 48)), 2 ≤ qd.val → isEmpty s (.v vs) = false → (∀ p ∈ pg, isEmpty s (.p p) = false) →
      (pg = none ∨ shapeN s.seq.vshape ≤ 512) → (readQ s qd).length < 4 →
      ∃ e t, exec (.vpush vs qd pg) s = .next t ∧ readQ t qd = readQ s qd ++ [e] ∧ e.len = shapeN s.seq.vshape * shapeB s.seq.vshape
        ∧ (∀ i, i < shapeN s.seq.vshape → (i + 1) * shapeB s.seq.vshape ≤ 2048 → elem e.bytes.toNat (shapeB s.seq.vshape) i =
          if activeAt s pg i then elem (readV s vs).toNat (shapeB s.seq.vshape) i else 0)
        ∧ (∀ q, q ≠ qd → readQ t q = readQ s q) ∧ t.regs.v = s.regs.v ∧ t.regs.p = s.regs.p ∧ t.regs.h = s.regs.h
        ∧ t.seq = s.seq ∧ t.mem = s.mem ∧ t.pipe = s.pipe ∧ t.out = s.out)


/-! ### Fences, waits, barriers, stage items, atomics, locks (R94, R97 to R100, R127 to R133, R173 to R176) -/

/-- R94, R97, R98, R173, R176: FENCE issues once the counters of its range, as they stood before the bundle, meet its kind's condition,
and stalls until then; an empty mask orders nothing; an acquiring kind then bounds the reads of its range. ERRFENCE waits for the
reads and for the writes at die scope, and orders nothing. R174, R175: ACQ.H acquires for each handle of its mask at the wider of its scope and the handle's own, and waits for nothing
but the descriptors. REL.H
does nothing without a handle of its mask that is bound, h15 never being one; with one whose counter addresses pass their checks it
takes one entry of the held-back list, which has room for it, and a full list is preceded by a forced commit. -/
def Obligations.fences_and_handle_releases_complete : Prop :=
  (∀ (s : State) (c : Cycle), s.cyc = some c →
    (∀ k o, o.paths = 0 ∨ o.hmask = 0 → exec (.fence k o) s = .next s)
    ∧ (∀ k o, o.paths ≠ 0 → o.hmask ≠ 0 →
      ((∀ p h, o.paths.getLsbD (pathNo p) = true → o.hmask.getLsbD h.val = true →
          (c.cnt.get (cntIx p h)).rd = 0 ∧ (k ≠ .acq → unperformed o.scope (c.cnt.get (cntIx p h)) = 0)) →
        exec (.fence k o) s = .next (if k = .rel then s else acquire o.scope o.paths o.hmask s))
      ∧ (∀ p h, o.paths.getLsbD (pathNo p) = true → o.hmask.getLsbD h.val = true →
          ((c.cnt.get (cntIx p h)).rd ≠ 0 ∨ k ≠ .acq ∧ unperformed o.scope (c.cnt.get (cntIx p h)) ≠ 0) →
        ∃ d, exec (.fence k o) s = .next { s with cyc := some d } ∧ d.stalled = true ∧ d.trap = c.trap))
    ∧ (∀ paths hmask,
      ((∀ p h, paths.getLsbD (pathNo p) = true → hmask.getLsbD h.val = true →
          (c.cnt.get (cntIx p h)).rd = 0 ∧ (c.cnt.get (cntIx p h)).wd = 0) →
        exec (.errfence paths hmask) s = .next s)
      ∧ (∀ p h, paths.getLsbD (pathNo p) = true → hmask.getLsbD h.val = true →
          ((c.cnt.get (cntIx p h)).rd ≠ 0 ∨ (c.cnt.get (cntIx p h)).wd ≠ 0) →
        ∃ d, exec (.errfence paths hmask) s = .next { s with cyc := some d } ∧ d.stalled = true ∧ d.trap = c.trap)))
  ∧ (∀ (s : State) (c : Cycle) (o : LF), s.cyc = some c → maskEmpty s o.hmask = false →
    (exec (.acqH o) s = .next ((List.finRange 16).foldl (fun t h => if o.hmask.getLsbD h.val then
      acquire (if scopeCode o.scope < scopeCode (hScope (readH s h)) then hScope (readH s h) else o.scope) o.paths
        (BitVec.ofNat 16 (2 ^ h.val)) t else t) s))
    ∧ ((∀ h : Fin 16, h ≠ 15 → o.hmask.getLsbD h.val = true → hCounter (readH s h) = 0) → exec (.relH o) s = .next s)
    ∧ (∀ h : Fin 16, h ≠ 15 → o.hmask.getLsbD h.val = true → hCounter (readH s h) ≠ 0 →
      ∀ items t, relItems o (relHandles o s) s = .ok (items, t) →
        (s.out.heldBack.length < 64 → exec (.relH o) s = .next (holdBack (.relh items o.paths o.hmask) .l 15 t))
        ∧ (64 ≤ s.out.heldBack.length → exec (.relH o) s = .next { s with cyc := some { c with force := true } })))


/-- R127, R128: WAITGE, its counter's address being sound, issues when the counter read at its home has reached the target, compared
unsigned, and stalls before; the observation takes its token (R363, log entry 102). EVPOP takes the oldest record, after a time the model leaves free (assumption 4), or awaits the next. R129, R130, R131: BAR ends the phase with its arrival and, above scope core, has the next bundle wait for its generation. NEXTITEM
ends the phase, releases the held item, and moves the core, or has the stage's queue bring the next item; without a queue it gives 1
at the first and 0 at later ones; run again after a return it has its item again (R325). EMIT to an output that the stage lacks is QUEUE, from an address off 32 bytes MISALIGNED; it waits for
its grant. R131: EMIT with its grant, its source and its slot passing their checks, takes the entry's bytes at issue, sends them to the slot
on path L, and holds the publish back; its bundle waits until the source's lines of tier 0 have their tokens (R363). -/
def Obligations.waits_and_stage_items_complete : Prop :=
  (∀ (s : State) (c : Cycle), s.cyc = some c →
    (∀ (xa xt : Fin 32) (a : Nat) (xs : List Xlat) (t : State), xEmpty s xa = false → xEmpty s xt = false → a = (readX s xa).toNat →
      checkRange s 15 h15Descriptor 8 winStore kindsH15 .read a 8 = .ok (xs, t) → refused t a = false →
      lineBad t a (landKey t (keyOf xs a)) = none →
      ((readX s xt).toNat ≤ leNat (readHome (keyOf xs a) 8 t) → ∀ p u,
        (payLines (hbmLines [keyOf xs a]) t.out.issuePaid t = (true, p, u) →
          exec (.waitge xa xt) s = .next { u with out := { u.out with issuePaid := 0 } })
        ∧ (payLines (hbmLines [keyOf xs a]) t.out.issuePaid t = (false, p, u) →
          exec (.waitge xa xt) s = .next (stalls { u with out := { u.out with issuePaid := p } })))
      ∧ (leNat (readHome (keyOf xs a) 8 t) < (readX s xt).toNat → exec (.waitge xa xt) s = .next (stalls s)))
    ∧ (∀ rd, xEmpty s rd = false → recordsFull s 2 = false →
      (s.cpy.events = [] → exec (.evpop rd) s = .next (awaitedBy rd .evpop s))
      ∧ (∀ w r, s.cpy.events = w :: r → (∀ f ∈ s.pipe.flight, f.val ≠ .awaited .evpop) → s.cpy.lost = 0 → ∃ n, 1 ≤ n ∧
        exec (.evpop rd) s = .next (arrivesIn rd w n { s with cpy := { s.cpy with events := r } }))
      ∧ (∀ w r, s.cpy.events = w :: r → (∀ f ∈ s.pipe.flight, f.val ≠ .awaited .evpop) → s.cpy.lost ≠ 0 → r.length < 32 → ∃ n, 1 ≤ n ∧
        exec (.evpop rd) s = .next (arrivesIn rd w n { s with cpy := { s.cpy with
          events := r ++ [BitVec.ofNat 64 (0xFF * 2 ^ 56 + s.cpy.lost.toNat)], lost := 0 } }))))
  ∧ (∀ (s : State) (c : Cycle), s.cyc = some c →
    (∀ id, exec (.bar .core id) s = .next (acquire .core 0x1F 0xFFFF (endsWith (.bar .core id) s)))
    ∧ (∀ sc id, sc ≠ .core → ∃ t d, exec (.bar sc id) s = .next t ∧ t.cyc = some d ∧ d.commit = some .commit
      ∧ d.last.map (·.body) = c.last.map (·.body) ++ [.effect (.bar sc id)]
      ∧ d.wait = some ⟨sc, id, nextGen (barrierOf s (pkgIndex s) sc id) (pkgIndex s), c.mark⟩
      ∧ t.seq = s.seq ∧ t.regs = s.regs ∧ t.mem = s.mem ∧ t.out = s.out ∧ t.pipe = s.pipe)
    ∧ (∀ (rd : Fin 32) (u : State), xEmpty s rd = false → recordsFull s 2 = false →
      u = updSeq (fun q => { q with firstItem := false, item := none }) (itemReleased s) →
      (∀ r, moveOf s = some r → exec (.nextitem rd) s = .next (updCyc (fun d => { d with moving := some r }) u))
      ∧ (∀ e, moveOf s = none → s.out.handed.find? (fun e => e.1 == s.rcv.commits) = some e → ∃ n, 1 ≤ n ∧
        exec (.nextitem rd) s = .next (arrivesIn rd e.2.addr n (updSeq (fun q => { q with item := some e.2 }) u)))
      ∧ (moveOf s = none → s.out.handed.find? (fun e => e.1 == s.rcv.commits) = none →
        (∀ l q, inQueue s = some (l, q) → exec (.nextitem rd) s = .next (push { Flight.start u .s (xDest rd) (.awaited .item) 1 with
            variable' := true } (updQueue l q (fun k => { k with takers := joinWait (pkgIndex s) k.takers }) u)))
        ∧ (inQueue s = none → ∃ n, 1 ≤ n ∧ exec (.nextitem rd) s = .next (arrivesIn rd (if s.seq.firstItem then 1 else 0) n u))))
    ∧ (∀ (xs : Fin 32) (n : Fin 8), xEmpty s xs = false →
      (outQueue s = none ∨ n ≠ 0 → exec (.emit xs n) s = .next (record .s (fun _ => .trap (trapWord cQueue .s (wordOfInstr s (.emit xs n)))) s))
      ∧ (∀ l q, outQueue s = some (l, q) → n = 0 →
        ((readX s xs).toNat % 32 ≠ 0 → exec (.emit xs n) s = .next (record .s (fun _ => .trap (trapAt cMisaligned .s (readX s xs).toNat)) s))
        ∧ ((readX s xs).toNat % 32 = 0 → cntWriteFull s .l 15 = false →
          s.out.grants.find? (fun g => g.1 == l && g.2.1 == q) = none →
          ∃ t d, exec (.emit xs n) s = .next t ∧ t.cyc = some d ∧ d.stalled = true ∧ t.out.emitWait = some (l, q)
            ∧ t.regs = s.regs ∧ t.seq = s.seq ∧ t.mem = s.mem))))
  ∧ (∀ (s : State) (xs : Fin 32) (l q : Nat) (sq : SQueue) (slot a dst : Nat) (ys zs : List Xlat) (t u : State), s.cyc.isSome = true →
    xEmpty s xs = false → outQueue s = some (l, q) → a = (readX s xs).toNat → a % 32 = 0 → cntWriteFull s .l 15 = false →
    stageQueue s l q = some sq → s.out.grants.find? (fun g => g.1 == l && g.2.1 == q) = some (l, q, slot) →
    dst = sq.base.toNat + 64 + slot % sq.entries * sq.bytes →
    checkRange s 15 h15Descriptor 32 winAny kindsH15 .read a sq.bytes = .ok (ys, t) →
    checkRange t 15 h15Descriptor 32 (fun w => w == .global) kindsH15 .write dst sq.bytes = .ok (zs, u) →
    refused u a = false → u.out.heldBack.length < 64 →
    rangeBad u a ((keysAt a sq.bytes).map (fun k => landKey u (keyOf ys k))) = none →
    ∀ p w, (payLines (hbmLines ((keysAt a sq.bytes).map (keyOf ys))) u.out.issuePaid u = (false, p, w) →
      exec (.emit xs 0) s = .next (stalls { w with out := { w.out with issuePaid := p } }))
    ∧ (payLines (hbmLines ((keysAt a sq.bytes).map (keyOf ys))) u.out.issuePaid u = (true, p, w) →
    ∀ r, r = readKeys .l 15 ((keysAt a sq.bytes).map (keyOf ys)) { w with out := { w.out with issuePaid := 0 } } →
    ∀ v, v = sendStore .s 15 ((splitLines 66 dst r.1).map (fun p => (p.1, keyOf zs p.1, p.2))) r.2 →
    exec (.emit xs 0) s = .next (holdBack (.emit l q slot (BitVec.ofNat 64 a)) .s 15
      { v with out := { v.out with grants := v.out.grants.filter (fun e => e != (l, q, slot)), emitWait := none } })))


/-- R132: an atomic whose address passes its checks joins the held-back list when its destination is x0; otherwise it ends the phase as
the last effect of the commit, its result awaited. R133: LDL whose address lies in the local or a die window waits at the bank of its address, after a time the model leaves free
(assumption 4); STUL there is a store that clears its lock bit, in flight to the own bank or on its way out. -/
def Obligations.atomics_and_locks_complete : Prop :=
  (∀ (s t : State) (xs : List Xlat) (o : RType) (mk : RType → Instr) (op : AmoOp) (wide : Bool), s.cyc.isSome = true →
    (mk, op, wide) ∈ [(Instr.amoaddW, .add, false), (.amoaddD, .add, true), (.amoandW, .and, false), (.amoandD, .and, true),
      (.amoorW, .or, false), (.amoorD, .or, true), (.amoxorW, .xor, false), (.amoxorD, .xor, true),
      (.amominW, .min, false), (.amominD, .min, true), (.amomaxW, .max, false), (.amomaxD, .max, true),
      (.amominnW, .minn, false), (.amominnD, .minn, true), (.amomaxnW, .maxn, false), (.amomaxnD, .maxn, true),
      (.amoswapW, .swap, false), (.amoswapD, .swap, true), (.casW, .cas, false), (.casD, .cas, true)] →
    xEmpty s o.rs1 = false → xEmpty s o.rs2 = false → xEmpty s o.rd = false →
    ∀ a n : Nat, a = (readX s o.rs1).toNat → n = (if wide then 8 else 4) →
    checkRange s 15 h15Descriptor n winStore kindsH15 .rmw a n = .ok (xs, t) →
    (o.rd = 0 → s.out.heldBack.length < 64 →
      exec (mk o) s = .next (holdBack (.atomic (BitVec.ofNat 64 a) (keyOf xs a) op wide (readX s o.rs2) (readX s o.rd) none) .s 15 t))
    ∧ (o.rd ≠ 0 → recordsFull s 2 = false →
      exec (mk o) s = .next (endsWith (.atomic (BitVec.ofNat 64 a) (keyOf xs a) op wide (readX s o.rs2) (readX s o.rd) (some t.nextId))
        (awaitedBy o.rd .atomic t))))
  ∧ (∀ (s t : State) (xs : List Xlat), s.cyc.isSome = true →
    (∀ (o : IType) (a : Nat), xEmpty s o.rs1 = false → xEmpty s o.rd = false → cntReadFull s .l 15 = false → recordsFull s 2 = false →
      (a : Int) = (readX s o.rs1).toNat + o.imm.toInt → checkRange s 15 h15Descriptor 8 winLocalDie kindsH15 .read a 8 = .ok (xs, t) →
      ∃ n u f w, 1 ≤ n ∧ exec (.ldl o) s = .next u ∧ u.pipe.flight = s.pipe.flight ++ [f] ∧ u.sys.lockWaits = t.sys.lockWaits ++ [w]
        ∧ f.id = s.nextId ∧ f.dest = xDest o.rd ∧ f.val = .awaited .lock ∧ f.variable' = true
        ∧ w.core = (spadPlace t a).1 ∧ w.bank = (spadPlace t a).2 / 32 % 96
        ∧ w.bit = ((spadPlace t a).2 / 8 ^^^ (spadPlace t a).2 / 2048) % 64
        ∧ w.flight = some s.nextId ∧ w.fromCore = dieIndex s ∧ w.retryAt = s.pipe.wall + n
        ∧ u.seq = s.seq ∧ u.regs = s.regs ∧ u.mem = s.mem)
    ∧ (∀ (o : SType) (a : Nat) (bs : List Byte), xEmpty s o.rs1 = false → xEmpty s o.rs2 = false → cntWriteFull s .l 15 = false →
      (a : Int) = (readX s o.rs1).toNat + o.imm.toInt →
      bs = (List.range 8).map (fun i => BitVec.ofNat 8 ((readX s o.rs2).toNat / 256 ^ i)) →
      checkRange s 15 h15Descriptor 8 winLocalDie kindsH15 .read a 8 = .ok (xs, t) →
      (isLocal a = true → exec (.stul o) s = .next (postStore .s (.unlock a) (cellsAt a bs) 3 15 t))
      ∧ (isLocal a = false → ∃ u, exec (.stul o) s = .next u ∧ u.seq = s.seq ∧ u.regs = s.regs ∧ u.mem = s.mem ∧ u.pipe = s.pipe
        ∧ u.out = (sendEntry .l 15 .s (atSystem t) t.nextId t.rcv.commits (.unlock a bs) (fresh (cntWrite .l 15 t)).2).out)))


/-! ### Trust operations and the context area (R31, R146, R147, R378 to R387) -/

/-- R378 to R380: a trust operation whose checks pass ends its phase as the last effect of the commit, and its status is awaited. The
checks come in order: a request block off 64 bytes is MISALIGNED, outside the local window TRANSLATION; a slot that is not LIVE is
KEY; an ill-formed request is BAD_DATA. KGEN has no request block. R379: a request is ill-formed when its size is 0, when its base or size is off 4 KiB, and for SEAL and UNSEAL when its base, size or
tree address is off 64 KiB or the tree area meets the range. -/
def Obligations.trust_operations_complete : Prop :=
  (∀ s : State, s.cyc.isSome = true →
    (∀ rd, xEmpty s rd = false → xRecordsFull s rd 2 = false →
      (keyLive s = true → exec (.kgen rd) s = .next (trustPosted .kgen rd 0 0 0 0 [] s))
      ∧ (keyLive s = false → exec (.kgen rd) s = .next (traps .s ⟨cKey, BitVec.ofNat 64 (ctxKey s), false⟩ s)))
    ∧ (∀ (mk : Fin 32 → Fin 32 → Instr) (op : TrustOp),
      (mk, op) ∈ [(Instr.krot, .krot), (.seal, .seal), (.unseal, .unseal), (.scrub, .scrub), (.mclrchk, .mclrchk)] →
      ∀ rd rs1, xEmpty s rs1 = false → xEmpty s rd = false → xRecordsFull s rd 2 = false →
      ∀ a base size aux : Nat, a = (readX s rs1).toNat → base = leNat (memGetN s.mem a 8) → size = leNat (memGetN s.mem (a + 8) 8) →
      aux = leNat (memGetN s.mem (a + 16) 8) →
      (a % 64 ≠ 0 → exec (mk rd rs1) s = .next (traps .s (trapAt cMisaligned .s a) s))
      ∧ (a % 64 = 0 → 0x60000 ≤ a → exec (mk rd rs1) s = .next (traps .s (trapAt cTranslation .s a) s))
      ∧ (a % 64 = 0 → a < 0x60000 → keyLive s = false →
        exec (mk rd rs1) s = .next (traps .s ⟨cKey, BitVec.ofNat 64 (ctxKey s), false⟩ s))
      ∧ (a % 64 = 0 → a < 0x60000 → keyLive s = true → (∀ i, i < 32 → badAt s (a + i) = none) →
        (badRequest op base size aux = true → exec (mk rd rs1) s = .next (traps .s (trapAt cBadData .s a) s))
        ∧ (badRequest op base size aux = false → ∀ xs t,
          trustWalk (rangeReads op) (rangeWrites op) (size / 65536 + 2) base (base + size) s = .ok (xs, t) →
          (hasTree op = false → exec (mk rd rs1) s = .next (trustPosted op rd a base size aux (blocksOf xs base size) t))
          ∧ (hasTree op = true → ∀ ys u,
            trustWalk false (op == .seal) (treeArea size / 65536 + 2) aux (aux + treeArea size) t = .ok (ys, u) →
            exec (mk rd rs1) s = .next (trustPosted op rd a base size aux (blocksOf xs base size ++ blocksOf ys aux (treeArea size)) u))))))
  ∧ (∀ base size aux : Nat,
    (∀ op, op ∈ [TrustOp.krot, .scrub, .mclrchk] →
      (badRequest op base size aux = false ↔ size ≠ 0 ∧ base % 4096 = 0 ∧ size % 4096 = 0))
    ∧ (∀ op, op ∈ [TrustOp.seal, .unseal] →
      (badRequest op base size aux = false ↔ size ≠ 0 ∧ base % 65536 = 0 ∧ size % 65536 = 0 ∧ aux % 65536 = 0
        ∧ (base + size ≤ aux ∨ aux + treeArea size ≤ base))))


/-- R146, R147, R31: CTXSAVE and CTXLOAD belong to system level. CTXSAVE at an address in global memory that is a multiple of 64 KiB sends
the area, with z and w under a forced pre-emption, and from another is MISALIGNED. CTXLOAD, at such an address, from an area with a
sound header, of the context's own tenant, whose sections can be read, leaves the program's registers as the area holds them. -/
def Obligations.context_operations_complete : Prop :=
  ∀ (s : State) (r : Fin 32), s.cyc.isSome = true →
    (atSystem s = false → exec (.ctxsave r) s = .next (traps .s (trapOp .s (wordOfInstr s (.ctxsave r))) s)
      ∧ exec (.ctxload r) s = .next (traps .s (trapOp .s (wordOfInstr s (.ctxload r))) s))
    ∧ (atSystem s = true → xEmpty s r = false → ∀ forced : Bool, forced = (s.seq.preempt.map (·.forced)).getD false →
      (forced = true → saveReady s = true) →
      ((readX s r).toNat % 65536 ≠ 0 ∨ windowOf (readX s r).toNat ≠ .global →
        exec (.ctxsave r) s = .next (traps .s (trapAt cMisaligned .s (readX s r).toNat) s))
      ∧ ((readX s r).toNat % 65536 = 0 → windowOf (readX s r).toNat = .global →
        ∀ t, emitSave .s (if forced then 3 else 0) s.seq.tpc (readX s r) s = .ok (some t) → exec (.ctxsave r) s = .next t))
    ∧ (atSystem s = true → xEmpty s r = false → ∀ (a : Nat) (xs : List Xlat) (t : State), a = (readX s r).toNat →
      (a % 65536 ≠ 0 → exec (.ctxload r) s = .next (traps .s (trapAt cMisaligned .s a) s))
      ∧ (a % 65536 = 0 → readArea a [0] [] s = .ok (xs, t) → ∀ f : Nat → Granule, f = areaGranule t xs a →
      ((fieldAt f 0 6 ≠ 0x131585443 → exec (.ctxload r) s = .next (traps .s ⟨cIllegalOp, BitVec.ofNat 64 (a % 2 ^ 60), false⟩ s))
      ∧ (fieldAt f 0 6 = 0x131585443 → fieldAt f 8 4 ≠ s.seq.tenant.toNat →
        exec (.ctxload r) s = .next (traps .s (trapAt cPermission .s a) s))
      ∧ (fieldAt f 0 6 = 0x131585443 → fieldAt f 8 4 = s.seq.tenant.toNat → ∀ (ys zs : List Xlat) (v w : State),
        readArea a (sectionLines (fieldAt f 6 1) (min 64 (fieldAt f 40 1)) (min 64 (fieldAt f 41 1))) xs t = .ok (ys, v) →
        readArea a (spadLines (readChunk (areaGranule v ys a) 0x7000 48)) ys v = .ok (zs, w) →
        ∀ n, n = ((0 :: sectionLines (fieldAt f 6 1) (min 64 (fieldAt f 40 1)) (min 64 (fieldAt f 41 1))
          ++ spadLines (readChunk (areaGranule v ys a) 0x7000 48)).map (fun l => globalKey zs (a + l))).countP isHbm →
        (∀ p w', payLines n w.out.issuePaid w = (false, p, w') →
          exec (.ctxload r) s = .next (stalls { w' with out := { w'.out with issuePaid := p } }))
        ∧ ((payLines n w.out.issuePaid w).1 = true → ∀ g : Nat → Granule, g = areaGranule w zs a → ∃ u, exec (.ctxload r) s = .next u
        ∧ (∀ i : Fin 32, i ≠ 0 → u.seq.x.get i = BitVec.ofNat 64 (fieldAt g (0x40 + 8 * i.val) 8))
        ∧ u.seq.vshape = BitVec.ofNat 20 (fieldAt g 0x140 8) ∧ u.seq.vflags = BitVec.ofNat 7 (fieldAt g 0x148 8)
        ∧ u.seq.mflags = BitVec.ofNat 3 (fieldAt g 0x150 8) ∧ u.seq.latcon = BitVec.ofNat 64 (fieldAt g 0x158 8)
        ∧ u.seq.cycle = BitVec.ofNat 64 (fieldAt g 0x160 8) ∧ u.seq.instret = BitVec.ofNat 64 (fieldAt g 0x168 8)
        ∧ u.seq.tcause = BitVec.ofNat 9 (fieldAt g 0x178 8) ∧ u.seq.tval = BitVec.ofNat 60 (fieldAt g 0x180 8)
        ∧ u.seq.tpc = BitVec.ofNat 21 (fieldAt g 24 8) ∧ u.seq.phase = BitVec.ofNat 48 (fieldAt g 32 8)
        ∧ (∀ i : Fin 8, u.regs.k.get i = BitVec.ofNat 64 (fieldAt g (0x280 + 8 * i.val) 8))
        ∧ (∀ i : Fin 16, u.regs.h.get i = g (0x18 + i.val))
        ∧ (∀ i : Fin 48, u.regs.p.get i = BitVec.ofNat 512 (readChunk g (0x1000 + 64 * i.val) 2))
        ∧ (∀ i : Fin 32, u.regs.v.get i = BitVec.ofNat 16384 (readChunk g (0x10000 + 2048 * i.val) 64))
        ∧ u.seq.level = .system ∧ u.seq.sx = s.seq.sx)))))


/-! ### Slots V0 and V1 (R181 to R205) -/

/-- R183, R188, R189, R191: each integer operation of the element widths, and VSEL and VMOV. Where the predicate is 1 element i of the
result is the operation on the codes of width w of the operands, elsewhere 0 or the old element; a saturating form sets SAT where it
clamps; no other sets a flag. V1's duplicate hands over the same result. -/
def Obligations.vector_integer_operations_complete : Prop :=
  ∀ (s : State) (e : VEng) (w : Nat), w = 8 * shapeB s.seq.vshape →
    (∀ (mk : VEng → V3R → Instr) (f : Nat → Nat → Nat × BitVec 7),
      (mk, f) ∈ [(Instr.vadd, fun x y => ((x + y) % 2 ^ w, 0)), (.vsub, fun x y => ((x + 2 ^ w - y) % 2 ^ w, 0)),
        (.vmul, fun x y => (x * y % 2 ^ w, 0)),
        (.vmulhI, fun x y => (wrapNat w (signExt x w * signExt y w / (2 ^ w : Nat)), 0)), (.vmulhN, fun x y => (x * y / 2 ^ w % 2 ^ w, 0)),
        (.vminI, fun x y => (if signExt y w < signExt x w then y else x, 0)), (.vminN, fun x y => (if y < x then y else x, 0)),
        (.vmaxI, fun x y => (if signExt x w < signExt y w then y else x, 0)), (.vmaxN, fun x y => (if x < y then y else x, 0)),
        (.vsll, fun x y => (x * 2 ^ (y % w) % 2 ^ w, 0)), (.vsrl, fun x y => (x / 2 ^ (y % w), 0)),
        (.vsra, fun x y => (wrapNat w (signExt x w / (2 ^ (y % w) : Nat)), 0)),
        (.vand, fun x y => (x &&& y, 0)), (.vor, fun x y => (x ||| y, 0)), (.vxor, fun x y => (x ^^^ y, 0)),
        (.vandn, fun x y => (x &&& (2 ^ w - 1 - y), 0)),
        (.vaddsI, fun x y => saturate w true (signExt x w + signExt y w)), (.vaddsN, fun x y => saturate w false ((x : Int) + y)),
        (.vsubsI, fun x y => saturate w true (signExt x w - signExt y w)), (.vsubsN, fun x y => saturate w false ((x : Int) - y))] →
      ∀ o : V3R, (o.pg = none ∨ shapeN s.seq.vshape ≤ 512) →
      canIssueV (vslot e) (.v o.vd) (srcs3 o.vs1 o.vs2 o.q o.pg) (queueNo o.q o.vs2) o.dup (latQ s 5 o.q) s →
      computes (mk e o) e o.dup (.v o.vd) (queueNo o.q o.vs2) (latQ s 5 o.q) (occOf s 512)
        (vecResult s o.pg o.zm o.vd (fun i => f (elem (readV s o.vs1).toNat (w / 8) i) (elem (secondOperand s o.q o.dup o.vs2) (w / 8) i))) s)
    ∧ (∀ (mk : VEng → V2R → Instr) (f : Nat → Nat × BitVec 7),
      (mk, f) ∈ [(Instr.vabs, fun x => saturate w true (signExt x w).natAbs), (.vnot, fun x => (2 ^ w - 1 - x, 0)), (.vmov, fun x => (x, 0))] →
      ∀ o : V2R, (o.pg = none ∨ shapeN s.seq.vshape ≤ 512) →
      canIssueV (vslot e) (.v o.vd) (srcs3 o.vs1 o.vs1 false o.pg) none o.dup (lat s 5) s →
      computes (mk e o) e o.dup (.v o.vd) none (lat s 5) (occOf s 512)
        (vecResult s o.pg o.zm o.vd (fun i => f (elem (readV s o.vs1).toNat (w / 8) i))) s)
    ∧ (∀ o : V3R, (o.pg = none ∨ shapeN s.seq.vshape ≤ 512) →
      canIssueV (vslot e) (.v o.vd) (srcs3 o.vs1 o.vs2 o.q o.pg) (queueNo o.q o.vs2) o.dup (latQ s 5 o.q) s →
      computes (.vsel e o) e o.dup (.v o.vd) (queueNo o.q o.vs2) (latQ s 5 o.q) (occOf s 512)
        (regOf (w / 8) ((List.range (shapeN s.seq.vshape)).map (fun i => if activeAt s o.pg i then elem (readV s o.vs1).toNat (w / 8) i
          else elem (secondOperand s o.q o.dup o.vs2) (w / 8) i)), 0) s)

/-- R182, R183, R188, R190: each floating operation, on F16 or F32 elements for the vf forms and on BF16 for the vbf forms, by the
arithmetic of R69 with its flags ORed over the active elements; another element width is ILLEGAL_SHAPE. -/
def Obligations.vector_floating_operations_complete : Prop :=
  ∀ (s : State) (e : VEng) (o : V3R) (b : Nat), b = shapeB s.seq.vshape →
    ∀ (mk : VEng → V3R → Instr) (bf : Bool) (f : FFormat → Nat → Nat → Nat → Nat × BitVec 7),
      (mk, bf, f) ∈ [(Instr.vfadd, false, fun v x y _ => fpAdd v (decodeF v x) (decodeF v y)),
        (.vfsub, false, fun v x y _ => fpAdd v (decodeF v x) (decodeF v y).negate),
        (.vfmul, false, fun v x y _ => fpMul v (decodeF v x) (decodeF v y)),
        (.vfma, false, fun v x y z => fpFma v (decodeF v x) (decodeF v y) (decodeF v z)),
        (.vfms, false, fun v x y z => fpFma v (decodeF v x) (decodeF v y) (decodeF v z).negate),
        (.vfnma, false, fun v x y z => fpFma v (decodeF v x).negate (decodeF v y) (decodeF v z)),
        (.vfmin, false, fun v x y _ => fpPick v false x y), (.vfmax, false, fun v x y _ => fpPick v true x y),
        (.vbfadd, true, fun v x y _ => fpAdd v (decodeF v x) (decodeF v y)),
        (.vbfsub, true, fun v x y _ => fpAdd v (decodeF v x) (decodeF v y).negate),
        (.vbfmul, true, fun v x y _ => fpMul v (decodeF v x) (decodeF v y)),
        (.vbfma, true, fun v x y z => fpFma v (decodeF v x) (decodeF v y) (decodeF v z)),
        (.vbfms, true, fun v x y z => fpFma v (decodeF v x) (decodeF v y) (decodeF v z).negate),
        (.vbfnma, true, fun v x y z => fpFma v (decodeF v x).negate (decodeF v y) (decodeF v z)),
        (.vbfmin, true, fun v x y _ => fpPick v false x y), (.vbfmax, true, fun v x y _ => fpPick v true x y)] →
      canIssueV (vslot e) (.v o.vd) (srcs3 o.vs1 o.vs2 o.q o.pg) (queueNo o.q o.vs2) o.dup (latQ s 6 o.q) s →
      ((b = 2 ∨ b = 4 ∧ bf = false) → (o.pg = none ∨ shapeN s.seq.vshape ≤ 512) →
        ∀ v : FFormat, v = (if bf then bf16 else if b = 2 then f16 else f32) →
        computes (mk e o) e o.dup (.v o.vd) (queueNo o.q o.vs2) (latQ s 6 o.q) (occOf s 512)
          (vecResult s o.pg o.zm o.vd (fun i => f v (elem (readV s o.vs1).toNat b i) (elem (secondOperand s o.q o.dup o.vs2) b i)
            (elem (readV s o.vd).toNat b i))) s)
      ∧ (b = 1 ∨ b = 4 ∧ bf = true → exec (mk e o) s = .next (traps (vslot e) (trapWord cIllegalShape (vslot e) (wordOfInstr s (mk e o))) s))

/-- R85, R194, R195: a compare writes a predicate whose bit i is the condition on the elements where active and 0 elsewhere; a
reduction writes each row's, or column's, result by the fixed tree at its first element, whatever its predicate bit. -/
def Obligations.compares_and_reductions_complete : Prop :=
  ∀ (s : State) (e : VEng) (b n : Nat), b = shapeB s.seq.vshape → n = shapeN s.seq.vshape →
    (∀ (mk : VEng → VCP → Instr) (cls : Nat) (f : Cond → Nat → Nat → Bool × BitVec 7),
      ((mk, cls, f) ∈ [(Instr.vcmpI, 5, fun c x y => (intCond true c (8 * b) x y, 0)), (.vcmpN, 5, fun c x y => (intCond false c (8 * b) x y, 0))]
        ∨ b ≠ 1 ∧ mk = .vcmpF ∧ cls = 6 ∧ f = (fun c x y => fpCond c (decodeF (if b = 2 then f16 else f32) x) (decodeF (if b = 2 then f16 else f32) y))
        ∨ b = 2 ∧ mk = .vcmpBf ∧ cls = 6 ∧ f = (fun c x y => fpCond c (decodeF bf16 x) (decodeF bf16 y))) →
      ∀ o : VCP, n ≤ 512 →
      canIssueV (vslot e) (.p o.pd) (srcs3 o.vs1 o.vs2 false o.pg) none false (lat s cls) s →
      ∀ g : Nat → Bool × BitVec 7, g = (fun i => f o.cond (elem (readV s o.vs1).toNat b i) (elem (readV s o.vs2).toNat b i)) →
      ∃ p : PReg, (∀ i, i < 512 → p.getLsbD i = (decide (i < n) && activeAt s o.pg i && (g i).1))
        ∧ starts (mk e o) (vslot e) (.p o.pd) (.p p) (((List.range n).filter (activeAt s o.pg)).foldl (fun a i => a ||| (g i).2) 0)
          none (lat s cls) (occOf s 512) s)
    ∧ (∀ (mk : VEng → VRed → Instr) (cls : Nat) (neutral : RedOp → Nat) (node : RedOp → Nat → Nat → Nat × BitVec 7)
        (last : RedOp → Nat × BitVec 7 → Nat × BitVec 7),
      ((mk, cls, neutral, node, last) ∈ [(Instr.vredI, 5, fun p => neutralInt true p (8 * b), fun p => nodeInt true p (8 * b), fun _ r => r),
          (.vredN, 5, fun p => neutralInt false p (8 * b), fun p => nodeInt false p (8 * b), fun _ r => r)]
        ∨ b = 4 ∧ mk = .vredF ∧ cls = 6 ∧ neutral = neutralF f32 ∧ node = nodeF f32 ∧ last = (fun _ => canonical f32)
        ∨ b = 2 ∧ mk = .vredBf ∧ cls = 6 ∧ neutral = neutralF bf16 ∧ node = nodeF bf16 ∧ last = (fun _ => canonical bf16)) →
      ∀ o : VRed, (o.pg = none ∨ n ≤ 512) → canIssueV (vslot e) (.v o.vd) (srcs3 o.vs1 o.vs1 false o.pg) none o.dup (lat s cls) s →
      ∀ (cols rows : Nat) (inp : Nat → Nat) (red : List Nat → Nat × BitVec 7), cols = shapeCols s.seq.vshape → rows = shapeRows s.seq.vshape →
      inp = (fun i => if activeAt s o.pg i then elem (readV s o.vs1).toNat b i else neutral o.op) →
      red = (fun l => last o.op (tree (node o.op) 12 l)) →
      ∃ (v : VReg) (fl : BitVec 7), computes (mk e o) e o.dup (.v o.vd) none (lat s cls) (occOf s 512) (v, fl) s
        ∧ fl = (if o.cols then (List.range cols).foldl (fun a c => a ||| (red ((List.range rows).map (fun r => inp (r * cols + c)))).2) 0
          else (List.range rows).foldl (fun a r => a ||| (red ((List.range cols).map (fun c => inp (r * cols + c)))).2) 0)
        ∧ (shapeOk s.seq.vshape = true →
          (o.cols = false → ∀ r, r < rows → elem v.toNat b (r * cols) = (red ((List.range cols).map (fun c => inp (r * cols + c)))).1 % 2 ^ (8 * b))
          ∧ (o.cols = true → ∀ c, c < cols → elem v.toNat b c = (red ((List.range rows).map (fun r => inp (r * cols + c)))).1 % 2 ^ (8 * b))
          ∧ (o.cols = false → ∀ i, i < n → i % cols ≠ 0 → elem v.toNat b i = if o.zm then 0 else elem (readV s o.vd).toNat b i)
          ∧ (o.cols = true → ∀ i, i < n → cols ≤ i → elem v.toNat b i = if o.zm then 0 else elem (readV s o.vd).toNat b i)))

/-- R192, R193, R196: fills, VSETSHAPE and the predicate operations. VSETSHAPE writes the shape in its issue cycle; a value with a
reserved bit is ILLEGAL_OP, a shape that cannot be held ILLEGAL_SHAPE. -/
def Obligations.fills_shapes_and_predicates_complete : Prop :=
  ∀ (s : State) (e : VEng) (b n : Nat), b = shapeB s.seq.vshape → n = shapeN s.seq.vshape →
    (∀ vd imm, canIssueV (vslot e) (.v vd) [] none false (lat s 5) s → starts (.vbcast e vd imm) (vslot e) (.v vd)
      (.v (regOf b (List.replicate n (if b = 4 then (imm.signExtend 32).toNat else imm.toNat)))) 0 none (lat s 5) (occOf s 512) s)
    ∧ (∀ vd xs, xEmpty s xs = false → canIssueV (vslot e) (.v vd) [] none false (lat s 5) s → starts (.vbcx e vd xs) (vslot e) (.v vd)
      (.v (regOf b (List.replicate n (readX s xs).toNat))) 0 none (lat s 5) (occOf s 512) s)
    ∧ (∀ xs, xEmpty s xs = false → s.cyc.isSome = true → busyOf s (vslot e) ≤ s.pipe.wall → ∀ w : Word, w = readX s xs →
      (w.toNat < 2 ^ 20 → shapeOk (w.setWidth 20) = true → exec (.vsetshape e xs) s = .next
        (push (Flight.start (occupy (vslot e) 1 s) (vslot e) .vshape (.x w) 1) (occupy (vslot e) 1 s)))
      ∧ (2 ^ 20 ≤ w.toNat → exec (.vsetshape e xs) s = .next (traps (vslot e) (trapOp (vslot e) (wordOfInstr s (.vsetshape e xs))) s))
      ∧ (w.toNat < 2 ^ 20 → shapeOk (w.setWidth 20) = false →
        exec (.vsetshape e xs) s = .next (traps (vslot e) (trapWord cIllegalShape (vslot e) w.toNat) s)))
    ∧ (∀ (mk : VEng → VPR → Instr) (f : PReg → PReg → PReg), (mk, f) ∈ [(Instr.pand, fun x y => x &&& y), (.por, fun x y => x ||| y), (.pxor, fun x y => x ^^^ y)] →
      ∀ o : VPR, canIssueV (vslot e) (.p o.pd) [.p o.pa, .p o.pb] none false (lat s 5) s →
      starts (mk e o) (vslot e) (.p o.pd) (.p (f (readP s o.pa) (readP s o.pb))) 0 none (lat s 5) 1 s)
    ∧ (∀ pd pa, canIssueV (vslot e) (.p pd) [.p pa] none false (lat s 5) s →
      starts (.pnot e pd pa) (vslot e) (.p pd) (.p (~~~readP s pa)) 0 none (lat s 5) 1 s)
    ∧ (∀ (pd : Fin 48) (k : Fin 513), canIssueV (vslot e) (.p pd) [] none false (lat s 5) s → ∃ p : PReg, (∀ i, i < 512 → p.getLsbD i = decide (i < k.val))
      ∧ starts (.pset e pd k) (vslot e) (.p pd) (.p p) 0 none (lat s 5) 1 s)
    ∧ (∀ xd pa, canIssueV (vslot e) (xDest xd) [.p pa] none false (lat s 5) s → starts (.pcount e xd pa) (vslot e) (xDest xd)
      (.x (BitVec.ofNat 64 ((List.range 512).filter (fun i => (readP s pa).getLsbD i)).length)) 0 none (lat s 5) 1 s)

/-- R197 to R202: VCVT, VUNP3 and VPACK. VCVT decodes the source's elements and narrows them with its rounding mode and sat; a block
format takes a row's scale and extra value from the companion register and writes them there. A strict conversion of a value that is
no number is BAD_DATA. VPACK halves the width with signed saturation, the elements of vs1 first. -/
def Obligations.conversions_complete : Prop :=
  ∀ (s : State) (e : VEng) (n cols rows : Nat), n = shapeN s.seq.vshape → cols = shapeCols s.seq.vshape → rows = shapeRows s.seq.vshape →
    (∀ (o : VCV) (src : List Decoded), fmtBytes o.fin n ≤ 2048 → fmtBytes o.fout n ≤ 2048 →
      (isBlock o.fin = true ∨ isBlock o.fout = true → cols ∈ [16, 32, 64]) →
      canIssueV (vslot e) (if isBlock o.fout then .vv o.vd else .v o.vd)
        (.v o.vs1 :: if isBlock o.fin then [.v (companion o.vs1)] else []) none false (lat s 7) s →
      src = cvtSource s o.fin n cols o.vs1 →
      (o.strict = true → (∃ d ∈ src, d.bad = true) → exec (.vcvt e o) s = .next (traps (vslot e) (trapAt cBadData (vslot e) 0) s))
      ∧ ((o.strict = true → ∀ d ∈ src, d.bad = false) → ∀ fl : BitVec 7, fl = src.foldl (fun a d => a ||| d.flags) 0 →
        (isBlock o.fout = false → ∀ es, es = src.map (fun d => narrowPlain o.fout o.rnd o.sat d.val) →
          starts (.vcvt e o) (vslot e) (.v o.vd) (.v (BitVec.ofNat 16384 (packCodes o.fout (es.map (·.1)))))
            (es.foldl (fun a x => a ||| x.2) fl) none (lat s 7) (ceilDiv (max (fmtBytes o.fin n) (fmtBytes o.fout n)) 512) s)
        ∧ (isBlock o.fout = true → ∀ bs, bs = (rowsOf rows cols (src.map (·.val))).map (encodeBlock o.fout o.rnd) →
          starts (.vcvt e o) (vslot e) (.vv o.vd)
            (.vv (BitVec.ofNat 16384 (packCodes o.fout (bs.flatMap (fun b => b.2.2.1))))
              (BitVec.ofNat 16384 (packCodes .n16 (bs.map (fun b => b.1 + 256 * b.2.1)))))
            (bs.foldl (fun a b => a ||| b.2.2.2) fl) none (lat s 7) (ceilDiv (max (fmtBytes o.fin n) (fmtBytes o.fout n)) 512) s)))
    ∧ (∀ vd vs1 fout strict w1, fout ∈ [Fmt.i8, .i16, .i32] → fmtBytes fout n ≤ 2048 → canIssueV (vslot e) (.v vd) [.v vs1] none false (lat s 7) s →
      ∀ src : List Decoded, src = (List.range n).map (decodePlain .t3p (readV s vs1).toNat) →
      (strict = true → (∃ d ∈ src, d.bad = true) →
        exec (.vunp3 e vd vs1 fout strict w1) s = .next (traps (vslot e) (trapAt cBadData (vslot e) 0) s))
      ∧ ((strict = true → ∀ d ∈ src, d.bad = false) → starts (.vunp3 e vd vs1 fout strict w1) (vslot e) (.v vd)
        (.v (BitVec.ofNat 16384 (packCodes fout (src.map (fun d => (narrowPlain fout .rne false d.val).1)))))
        (src.foldl (fun a d => a ||| d.flags) 0) none (lat s 7) (ceilDiv (max (fmtBytes .t3p n) (fmtBytes fout n)) 512) s))
    ∧ (∀ (o : V3R) (b : Nat), b = shapeB s.seq.vshape → (o.pg = none ∨ n ≤ 512) →
      canIssueV (vslot e) (.v o.vd) (srcs3 o.vs1 o.vs2 o.q o.pg) (queueNo o.q o.vs2) o.dup (latQ s 5 o.q) s →
      ∃ (v : VReg) (fl : BitVec 7), computes (.vpack e o) e o.dup (.v o.vd) (queueNo o.q o.vs2) (latQ s 5 o.q) (occOf s 512) (v, fl) s
        ∧ (shapeOk s.seq.vshape = true → ∀ j, j < 2 * n → ∀ i x, i = j % n →
          x = elem (if j < n then (readV s o.vs1).toNat else secondOperand s o.q o.dup o.vs2) b i →
          bits v.toNat (4 * b * j) (4 * b) = if activeAt s o.pg i then (saturate (4 * b) true (signExt x (8 * b))).1
            else if o.zm then 0 else bits (readV s o.vd).toNat (4 * b * j) (4 * b)))


/-! ### Slot F (R206 to R221) -/

/-- R209, R210, R219: the special functions, on F32 elements or, at 16 bits, BF16, DIV, PDEP and PEXT, element by element under R188; a width
of 8 bits is ILLEGAL_SHAPE for the special functions. The result joins those in flight with its flags. -/
def Obligations.function_unit_elements_complete : Prop :=
  ∀ (s : State) (b : Nat) (v : FFormat), b = shapeB s.seq.vshape → v = (if b = 2 then bf16 else f32) →
    (∀ (mk : F2R → Instr) (f : Fp → Nat × BitVec 7),
      (mk, f) ∈ [(Instr.exp2, fpExp2 v), (.log2, fpLog2 v), (.rcp, fun a => fpDiv v (.fin false 1 0) a), (.rsqrt, fpRsqrt v), (.sqrt, fpSqrt v),
        (.tanh, fpTanh v)] →
      ∀ o : F2R, canIssueV .f (.v o.vd) (srcs3 o.vs1 o.vs1 false o.pg) none false (lat s 8) s →
      (b = 1 → exec (mk o) s = .next (traps .f (trapWord cIllegalShape .f (wordOfInstr s (mk o))) s))
      ∧ (b ≠ 1 → (o.pg = none ∨ shapeN s.seq.vshape ≤ 512) → ∀ r : VReg × BitVec 7,
        r = vecResult s o.pg o.zm o.vd (fun i => f (decodeF v (elem (readV s o.vs1).toNat b i))) →
        starts (mk o) .f (.v o.vd) (.v r.1) r.2 none (lat s 8) (occOf s 256) s))
    ∧ (∀ (mk : F3R → Instr) (cls per : Nat) (f : Nat → Nat → Nat × BitVec 7),
      (mk, cls, per, f) ∈ [(Instr.fDiv, 8, 256, fun x y => fpDiv v (decodeF v x) (decodeF v y)),
        (.pdep, 9, 512, fun x y => (depositFrom x y (8 * b) 0 0, 0)), (.pext, 9, 512, fun x y => (extractFrom x y (8 * b) 0, 0))] →
      ∀ o : F3R, canIssueV .f (.v o.vd) (srcs3 o.vs1 o.vs2 o.q o.pg) (queueNo o.q o.vs2) false (latQ s cls o.q) s →
      (b = 1 → cls = 8 → exec (mk o) s = .next (traps .f (trapWord cIllegalShape .f (wordOfInstr s (mk o))) s))
      ∧ (b ≠ 1 ∨ cls = 9 → (o.pg = none ∨ shapeN s.seq.vshape ≤ 512) → ∀ r : VReg × BitVec 7,
        r = vecResult s o.pg o.zm o.vd (fun i => f (elem (readV s o.vs1).toNat b i) (elem (secondOperand s o.q false o.vs2) b i)) →
        starts (mk o) .f (.v o.vd) (.v r.1) r.2 (queueNo o.q o.vs2) (latQ s cls o.q) (occOf s per) s))


/-- R216 to R218, R220, R221: BNLD loads a pattern at the end of its issue cycle; BNET, BMM8, BPERM and VTRN give each element of the shape,
merged or zeroed by R183: BNET's group bits as its pattern selects and inverts them, BMM8's the product over GF(2), BPERM's the indexed
element of its row or 0, VTRN's the transposed one. No flag is set. R219: bit j of a deposit is bit k of the source, k being the number of mask bits below j, where the mask has bit j; an extract packs
the source's bits under the mask. -/
def Obligations.bit_operations_complete : Prop :=
  (∀ (s : State) (b n nb rows cols : Nat), b = shapeB s.seq.vshape → n = shapeN s.seq.vshape → nb = n * b → rows = shapeRows s.seq.vshape →
    cols = shapeCols s.seq.vshape →
    (∀ vs1 pat, canIssueV .f (.pat pat) [.v vs1] none false 1 s →
      starts (.bnld vs1 pat) .f (.pat pat) (.pat ((readV s vs1).extractLsb' 0 512)) 0 none 1 1 s)
    ∧ (∀ o : FNet, (o.pg = none ∨ n ≤ 512) →
      canIssueV .f (.v o.vd) (srcs3 o.vs1 o.vs2 o.q o.pg) (queueNo o.q o.vs2) false (latQ s 9 o.q) s →
      ∀ x y p : Nat, x = (readV s o.vs1).toNat % 2 ^ (8 * nb) → y = secondOperand s o.q false o.vs2 % 2 ^ (8 * nb) → p = (s.regs.pat.get o.pat).toNat →
      ∃ r : Nat, (∀ g j, 8 * g < nb → j < 64 → r.testBit (64 * g + j) =
          xor ((if p.testBit (8 * j + 6) then y else x).testBit (64 * g + bits p (8 * j) 6)) (p.testBit (8 * j + 7)))
        ∧ starts (.bnet o) .f (.v o.vd) (.v (vecResult s o.pg false o.vd (fun i => (elem r b i, 0))).1) 0 (queueNo o.q o.vs2) (latQ s 9 o.q)
          (occOf s 512) s)
    ∧ (∀ o : F3R, (o.pg = none ∨ n ≤ 512) →
      canIssueV .f (.v o.vd) (srcs3 o.vs1 o.vs2 o.q o.pg) (queueNo o.q o.vs2) false (latQ s 9 o.q) s →
      ∀ x y : Nat, x = (readV s o.vs1).toNat → y = secondOperand s o.q false o.vs2 →
      (∃ r : Nat, (∀ g i j, 8 * g < nb → i < 8 → j < 8 → r.testBit (64 * g + 8 * i + j) =
          decide (((List.range 8).filter (fun k => (x % 2 ^ (8 * nb)).testBit (64 * g + 8 * i + k)
            && (y % 2 ^ (8 * nb)).testBit (64 * g + 8 * k + j))).length % 2 = 1))
        ∧ starts (.bmm8 o) .f (.v o.vd) (.v (vecResult s o.pg o.zm o.vd (fun i => (elem r b i, 0))).1) 0 (queueNo o.q o.vs2) (latQ s 9 o.q)
          (occOf s 512) s)
      ∧ (shapeOk s.seq.vshape = true → starts (.bperm o) .f (.v o.vd) (.v (vecResult s o.pg o.zm o.vd (fun i =>
          (if elem y b i < cols then elem x b (i / cols * cols + elem y b i) else 0, 0))).1) 0 (queueNo o.q o.vs2) (latQ s 9 o.q) (occOf s 512) s))
    ∧ (∀ o : F2R, (o.pg = none ∨ n ≤ 512) → shapeOk s.seq.vshape = true →
      canIssueV .f (.v o.vd) (srcs3 o.vs1 o.vs1 false o.pg) none false (lat s 9) s →
      starts (.vtrn o) .f (.v o.vd) (.v (vecResult s o.pg o.zm o.vd (fun k => (elem (readV s o.vs1).toNat b (k % rows * cols + k / rows), 0))).1)
        0 none (lat s 9) (occOf s 512) s))
  ∧ (∀ a m w j k : Nat, j < w → k = ((List.range j).filter m.testBit).length →
    (m.testBit j = true → (depositFrom a m w 0 0).testBit j = a.testBit k ∧ (extractFrom a m w 0).testBit k = a.testBit j)
    ∧ (m.testBit j = false → (depositFrom a m w 0 0).testBit j = false))

/-- R212 to R215: WUPD folds each row's active elements into its record in column order, BF16 widened; WMRG merges two states' records;
WFIN gives mean, variance, rstd and count. Records beyond the rows are 0. More than 128 rows is ILLEGAL_SHAPE, and for WUPD a width
of 8 bits. -/
def Obligations.welford_operations_complete : Prop :=
  ∀ (s : State) (o : F3R) (b rows cols x y z : Nat), b = shapeB s.seq.vshape → rows = shapeRows s.seq.vshape → cols = shapeCols s.seq.vshape →
    x = (readV s o.vs1).toNat → y = secondOperand s o.q false o.vs2 → z = (readV s o.vd).toNat →
    canIssueV .f (.v o.vd) (srcs3 o.vs1 o.vs2 o.q o.pg) (queueNo o.q o.vs2) false (latQ s 10 o.q) s →
    (128 < rows → ∀ mk, mk ∈ [Instr.wupd, .wmrg, .wfin] → exec (mk o) s = .next (traps .f (trapWord cIllegalShape .f (wordOfInstr s (mk o))) s))
    ∧ (rows ≤ 128 → (o.pg = none ∨ shapeN s.seq.vshape ≤ 512) →
      (b = 1 → exec (.wupd o) s = .next (traps .f (trapWord cIllegalShape .f (wordOfInstr s (.wupd o))) s))
      ∧ (b ≠ 1 → ∀ rs : List (Nat × BitVec 7), rs = (List.range rows).map (fun i => welfordRow x i (((List.range cols).filter (fun j =>
          activeAt s o.pg (i * cols + j))).map (fun j => elem y b (i * cols + j) * (if b = 2 then 65536 else 1))) o.zm) →
        starts (.wupd o) .f (.v o.vd) (.v (stateReg (rs.map (·.1)))) (rs.foldl (fun a r => a ||| r.2) 0) (queueNo o.q o.vs2) (latQ s 10 o.q)
          ((cols + 15) / 16) s)
      ∧ (∀ (mk : F3R → Instr) (f : Nat → Nat × BitVec 7),
        (mk, f) ∈ [(Instr.wmrg, fun i => (welfordWord (welfordMerge (welfordAt x i) (welfordAt y i)).1, (welfordMerge (welfordAt x i) (welfordAt y i)).2)),
          (.wfin, fun i => welfordFinish (welfordAt x i) (y % 2 ^ 32))] →
        ∀ rs : List (Nat × BitVec 7), rs = (List.range rows).map (fun i => if activeAt s o.pg i then f i
          else if o.zm then (0, 0) else (bits z (128 * i) 128, 0)) →
        starts (mk o) .f (.v o.vd) (.v (stateReg (rs.map (·.1)))) (rs.foldl (fun a r => a ||| r.2) 0) (queueNo o.q o.vs2) (latQ s 10 o.q) 1 s))


/-! ### The matrix engine and the check slot (R223 to R253, R284 to R291) -/

/-- R228 to R231, R238 to R242, R244, R248: MMA whose shape agrees and whose range passes begins with nothing read, its tile empty from then
on and of its shape; MZERO clears its tile; MWSWAP's toggle lands in its issue cycle; MSTAT gives its word in class 0. A shape that
disagrees is ILLEGAL_SHAPE. R223, R229, R233 to R237: a weight load whose format suits its pack and whose clipped range passes begins: its buffer is marked as
loading, nothing of it is read. MWSTRM reads only sealed pages, through a stream handle, from lines; an address that no seal covers is
PERMISSION; a format that does not suit the pack, or a block length of a page in reach that the engine refuses, is BAD_DATA. R245 to R247: MRET of a tile with a shape, its exponent from −512 to 511 and its range passing, converts every entry and begins to
write the codes, in row-major order and packed; a clear tile leaves it nothing to do; another exponent is BAD_DATA. -/
def Obligations.array_operations_weight_loads_and_retirement_complete : Prop :=
  (∀ s : State, s.cyc.isSome = true →
    (∀ (o : MM) (b : Fin 2) (n : Nat), b = physBuf s o.w →
      n = (o.rows.val + 1) * (o.planes.val + 1) * 32 + (if scaled' o.mode then 8 * (o.rows.val + 1) else 0) →
      (s.mat.tiles.get o.z).busy = false → s.mat.mma = none → bufLoading s b = false → shadowFull (tileShadow o.z) s = false →
      cntReadFull s .m o.h = false → hEmpty s o.h = false → recordsFull s 2 = false → xEmpty s o.xa = false →
      (mmaBad (s.mat.tiles.get o.z) (s.mat.bufs.get b) o.mode (o.rows.val + 1) o.acc = true →
        exec (.mma o) s = .next (traps .m (trapWord cIllegalShape .m (wordOfInstr s (.mma o))) s))
      ∧ (mmaBad (s.mat.tiles.get o.z) (s.mat.bufs.get b) o.mode (o.rows.val + 1) o.acc = false → ∀ xs t,
        checkRange s o.h (readH s o.h) 32 winLocal kindsVec .read (readX s o.xa).toNat n = .ok (xs, t) →
        ∃ u op, exec (.mma o) s = .next u ∧ u.mat.mma = some op ∧ op.z = o.z ∧ op.buf = b ∧ op.ea = (readX s o.xa).toNat ∧ op.h = o.h
          ∧ op.rows = o.rows.val + 1 ∧ op.planes = o.planes.val + 1 ∧ op.mode = o.mode ∧ op.read = [] ∧ op.scales = []
          ∧ op.acc = (o.acc && (s.mat.tiles.get o.z).shape.isSome)
          ∧ (u.mat.tiles.get o.z).busy = true ∧ (u.mat.tiles.get o.z).entries = (t.mat.tiles.get o.z).entries
          ∧ (u.mat.tiles.get o.z).shape = some (o.rows.val + 1, bufCols (s.mat.bufs.get b), scaled' o.mode)
          ∧ (∀ z, z ≠ o.z → u.mat.tiles.get z = t.mat.tiles.get z) ∧ u.mat.bufs = t.mat.bufs ∧ u.mat.map = t.mat.map
          ∧ (cntGet u .m o.h).rd = (cntGet t .m o.h).rd + 1
          ∧ u.seq = t.seq ∧ u.regs = t.regs ∧ u.mem = t.mem ∧ u.pipe = t.pipe))
    ∧ (∀ z : Fin 2, (s.mat.tiles.get z).busy = false → shadowFull (tileShadow z) s = false →
      ∃ u, exec (.mzero z) s = .next u ∧ u.mat.tiles.get z = ⟨none, [], false⟩ ∧ (∀ y, y ≠ z → u.mat.tiles.get y = s.mat.tiles.get y)
        ∧ u.mat.bufs = s.mat.bufs ∧ u.seq = s.seq ∧ u.regs = s.regs ∧ u.mem = s.mem ∧ u.pipe = s.pipe ∧ u.out = s.out)
    ∧ exec .mwswap s = .next (push (Flight.start s .m .map .unit 1) s)
    ∧ (∀ (xd : Fin 32) (sel : Fin 5), canIssueX xd [] 0 s →
      exec (.mstat xd sel) s = .next (postX .m xd (BitVec.ofNat 64 (statWord s sel.val)) 0 s)))
  ∧ (∀ (s : State) (o : MW) (b : Fin 2) (lo total n : Nat) (r : Option Fmt) (pages : List Xlat), s.cyc.isSome = true → b = physBuf s o.w →
    lo = (readX s o.xa).toNat → s.mat.load = none → bufRead s b = false → shadowFull (bufShadow b) s = false →
    cntReadFull s .m o.h = false → hEmpty s o.h = false → xEmpty s o.xa = false →
    r = resolveFmt s o.fmt (readH s o.h) lo → total = fmtBytes (r.getD .page) (128 * packNo o.pack * 256) →
    n = (if regionHi o.h (readH s o.h) s.seq.parity < lo then 1 else min total (regionHi o.h (readH s o.h) s.seq.parity + 1 - lo)) →
    pages = pagesOf s (n / 65536 + 2) lo (lo + n) →
    (loadFmtBad pages r o.pack = true →
      exec (.mwld o) s = .next (traps .m (trapAt cBadData .m lo) s) ∧ exec (.mwstrm o) s = .next (traps .m (trapAt cBadData .m lo) s))
    ∧ (∀ f, r = some f → loadFmtBad pages r o.pack = false → ∀ (mk : MW → Instr) (stream : Bool) (xs : List Xlat) (t v : State),
      (mk, stream) ∈ [(Instr.mwld, false), (.mwstrm, true)] →
      checkRange s o.h (readH s o.h) (if stream then 64 else 32) (if stream then (fun w => w == .global) else winStore)
        (if stream then [3] else kindsVec) .read lo n = .ok (xs, t) →
      (∀ a, stream = true → firstUnsealed s 66 lo (lo + n - 1) = some a →
        exec (mk o) s = .next (traps .m (trapAt cPermission .m a) s))
      ∧ ((stream = true → firstUnsealed s 66 lo (lo + n - 1) = none) →
        checkMetas o.h (readH s o.h) (if stream then (fun w => w == .global) else winStore) (if stream then [3] else kindsVec) lo
          (loadMetas pages f lo n total) t = .ok v →
        ∃ u op, exec (mk o) s = .next u ∧ u.mat.load = some op ∧ op.buf = b ∧ op.stream = stream ∧ op.lo = lo ∧ op.hi = lo + n - 1
          ∧ op.size = total ∧ op.h = o.h ∧ op.fmt = f ∧ op.pack = o.pack ∧ op.rnd = o.rnd ∧ op.sat = o.sat ∧ op.strict = o.strict
          ∧ op.read = [] ∧ op.lost = [] ∧ u.mat.bufs.get b = { v.mat.bufs.get b with loading := true }
          ∧ (∀ c, c ≠ b → u.mat.bufs.get c = v.mat.bufs.get c) ∧ u.mat.tiles = v.mat.tiles ∧ u.mat.map = v.mat.map
          ∧ (cntGet u .m o.h).rd = (cntGet v .m o.h).rd + 1
          ∧ u.seq = v.seq ∧ u.regs = v.regs ∧ u.mem = v.mem ∧ u.pipe = v.pipe)))
  ∧ (∀ (s : State) (o : MR) (e : Int), s.cyc.isSome = true → e = (readX s o.xs).toInt → (s.mat.tiles.get o.z).busy = false →
    s.mat.ret = none → shadowFull (tileShadow o.z) s = false → cntWriteFull s .m o.h = false → hEmpty s o.h = false → recordsFull s 2 = false →
    xEmpty s o.xa = false → xEmpty s o.xs = false →
    (e < -512 ∨ 511 < e → exec (.mret o) s = .next (traps .m (trapAt cBadData .m 0) s))
    ∧ (-512 ≤ e → e ≤ 511 → (s.mat.tiles.get o.z).shape = none → exec (.mret o) s = .next s)
    ∧ (-512 ≤ e → e ≤ 511 → ∀ rows cols fp, (s.mat.tiles.get o.z).shape = some (rows, cols, fp) → ∀ xs t,
      checkRange s o.h (readH s o.h) 32 winStore kindsVec .write (readX s o.xa).toNat (fmtBytes o.fout (rows * cols)) = .ok (xs, t) →
      ∃ u op, exec (.mret o) s = .next u ∧ u.mat.ret = some op ∧ op.z = o.z ∧ op.base = (readX s o.xa).toNat ∧ op.h = o.h
        ∧ op.bytes = leBytes (fmtBytes o.fout (rows * cols)) (packCodes o.fout ((List.range (rows * cols)).map (fun i =>
          (retire o e fp (tileEntry (s.mat.tiles.get o.z) cols (i / cols) (i % cols))).1)))
        ∧ op.due = s.pipe.wall + lat s 12 ∧ u.mat.tiles.get o.z = { t.mat.tiles.get o.z with busy := true }
        ∧ (∀ z, z ≠ o.z → u.mat.tiles.get z = t.mat.tiles.get z) ∧ u.mat.bufs = t.mat.bufs
        ∧ (cntGet u .m o.h).wd = (cntGet t .m o.h).wd + 1
        ∧ u.seq = t.seq ∧ u.regs = t.regs ∧ u.mem = t.mem ∧ u.pipe = t.pipe))


/-- R284, R286 to R288, R290, R291: KALU computes on check and scalar registers in class 13; a comparison is made at issue and judged in
class 13, a register against a check register, all 2,048 bytes of two vectors, all 512 bits of two predicates; KSIG hands its word to
the run signature at the end of the issue cycle; KRD reads a check register in class 13. -/
def Obligations.check_operations_complete : Prop :=
  ∀ (s : State) (c : Cycle), s.cyc = some c →
    (∀ (kd : Fin 8) (ka kb : KSrc), (∀ r, r = ka ∨ r = kb → ∀ n, (r = .k n → isEmpty s (.k n) = false)) →
      (∀ r, r = ka ∨ r = kb → ∀ n, (r = .x n → xEmpty s n = false)) → isEmpty s (.k kd) = false → recordsFull s (lat s 13) = false →
      ∀ (a b : Word) (post : Word → State), a = kRead s ka → b = kRead s kb →
      (∀ w, post w = push (Flight.start s .k (.k kd) (.x w) (lat s 13)) s) →
      exec (.kalu .add kd ka kb) s = .next (post (a + b)) ∧ exec (.kalu .sub kd ka kb) s = .next (post (a - b))
      ∧ exec (.kalu .and kd ka kb) s = .next (post (a &&& b)) ∧ exec (.kalu .or kd ka kb) s = .next (post (a ||| b))
      ∧ exec (.kalu .xor kd ka kb) s = .next (post (a ^^^ b)) ∧ exec (.kalu .sll kd ka kb) s = .next (post (a <<< (b.toNat % 64)))
      ∧ exec (.kalu .srl kd ka kb) s = .next (post (a >>> (b.toNat % 64)))
      ∧ exec (.kalu .sra kd ka kb) s = .next (post (a.sshiftRight (b.toNat % 64)))
      ∧ exec (.kalu .slt kd ka kb) s = .next (post (if a.toInt < b.toInt then 1 else 0)))
    ∧ (∀ ka xb w, isEmpty s (.k ka) = false → xEmpty s xb = false → exec (.kchkX ka xb w) s = .next (push (Flight.start s .k
        (.check (BitVec.ofNat 32 (wordOfInstr s (.kchkX ka xb w))) s.seq.gmode) (.cmp (decide (readK s ka = readX s xb))) (lat s 13)) s))
    ∧ (∀ va vb, isEmpty s (.v va) = false → isEmpty s (.v vb) = false → exec (.kchkV va vb) s = .next (push (Flight.start s .k
        (.check (BitVec.ofNat 32 (wordOfInstr s (.kchkV va vb))) s.seq.gmode) (.cmp (decide (readV s va = readV s vb))) (lat s 13)) s))
    ∧ (∀ pa pb, isEmpty s (.p pa) = false → isEmpty s (.p pb) = false → exec (.kchkP pa pb) s = .next (push (Flight.start s .k
        (.check (BitVec.ofNat 32 (wordOfInstr s (.kchkP pa pb))) s.seq.gmode) (.cmp (decide (readP s pa = readP s pb))) (lat s 13)) s))
    ∧ (∀ xs, xEmpty s xs = false → exec (.ksig xs) s = .next { s with cyc := some { c with ksig := some (readX s xs) } })
    ∧ (∀ xd ka, isEmpty s (.k ka) = false → canIssueX xd [] 13 s → exec (.krd xd ka) s = .next (postX .k xd (readK s ka) 13 s))


/-! ### The copy engine's words (R255 to R279) -/

/-- R258, R259, R263, R272: DLVL sets a level of the nest, DPAD the fill slot, and DGCFG, while no stream runs, the streams'
configuration and data handles, each at the landing of its issue cycle; an operand out of its limits is BAD_DATA with `tval` 0 in its
address. -/
def Obligations.copy_settings_complete : Prop :=
  ∀ s : State, s.cyc.isSome = true →
    (∀ (l : Fin 6) (xc xss xsd : Fin 32), xEmpty s xc = false → xEmpty s xss = false → xEmpty s xsd = false →
      (65535 < (readX s xc).toNat ∨ strideOk (readX s xss) = false ∨ strideOk (readX s xsd) = false →
        exec (.dlvl l xc xss xsd) s = .next (traps .d badOperand s))
      ∧ ((readX s xc).toNat ≤ 65535 → strideOk (readX s xss) = true → strideOk (readX s xsd) = true →
        exec (.dlvl l xc xss xsd) s = .next (push (Flight.start s .d (.level l)
          (.lvl ⟨(readX s xc).toNat, (readX s xss).toInt, (readX s xsd).toInt⟩) 1) s)))
    ∧ (∀ xv, xEmpty s xv = false → exec (.dpad xv) s = .next (push (Flight.start s .d .fillSlot (.x (readX s xv)) 1) s))
    ∧ (∀ (hs hd : Fin 16) (xc : Fin 32) (v size elems : Nat), xEmpty s xc = false → s.cpy.gather = none → s.cpy.scatter = none →
      v = (readX s xc).toNat → size = 2 ^ bits v 0 2 → elems = bits v 2 10 + 1 →
      (2 ^ 14 ≤ v ∨ 512 < elems ∨ 2048 < elems * size → exec (.dgcfg hs hd xc) s = .next (traps .d badOperand s))
      ∧ (v < 2 ^ 14 → elems ≤ 512 → elems * size ≤ 2048 →
        exec (.dgcfg hs hd xc) s = .next (push (Flight.start s .d (.gcfg hs hd) (.x (BitVec.ofNat 64 v)) 1) s)))

/-- R257, R258, R261 to R269: a DCOPY within its limits, its formats and its boxes passing their checks, joins the command queue with
the nest, fill slot, handles and operands that it captures; an add-int copy waits for its commit as a held-back effect and the others
are queued and counted; a bound destination handle adds the increment, by the bytes that the copy writes, to the held-back list. A
length or a total out of its limit is BAD_DATA. -/
def Obligations.copies_complete : Prop :=
  ∀ (s : State) (o : DC) (mk : DC → Instr) (m : CopyMode) (len : Nat), s.cyc.isSome = true →
    (mk, m) ∈ [(Instr.dcopyCopy, CopyMode.copy), (.dcopyFill, .fill), (.dcopyDecode, .decode), (.dcopyAddint, .addint), (.dcopyClone, .clone)] →
    len = (readX s o.xk).toNat → (m ≠ .fill → xEmpty s o.xs = false) → xEmpty s o.xd = false → xEmpty s o.xk = false →
    (m ≠ .fill → hEmpty s o.hs = false) → hEmpty s o.hd = false →
    queueFull s = false → cntReadFull s .d o.hs = false → cntWriteFull s .d o.hd = false →
    (2 ^ 32 ≤ len ∨ 2 ^ 40 < runCount s.cpy.nest.toList * len → exec (mk o) s = .next (traps .d badOperand s))
    ∧ (len < 2 ^ 32 → runCount s.cpy.nest.toList * len ≤ 2 ^ 40 → ∀ (fs fd : Fmt) (t u : State) (bound : Bool) (key : Nat),
      (if m = .decode then resolveFmt s .page (readH s o.hs) (readX s o.xs).toNat else some .page) = some fs →
      (if m = .decode ∨ m = .addint then resolveFmt s .page (readH s o.hd) (readX s o.xd).toNat else some .page) = some fd →
      (∀ first, first = (if 0 < len ∧ 0 < runCount s.cpy.nest.toList then ((insideBox o.hs (readH s o.hs) s.seq.parity
          (nestSpan (·.ss) s.cpy.nest.toList (readX s o.xs) (runReads m fs .page len))).head?.map (·.1)).getD (readX s o.xs).toNat
        else (readX s o.xs).toNat) → copyFmtBad s m (some fs) (some fd) first = false) →
      (0 < len ∧ 0 < runCount s.cpy.nest.toList → checkCopy m o fs fd len s = .ok t) →
      (len = 0 ∨ runCount s.cpy.nest.toList = 0 → t = s) →
      bound = (decide (o.hd ≠ 15) && hCounter (readH s o.hd) != 0) →
      (bound = true → checkCounter (hCounter (readH s o.hd)) t = .ok (key, u)) → (bound = false → u = t) →
      s.out.heldBack.length ≤ 62 → (m = .addint → heldInUse s < 2) →
      ∃ v c, exec (mk o) s = .next v ∧ v.cpy.cmds = u.cpy.cmds ++ [c]
        ∧ c.kind = .copy m ∧ c.nest = u.cpy.nest.toList ∧ c.fill = u.cpy.fill ∧ c.hs = o.hs ∧ c.hd = o.hd
        ∧ c.ds = readH u o.hs ∧ c.dd = readH u o.hd ∧ c.src = readX s o.xs ∧ c.dst = readX s o.xd ∧ c.len = len ∧ c.fs = fs ∧ c.fd = fd
        ∧ c.stage = (if m = .addint then .held else .queued) ∧ c.parity = u.seq.parity ∧ c.written = 0 ∧ c.buf = []
        ∧ v.out.heldBack.map (·.body) = u.out.heldBack.map (·.body) ++ (if m = .addint then [.effect (.held c.id (readX s o.xd) len)] else [])
          ++ (if bound then [.effect (.copyInc c.id (BitVec.ofNat 64 (hCounter (readH u o.hd))) key
            (if 0 < len ∧ 0 < runCount s.cpy.nest.toList then runCount s.cpy.nest.toList * runBytes m fd len else 0) (hScope (readH u o.hd)))] else [])
        ∧ (m ≠ .addint → (cntGet v .d o.hd).wd = (cntGet u .d o.hd).wd + 1)
        ∧ v.seq = u.seq ∧ v.regs = u.regs ∧ v.mem = u.mem ∧ v.pipe = u.pipe ∧ v.mat = u.mat)

/-- R272 to R275: DGIDX and DSIDX, with no stream of their kind and their list and region passing their checks, begin a stream: its list,
its count, the element size, elements and queue that DGCFG named, and the fill slot; a count of 2³² or more is BAD_DATA, a list off
4 bytes MISALIGNED. A scatter to a bound handle adds its increment to the held-back list. -/
def Obligations.streams_complete : Prop :=
  ∀ (s : State) (o : DI) (gather : Bool) (mk : DI → Instr) (a n : Nat) (dh : Fin 16), s.cyc.isSome = true →
    (mk, gather) ∈ [(Instr.dgidx, true), (.dsidx, false)] → a = (readX s o.xa).toNat → n = (readX s o.xn).toNat →
    dh = (if gather then s.cpy.gh else s.cpy.sh) → xEmpty s o.xa = false → xEmpty s o.xn = false → hEmpty s o.h = false → hEmpty s dh = false →
    (if gather then s.cpy.gather else s.cpy.scatter) = none → cntReadFull s .g o.h = false → cntReadFull s .g dh = false →
    cntWriteFull s .g dh = false →
    (2 ^ 32 ≤ n → exec (mk o) s = .next (traps .d badOperand s))
    ∧ (n < 2 ^ 32 → a % 4 ≠ 0 → exec (mk o) s = .next (traps .d (trapAt cMisaligned .d a) s))
    ∧ (n < 2 ^ 32 → a % 4 = 0 → ∀ (t u v : State) (xs : List Xlat) (bound : Bool) (key : Nat),
      (0 < n → checkAll o.h (readH s o.h) 4 winStore kindsVec .read [(a, 4 * n)] s = .ok t) → (n = 0 → t = s) →
      checkRange t dh (readH s dh) 1 winStore kindsVec (if gather then .read else .write)
        (if dh = 15 then 0 else regionLo (readH s dh) s.seq.parity (!gather)) 1 = .ok (xs, u) →
      bound = (!gather && decide (dh ≠ 15) && hCounter (readH s dh) != 0) →
      (bound = true → checkCounter (hCounter (readH s dh)) u = .ok (key, v)) → (bound = false → v = u) → s.out.heldBack.length < 64 →
      ∃ w st, exec (mk o) s = .next w ∧ (if gather then w.cpy.gather else w.cpy.scatter) = some st
        ∧ st.list = a ∧ st.count = n ∧ st.pos = 0 ∧ st.bytes = [] ∧ st.ih = o.h ∧ st.dh = dh ∧ st.idesc = readH s o.h ∧ st.ddesc = readH s dh
        ∧ st.esz = 2 ^ bits s.cpy.cfg.toNat 0 2 ∧ st.elems = bits s.cpy.cfg.toNat 2 10 + 1 ∧ st.fill = s.cpy.fill
        ∧ st.queue.val = (if gather then bits s.cpy.cfg.toNat 12 1 else 2 + bits s.cpy.cfg.toNat 13 1)
        ∧ w.out.heldBack.map (·.body) = v.out.heldBack.map (·.body) ++ (if bound then
            [.effect (.scatterInc st.id (BitVec.ofNat 64 (hCounter (readH s dh))) key (n * st.esz) (hScope (readH s dh)))] else [])
        ∧ w.cpy.cmds = v.cpy.cmds ∧ (if gather then w.cpy.scatter = v.cpy.scatter else w.cpy.gather = v.cpy.gather)
        ∧ w.seq = v.seq ∧ w.regs = v.regs ∧ w.mem = v.mem ∧ w.pipe = v.pipe)

/-- R112, R276 to R279: DTINV and DSNAP belong to system level and are queued; DCOLL, its ranges passing their checks, is held back until
its commit; a size word or a format out of its limits is BAD_DATA. -/
def Obligations.markers_collectives_and_snapshots_complete : Prop :=
  ∀ s : State, s.cyc.isSome = true → queueFull s = false →
    (atSystem s = false → exec .dtinv s = .next (traps .d (trapOp .d (wordOfInstr s .dtinv)) s)
      ∧ ∀ o, exec (.dsnap o) s = .next (traps .d (trapOp .d (wordOfInstr s (.dsnap o))) s))
    ∧ (atSystem s = true → ∃ v c, exec .dtinv s = .next v ∧ v.cpy.cmds = s.cpy.cmds ++ [c] ∧ c.kind = .tinv ∧ c.stage = .queued
      ∧ v.seq = s.seq ∧ v.regs = s.regs ∧ v.mem = s.mem ∧ v.pipe = s.pipe ∧ v.out = s.out)
    ∧ (atSystem s = true → ∀ (o : DI) (xs : List Xlat) (t : State) (sp : Nat × Nat), xEmpty s o.xa = false → xEmpty s o.xn = false →
      hEmpty s o.h = false → cntReadFull s .d o.h = false → cntWriteFull s .d 15 = false → sp = readSpan o.h (readH s o.h) s.seq.parity →
      checkRange s 15 h15Descriptor 64 (fun w => w == .global) kindsH15 .write (readX s o.xa).toNat 64 = .ok (xs, t) →
      windowBad t (fun w => w == .global) 4 sp.1 (sp.2 + 1) = none → handleBad t o.h (readH s o.h) [1] false sp.1 (sp.2 + 1) = none →
      ∃ v c, exec (.dsnap o) s = .next v ∧ v.cpy.cmds = t.cpy.cmds ++ [c] ∧ c.kind = .snap ∧ c.stage = .queued ∧ c.hs = o.h
        ∧ c.dst = readX s o.xa ∧ c.len = (readX s o.xn).toNat ∧ c.src = BitVec.ofNat 64 sp.1 ∧ c.link = sp.1 ∧ c.written = 0
        ∧ v.seq = t.seq ∧ v.regs = t.regs ∧ v.mem = t.mem ∧ v.pipe = t.pipe ∧ v.out.heldBack = t.out.heldBack)
    ∧ (∀ (o : DK) (t u : State) (x n root p a : Nat) (r : List (Nat × Nat) × List (Nat × Nat)),
      xEmpty s o.xa = false → xEmpty s o.xn = false → hEmpty s o.h = false →
      cntReadFull s .c o.h = false → cntWriteFull s .c o.h = false → x = (readX s o.xn).toNat → n = bits x 0 32 → root = bits x 41 20 →
      a = (readX s o.xa).toNat → p = (participants s o.scope).length →
      (2 ^ 61 ≤ x ∨ o.kind = .add ∧ (∀ f, resolveFmt s .page (readH s o.h) a = some f → addFmt f = false ∨ n % fmtSize f ≠ 0) →
        exec (.dcoll o) s = .next (traps .d badOperand s))
      ∧ (x < 2 ^ 61 → (o.kind = .add → ∃ f, resolveFmt s .page (readH s o.h) a = some f ∧ addFmt f = true ∧ n % fmtSize f = 0) →
        r = collRanges o.kind (rankOf s o.scope == root) p a n →
        checkAll o.h (readH s o.h) 1 (fun w => w == .spad || w == .global) [1] .read (r.1.filter (fun e => decide (0 < e.2))) s = .ok t →
        checkAll o.h (readH s o.h) 1 (fun w => w == .spad || w == .global) [1] .collWrite (r.2.filter (fun e => decide (0 < e.2))) t = .ok u →
        s.out.heldBack.length < 64 → heldInUse s < 2 →
        ∃ v c, exec (.dcoll o) s = .next v ∧ v.cpy.cmds = u.cpy.cmds ++ [c] ∧ c.kind = .coll o.kind o.scope (bits x 32 9) root n
          ∧ c.stage = .held ∧ c.hs = o.h ∧ c.hd = o.h ∧ c.dst = readX s o.xa ∧ c.len = n
          ∧ v.out.heldBack.map (·.body) = u.out.heldBack.map (·.body) ++ [.effect (.held c.id (readX s o.xa) n)]
          ∧ v.seq = u.seq ∧ v.regs = u.regs ∧ v.mem = u.mem ∧ v.pipe = u.pipe))


/-! ### Units, bundles and steps (R24 to R31, R44, R45, R48 to R51, R118, R125, R141, R142, R145) -/

/-- R24 to R29, R44, R51, R58, R59, R293: in the core's turn a step is what its unit says. A full bundle or a token's entry that passes its checks runs its
eight operations in slot order in one open issue cycle, and `finish` ends it; a slot operation alone is the bundle whose other slots
do nothing; a full bundle of one S word and NOPs is that word's `exec`; a token starts its repetitions and padding is passed. A record of
a Ubrov set is the bundle of its word. An upset of the shadow ALU is noted in the open cycle. -/
def Obligations.step_runs_the_decoded_bundle : Prop :=
  (∀ (s : State) (g : Granule), coreTurn s → fetch s = .bundle g → bundleTrap s g = none →
    (∀ t, runOps exec (bundleOps g) (openBundle g s) = .next t → step s = .next (finish s t))
    ∧ (∀ i t, decodeWord .s (slotWord g 0) = i → (∀ n, 1 ≤ n → n < 8 → slotWord g n = 0) → exec i (openBundle g s) = .next t →
      t.cyc.isSome = true → step s = .next (finish s t) ∧ (slotOf i = some .s → s.pipe.upset = false → step s = exec i s)))
  ∧ (∀ (s : State) (i : Instr) (t : State), s.cyc = none → (slotOf i).isSome = true → exec i (openCycle s) = .next t →
      exec i s = .next (finish s t))
  ∧ (∀ (s : State) (u : Unit'), coreTurn s → s.seq.token = some u → fetch s = .bundle (s.dict.get u.index))
  ∧ (∀ (s : State) (l : List Word) (r : Word), s.seq.token = none → atSystem s = false → s.ubrov = some l → s.seq.pc % 2 = 0 →
      l[s.seq.pc / 2]? = some r → fetch s = .bundle (recordGranule r))
  ∧ (∀ (s : State) (t : Nat), coreTurn s → fetch s = .token t → step s = exec (decodeToken t) s)
  ∧ (∀ s : State, coreTurn s → fetch s = .padding → step s = exec (.token 0 0 false) s)
  ∧ (∀ s : State, exec (.token 0 0 false) s = .next { s with seq := { s.seq with pc := nextFetch s s.seq.pc, reps := 0 } })
  ∧ (∀ (s : State) (rep : Fin 32) (ix : Fin 512) (mark : Bool), ¬(rep = 0 ∧ ix = 0 ∧ mark = false) →
      exec (.token rep ix mark) s = .next { s with seq := { s.seq with token := some ⟨ix, rep, mark⟩ } })

/-- R44, R45, R43, R141, R142: a bundle that fails a check has no effect from any slot but its trap, the first failure in the order of
R44; so do an illegal token, a target inside a bundle and a fetch past the store. At program level the trap saves its cause, `tval` and
the unit's address, resets the system bank and fetches the handler; at system level it stops the core with both causes. -/
def Obligations.bundle_checks_and_traps : Prop :=
  (∀ (s : State) (g : Granule) (t : Trap), coreTurn s → fetch s = .bundle g → bundleTrap s g = some t → step s = .next (trapCycle t s))
  ∧ (∀ s, coreTurn s → fetch s = .inside → step s = .next (trapCycle ⟨0x01, 0, false⟩ s))
  ∧ (∀ s, coreTurn s → fetch s = .pastEnd → step s = .next (trapCycle ⟨0x06, tvalAddr .s s.seq.pc, false⟩ s))
  ∧ (∀ s tok, exec (.illegalToken tok) s = .next (trapCycle ⟨0x01, word tok.toNat, false⟩ s))
  ∧ (∀ s sl w, s.cyc.isSome = true → exec (.unassignedOpcode sl w) s = .next (traps sl ⟨0x02, tvalIssue 1 (slotNo sl) 0 w.toNat, false⟩ s))
  ∧ (∀ (s : State) (g : Granule) (sl : Slot) (i : Instr) (a b : List (Slot × Instr)), bundleOps g = a ++ (sl, i) :: b →
      (∀ o ∈ a, decodeBad s o.2 = false) → decodeBad s i = true →
      bundleTrap s g = some ⟨0x02, tvalIssue 1 (slotNo sl) 0 (slotWord g (slotNo sl)), false⟩)
  ∧ (∀ (s : State) (g : Granule), (∀ o ∈ bundleOps g, decodeBad s o.2 = false) →
      (∀ (x y : Slot) (i j : Instr) (a b c : List (Slot × Instr)), bundleOps g = a ++ (x, i) :: b ++ (y, j) :: c →
        (∃ r, r ∈ clashing i ∧ r ∈ clashing j) → (∀ o ∈ b, ∀ r ∈ clashing i, r ∉ clashing o.2) →
        (∀ p q w, a ++ (x, i) :: b ++ (y, j) :: c = p ++ w :: q → p.length < a.length → ∀ o ∈ q, ∀ r ∈ clashing w.2, r ∉ clashing o.2) →
        bundleTrap s g = some ⟨0x01, tvalIssue 2 (slotNo x) (slotNo y) (slotWord g (slotNo x)), false⟩)
      ∧ (collision (bundleOps g) = none → bundleTrap s g =
          if dupWord (slotWord g 3) = true ∧ (slotWord g 2 ≠ slotWord g 3 - 1 ∨ slotWord g 2 = 0)
            then some ⟨0x01, tvalIssue 3 3 2 (slotWord g 3), false⟩ else none))
  ∧ (∀ (s t : State) (c : Cycle) (sl : Slot) (p : Trap), t.cyc = some c → c.stalled = false → (c.commit = none ∨ commitRoom t = true) →
      c.trap = some (sl, p) → p.code ≠ 0x09 → p.code ≠ 0x0A → finish s t = trapCycle p s)
  ∧ (∀ (s : State) (p : Trap), s.seq.level = .program → ∃ t, trapCycle p s = t ∧ t.seq.level = .system
      ∧ t.seq.tcause = BitVec.ofNat 9 ((if p.deferred then 256 else 0) + p.code.toNat) ∧ t.seq.tval = p.tval.setWidth 60
      ∧ t.seq.tpc = BitVec.ofNat 21 (s.seq.reps % 32 * 2 ^ 16 + s.seq.pc % 2 ^ 16) ∧ t.seq.pc = s.seq.tvec.toNat * 32 ∧ t.seq.token = none
      ∧ t.seq.sx = Vector.replicate 32 0 ∧ t.seq.x = s.seq.x ∧ t.seq.vshape = s.seq.vshape ∧ t.seq.vflags = s.seq.vflags
      ∧ t.seq.mflags = s.seq.mflags ∧ t.seq.phase = s.seq.phase ∧ t.seq.loops = s.seq.loops ∧ t.seq.instret = s.seq.instret
      ∧ t.regs = s.regs ∧ t.mem = s.mem ∧ t.mat = s.mat ∧ t.cpy = s.cpy ∧ t.out = s.out ∧ t.rcv = s.rcv
      ∧ (∀ f ∈ s.pipe.flight, f.sys = false → f ∈ t.pipe.flight))
  ∧ (∀ (s : State) (p : Trap), s.seq.level = .system → ∃ t, trapCycle p s = t
      ∧ t.seq = { s.seq with run := .stopped 1 s.seq.tcause.toNat p.code.toNat } ∧ t.regs = s.regs ∧ t.mem = s.mem ∧ t.out = s.out)

/-- R46, R48, R49, R50: at the end of an issue cycle a result that is not due comes one cycle nearer; a due one whose value is present is in
its destination, its flags ORed in; a due one without its value marks its destination empty, and is in it when the value arrives. A
lone scalar result of one cycle lands in its own cycle, and fetch goes on. -/
def Obligations.results_land : Prop :=
  (∀ (s : State) (f : Flight) (k : Nat), oneFlight s f → f.rem = k + 1 →
    landing s = ({ s with pipe := { s.pipe with flight := [{ f with fresh := false, rem := k }] } }, [], []))
  ∧ (∀ (s : State) (f : Flight), oneFlight s f → f.rem = 0 → f.val.present = false ∨ s.pipe.wall < f.due →
    landing s = ({ s with pipe := { s.pipe with flight := [{ f with fresh := false, late := true }] } }, [], []))
  ∧ (∀ (s : State) (f : Flight), oneFlight s f → f.rem = 0 → f.val.present = true → f.due ≤ s.pipe.wall → ∃ t, (landing s).1 = t ∧ t.pipe.flight = [] ∧ t.mem = s.mem
      ∧ (∀ n w, f.dest = .x n → f.val = .x w → t.seq = { s.seq with
          x := if n = 0 then s.seq.x else s.seq.x.set n.val w, vflags := s.seq.vflags ||| f.vfl, mflags := s.seq.mflags ||| f.mfl }
        ∧ t.regs = s.regs)
      ∧ (∀ n b, f.dest = .v n → f.val = .v b → t.seq = { s.seq with vflags := s.seq.vflags ||| f.vfl, mflags := s.seq.mflags ||| f.mfl }
        ∧ t.regs = { s.regs with v := s.regs.v.set n.val b })
      ∧ (∀ n b, f.dest = .p n → f.val = .p b → t.regs = { s.regs with p := s.regs.p.set n.val b } ∧ t.seq.x = s.seq.x)
      ∧ (∀ n w, f.dest = .k n → f.val = .x w → t.regs = { s.regs with k := s.regs.k.set n.val w } ∧ t.seq.x = s.seq.x)
      ∧ (∀ n g, f.dest = .h n → f.val = .h g → t.regs = (if descriptorOk g = true ∧ n ≠ 15 then { s.regs with h := s.regs.h.set n.val g }
          else s.regs))
      ∧ (∀ w, f.dest = .csr 0x800 → f.val = .x w → t.seq.vshape = w.setWidth 20)
      ∧ (∀ w, f.dest = .csr 0x801 → f.val = .x w → t.seq.vflags = w.setWidth 7 ||| f.vfl)
      ∧ (∀ w, f.dest = .csr 0x802 → f.val = .x w → t.seq.mflags = w.setWidth 3 ||| f.mfl))
  ∧ (∀ (s : State) (f : Flight) (n : Fin 32) (w : Word), s.pipe.flight = [f] → f.late = true → f.sys = false → atSystem s = false →
      saving s = false → f.dest = .x n → f.vfl = 0 → f.mfl = 0 → n ≠ 0 →
      xEmpty s n = true ∧ ∃ t, deliver f.id (.x w) s = t ∧ t.pipe.flight = [] ∧ readX t n = w ∧ xEmpty t n = false
        ∧ (∀ m, m ≠ n → readX t m = readX s m) ∧ t.regs = s.regs ∧ t.mem = s.mem)
  ∧ (∀ (s : State) (rd : Fin 32) (w : Word), quiet s = true → s.rcv.forceDue = false → s.seq.token = none → s.seq.loops = [] → lat s 0 = 1 →
      ∃ t, finish s (postX .s rd w 0 (openCycle s)) = t
        ∧ t.seq = { s.seq with x := if rd = 0 then s.seq.x else s.seq.x.set rd.val w, pc := s.seq.pc + (if s.ubrov.isSome then 2 else 32), reps := 0, instret := s.seq.instret + 1 }
        ∧ t.regs = s.regs ∧ t.mem = s.mem ∧ t.mat = s.mat ∧ t.cpy = s.cpy ∧ t.out = s.out ∧ t.sys = s.sys ∧ t.hub = s.hub
        ∧ t.pipe.flight = [] ∧ t.pipe.issue = s.pipe.issue + 1 ∧ t.cyc = none)

/-- R124, R125, R294, R145: a commit at program level ends the phase: its number rises, PSWAP toggles the parity, the held-back effects go to the
port or, where they must wait, to the pending list, and a checkpoint of the state is taken; a bundle without room for it does not issue.
TRET restores program level and resumes at `tpc`, with the repetitions it names where that is a token. R124, R125, R294, R295: a forced commit acts as PCOMMIT: the phase number rises, the parity stays, the held-back effects go to the port or
the pending list, a checkpoint is taken; without room it waits; the one for the undo log clears its request. A checkpoint stops being
live when the next one is 480 wall cycles old and neither a check nor a rerun needs it; only live ones stay. -/
def Obligations.commits_checkpoints_and_returns : Prop :=
  ((∀ (s : State) (k : CommitKind), atSystem s = false → ∃ t c, commit k s = t
      ∧ t.seq = { s.seq with phase := s.seq.phase + 1, parity := if k = .swap then !s.seq.parity else s.seq.parity }
      ∧ t.out.heldBack = []
      ∧ t.out.port = s.out.port ++ (s.out.heldBack.filter (fun e => !failedInc s e)).filter (fun e => effectReady s e)
      ∧ t.out.pending = s.out.pending ++ (s.out.heldBack.filter (fun e => !failedInc s e)).filter (fun e => !effectReady s e)
      ∧ t.mem = s.mem ∧ t.regs.v = s.regs.v ∧ t.regs.p = s.regs.p ∧ t.regs.h = s.regs.h ∧ t.regs.q = s.regs.q
      ∧ (s.out.heldBack = [] → t.regs = s.regs)
      ∧ t.rcv.commits = s.rcv.commits + 1 ∧ t.rcv.ckpts.head? = some c ∧ c.commit = s.rcv.commits + 1 ∧ c.wall = s.pipe.wall
      ∧ c.issue = s.pipe.issue ∧ c.seq = t.seq ∧ c.regs = t.regs ∧ c.spad = spadOf s.mem ∧ c.flight = s.pipe.flight
      ∧ c.heldBack = [] ∧ c.grants = s.out.grants ∧ c.mat = t.mat ∧ c.cpy = t.cpy)
  ∧ (∀ (s t : State) (c : Cycle), t.cyc = some c → c.commit.isSome = true → commitRoom t = false →
      ∃ u, finish s t = u ∧ u.seq = s.seq ∧ u.regs = s.regs ∧ u.mem = s.mem ∧ u.out.heldBack = s.out.heldBack ∧ u.rcv = s.rcv ∧ u.pipe.done = true)
  ∧ (∀ (s : State), quiet s = true → s.seq.token = none → s.seq.loops = [] → commitRoom s = true →
      ∀ i k, (i = Instr.pcommit ∧ k = CommitKind.commit ∨ i = .pswap ∧ k = .swap) →
      ∃ t, exec i s = .next t ∧ t.seq = { s.seq with
          phase := s.seq.phase + 1, parity := if k = .swap then !s.seq.parity else s.seq.parity, pc := s.seq.pc + (if s.ubrov.isSome then 2 else 32), reps := 0
          instret := s.seq.instret + 1 }
        ∧ t.rcv.commits = s.rcv.commits + 1 ∧ t.out.heldBack = [] ∧ t.mem = s.mem ∧ t.regs.v = s.regs.v)
  ∧ (∀ s : State, s.seq.level = .system → s.rcv.forceDue = false → s.cyc = none → s.pipe.flight = [] →
      ∃ t, exec .tret s = .next t ∧ t.seq.level = .program ∧ t.seq.pc = s.seq.tpc.toNat % 2 ^ 16 ∧ t.seq.reps = (if s.ubrov.isSome = true ∨ isFull s (s.seq.tpc.toNat % 2 ^ 16) = true then 0 else s.seq.tpc.toNat / 2 ^ 16 % 32)
        ∧ t.seq.token = none ∧ t.seq.x = s.seq.x ∧ t.seq.tcause = s.seq.tcause ∧ t.seq.tval = s.seq.tval ∧ t.seq.tpc = s.seq.tpc
        ∧ t.seq.instret = s.seq.instret ∧ t.seq.phase = s.seq.phase ∧ t.seq.run = s.seq.run ∧ t.regs = s.regs ∧ t.mem = s.mem ∧ t.out = s.out))
  ∧ ((∀ (s : State), commitRoom s = true → s.seq.level = .program →
    (∃ t c, exec .forcedCommit s = .next t ∧ t.seq.phase = s.seq.phase + 1 ∧ t.seq.parity = s.seq.parity ∧ t.out.heldBack = []
      ∧ (∃ r, t.rcv.ckpts = c :: r ∧ r.map (·.commit) = (live s).map (·.commit)) ∧ c.commit = s.rcv.commits + 1 ∧ c.wall = s.pipe.wall ∧ c.seq = t.seq ∧ c.regs = t.regs
      ∧ c.spad = spadOf s.mem ∧ t.seq.pc = s.seq.pc ∧ t.seq.x = s.seq.x ∧ t.regs.v = s.regs.v ∧ t.mem = s.mem
      ∧ (s.out.heldBack = [] → t.regs = s.regs ∧ t.out = { s.out with failed := [] } ∧ t.rcv.ckpts = c :: live s))
    ∧ (s.rcv.forceDue = true → ∃ t, exec .forcedCommitUndoLog s = .next t ∧ t.rcv.forceDue = false ∧ t.rcv.forceWait = false
      ∧ t.seq.phase = s.seq.phase + 1 ∧ t.seq.parity = s.seq.parity ∧ t.out.heldBack = [] ∧ t.rcv.commits = s.rcv.commits + 1
      ∧ t.seq.pc = s.seq.pc ∧ t.seq.x = s.seq.x ∧ t.regs.v = s.regs.v ∧ t.mem = s.mem))
  ∧ (∀ (s : State), (commitRoom s = false → exec .forcedCommit s = .next s)
    ∧ (s.rcv.forceDue = false ∨ commitRoom s = false → exec .forcedCommitUndoLog s = .next s))
  ∧ (∀ (s : State) (x : List Ckpt) (c d : Ckpt), s.rcv.ckpts = x ++ [d, c] →
    (∀ k ∈ x ++ [d], k.commit ≠ c.commit) →
    (d.wall + 480 ≤ s.pipe.wall → awaits s c.commit d.commit = false → (∀ r, s.rcv.rerun = some r → r.base ≠ c.commit) →
      ∃ t, exec .checkpointRelease s = .next t ∧ t.rcv.ckpts = live s ∧ (∀ k ∈ t.rcv.ckpts, k.commit ≠ c.commit) ∧ t.seq = s.seq ∧ t.regs = s.regs
        ∧ t.mem = s.mem ∧ t.out = s.out)
    ∧ (s.pipe.wall < d.wall + 480 ∨ awaits s c.commit d.commit = true ∨ (∃ r, s.rcv.rerun = some r ∧ r.base = c.commit) →
      ∃ t, exec .checkpointRelease s = .next t ∧ ∃ k ∈ t.rcv.ckpts, k.commit = c.commit ∧ k.seq = c.seq ∧ k.regs = c.regs))
  ∧ (∀ (s : State), (live s).length = s.rcv.ckpts.length → exec .checkpointRelease s = .next s)
  ∧ (∀ (s : State), s.rcv.ckpts.length ≤ 1 → exec .checkpointRelease s = .next s))


/-! ### Reset, decoding, frames and invariants -/

/-- R10, R13, R28, R47, R137 to R140, R225, R255, R171: what the spec gives a core at reset: its CSRs, every counter 0, no queue entry, no
loop entry, nothing in flight, the fixed dictionary entry 0, the fixed handle h15, the nest and the fill slot, and the empty tiles. -/
def Obligations.reset_state : Prop :=
  ∃ s : State, State.reset = s
    ∧ csrRead s 0x800 = 0x1FFC ∧ shapeRows s.seq.vshape = 4 ∧ shapeCols s.seq.vshape = 512 ∧ shapeB s.seq.vshape = 1
    ∧ (∀ n, n ∈ [0x801, 0x802, 0x803, 0x804, 0x5C1, 0x5C2, 0x5C3, 0x5C4, 0x5C5, 0x5C6, 0x5C7, 0xCC1] → csrRead s n = 0)
    ∧ csrRead s 0xCC0 = 0x1FFFF ∧ csrRead s 0xCC4 = 0x021F573B55374020 ∧ csrRead s 0x5C0 = 200000
    ∧ s.id.pod = 0 ∧ s.id.package = 0 ∧ s.seq.loops = [] ∧ s.pipe.flight = [] ∧ (∀ p h, cntGet s p h = ⟨0, 0, 0, 0⟩) ∧ (∀ n, readQ s n = [])
    ∧ readX s 0 = 0 ∧ readH s 15 = h15Descriptor ∧ s.dict.get 0 = 0x13
    ∧ s.cpy.nest = Vector.replicate 6 ⟨1, 0, 0⟩ ∧ s.cpy.fill = 0 ∧ s.mem = [] ∧ s.links.stage = 0 ∧ s.out.heldBack = [] ∧ s.out.paddock = []

/-- The words that the spec writes out decode to the operations that they stand for, and words that the spec reserves or gives no
operation are refused by name (R24 to R43 and the examples of R36, R122, R125, R127, R129, R132, R135, R145, R157, R173, R178). -/
def Obligations.decode_words : Prop :=
  decodeWord .s 0x00000013 = .addi ⟨0, 0, 0⟩ ∧ decodeWord .s 0x00000011 = .addi ⟨0, 0, 0⟩
  ∧ decodeWord .s 0x0000500B = .pcommit ∧ decodeWord .s 0x0000600B = .pswap ∧ decodeWord .s 0x0000300B = .endOp
  ∧ decodeWord .s 0x0000200B = .lbrk ∧ decodeWord .s 0x0000007B = .tret ∧ decodeWord .s 0x00D6002B = .waitge 12 13
  ∧ decodeWord .s 0x4050202B = .bar .die 5 ∧ decodeWord .s 0x0075335B = .amoaddD ⟨6, 10, 7⟩
  ∧ decodeWord .l 0x63410002 = .fence .sc ⟨.die, 1, 2⟩ ∧ decodeWord .l 0x64620040 = .acqH ⟨.pkg, 2, 0x40⟩
  ∧ decodeWord .l 0x68620010 = .relH ⟨.pkg, 2, 0x10⟩ ∧ decodeWord .l 0x6C020030 = .errfence 2 0x30
  ∧ decodeWord .l 0x28F00003 = .vpush 7 2 (some 3) ∧ decodeWord .l 0x40D20000 = .hset 3 9
  ∧ decodeWord .v0 0x04850856 = .vadd .v0 ⟨4, 5, 1, some 2, true, false, true, true, false⟩
  ∧ decodeWord .v0 0xC5200100 = .vbcast .v0 9 0x0100 ∧ decodeWord .v1 0xD80C0000 = .vsetshape .v1 12
  ∧ decodeWord .v0 0x8D4B67E0 = .vfma .v0 ⟨10, 11, 12, none, false, false, false, false, false⟩
  ∧ decodeWord .v1 0x8D4B67E1 = .vfma .v1 ⟨10, 11, 12, none, false, false, false, false, true⟩
  ∧ decodeWord .f 0x048507E0 = .exp2 ⟨4, 5, none, false, false, false⟩
  ∧ decodeWord .f 0x18C74020 = .fDiv ⟨6, 7, 8, some 1, false, false, false, false⟩
  ∧ decodeWord .m 0x0649FEE6 = .mma ⟨1, 0, 9, 3, 63, 7, .block, true, false⟩
  ∧ decodeWord .d 0x04F3BE00 = .dlvl 1 28 29 30 ∧ decodeWord .d 0x14E51000 = .dgidx ⟨3, 18, 17⟩
  ∧ decodeWord .k 0x04CB3000 = .kalu .add 1 (.x 5) (.x 6) ∧ decodeWord .k 0x15200000 = .ksig 9
  ∧ (∀ sl, sl ≠ .s → decodeWord sl 0 = .nop sl)
  ∧ decodeToken 0x1816 = .token 3 5 true ∧ decodeToken 0x0014 = .token 0 5 false ∧ decodeToken 0x0001 = .illegalToken 1
  ∧ decodeWord .s 0x0000008F = .unassignedOpcode .s 0x0000008F ∧ decodeWord .s 0x5075335B = .unassignedOpcode .s 0x5075335B
  ∧ decodeWord .l 0x28600003 = .unassignedOpcode .l 0x28600003 ∧ decodeWord .f 0x048507E1 = .unassignedOpcode .f 0x048507E1

/-- R25 to R43: every well-formed operation, with every operand at every value its encoding admits, is what its word decodes to in its slot,
S words with either yield mark, and every token is what its bits decode to. -/
def Obligations.decode_encode_agree : Prop := ∀ i : Instr, Sys2Proof.Laws.RoundTrip.Statement i

/-- R46, R48, R142: an operation that does its slot's part in an open bundle writes no register then: no vector, predicate, handle or
check register, no pattern, no program register, CSR or mode; its results land later. Only the loop stack and the stage item change at
issue. CTXLOAD, which replaces the frozen program's state, is the exception. -/
def Obligations.slot_operations_write_no_register_at_issue : Prop :=
  ∀ (i : Instr) (s t : State), (slotOf i).isSome = true → (∀ r, i ≠ .ctxload r) → s.cyc.isSome = true → exec i s = .next t →
    t.regs.v = s.regs.v ∧ t.regs.p = s.regs.p ∧ t.regs.h = s.regs.h ∧ t.regs.k = s.regs.k ∧ t.regs.pat = s.regs.pat
    ∧ t.seq = { s.seq with loops := t.seq.loops, item := t.seq.item, firstItem := t.seq.firstItem } ∧ t.cyc.isSome = true
    ∧ t.code = s.code ∧ t.dict = s.dict ∧ t.id = s.id

/-- The model's form of memory holds at reset: addresses rise and no byte equals what an unlisted one reads (log entry 9). -/
def Obligations.reset_meets_the_memory_invariant : Prop := memoryInv State.reset = true

/-- The model's form of memory, of every address space of R87 and R342 and of each checkpoint's scratchpad (R294), is kept by every step
(log entry 9): equal contents are equal data. -/
def Obligations.every_step_keeps_the_memory_invariant : Prop :=
  ∀ s t : State, memoryInv s = true → step s = .next t → memoryInv t = true


/-! ### What the engines complete (R112, R142, R228, R234 to R249, R267 to R279) -/

/-- R228, R234, R236, R237, R241, R246, R249: an MMA that has read its planes writes its whole tile, each entry of an integer mode being the
old one plus the sum of products, clamped to 32 bits; a weight load fills its buffer, or clears it and raises its first fault as a
deferred trap; an MRET leaves its tile clear. Their flags land then. R267, R268, R271, R273, R275, R276, R278, R279, R112: an add-int copy starts when its entry leaves the Paddock; a copy, a stream, a
collective or a snapshot that is done leaves the engine and posts its record; a gather's whole entry joins its queue and a scatter takes
one; a collective that all have reached completes after a free time in which what it sent is performed; DTINV drops the core's translations. -/
def Obligations.engine_operations_end : Prop :=
  ((∀ (s : State) (z : Fin 2) (op : MmaOp) (b : WBuf) (old : Tile) (c : Nat), s.mat.mma = some op → op.z = z →
    op.read.length = op.rows * op.planes → op.due ≤ s.pipe.wall → b = s.mat.bufs.get op.buf → old = s.mat.tiles.get z → c = bufCols b →
    residueOk op b c = true →
    ∃ t u, exec (.mmaComplete z) s = .next t ∧ t.mat.mma = none ∧ t.mat.tiles.get z = u ∧ u.shape = some (op.rows, c, scaled' op.mode)
      ∧ u.busy = false ∧ u.entries.length = op.rows * c
      ∧ (∀ i n, i < op.rows → n < c → tileEntry u c i n = (passEntry op b i n (if op.acc then tileEntry old c i n else 0)).1)
      ∧ (scaled' op.mode = false → ∀ i n, i < op.rows → n < c → tileEntry u c i n = BitVec.ofInt 32 (max (-2147483648) (min 2147483647
          ((if op.acc then (tileEntry old c i n).toInt else 0)
            + ((List.range 256).map (fun k => activation op i k * weight b (Fin.ofNat 256 k) n)).sum))))
      ∧ t.mat.tiles.get (1 - z) = s.mat.tiles.get (1 - z) ∧ t.mat.bufs = s.mat.bufs ∧ t.mat.load = s.mat.load ∧ t.mat.ret = s.mat.ret
      ∧ t.out = s.out ∧ t.regs = s.regs ∧ t.mem = s.mem ∧ t.seq.x = s.seq.x)
  ∧ (∀ (s : State) (b : Fin 2) (op : LoadOp) (i : Instr), (i, op.stream) ∈ [(Instr.mwldComplete b, false), (.mwstrmComplete b, true)] →
    s.mat.load = some op → op.buf = b → loadTotal op ≤ op.read.length → op.due ≤ s.pipe.wall →
    (loadFault op (leNat op.read) = none → ∃ t, exec i s = .next t ∧ t.mat.load = none ∧ t.mat.bufs.get b = (loadBuf s op).1
      ∧ t.mat.bufs.get (1 - b) = s.mat.bufs.get (1 - b) ∧ t.mat.tiles = s.mat.tiles
      ∧ t.seq = { s.seq with vflags := s.seq.vflags ||| (loadBuf s op).2 }
      ∧ t.out = s.out ∧ t.regs = s.regs ∧ t.mem = s.mem)
    ∧ (∀ a, loadFault op (leNat op.read) = some (0x0D, a) → op.sys = false → takesFaults s →
      ∃ t, exec i s = .next t ∧ t.mat.load = none ∧ t.mat.bufs.get b = WBuf.clear ∧ deferredTaken 0x0D (tvalAddr .m a) s t
        ∧ t.regs = s.regs ∧ t.mem = s.mem))
  ∧ (∀ (s : State) (z : Fin 2) (op : RetOp), s.mat.ret = some op → op.z = z → op.bytes = [] → op.due ≤ s.pipe.wall →
    ∃ t, exec (.mretComplete z) s = .next t ∧ t.mat.ret = none ∧ t.mat.tiles.get z = Tile.clear
      ∧ t.mat.tiles.get (1 - z) = s.mat.tiles.get (1 - z) ∧ t.mat.bufs = s.mat.bufs
      ∧ t.seq = { s.seq with vflags := s.seq.vflags ||| op.vfl, mflags := s.seq.mflags ||| op.mfl } ∧ t.regs = s.regs ∧ t.mem = s.mem))
  ∧ ((∀ (s : State) (n : Nat) (c : DCmd), s.cpy.cmds.find? (fun c => c.id == n && c.stage == .held) = some c → c.kind = .copy .addint →
    (∃ l a m, l ∈ s.out.leaving ∧ l.entry.body = .effect (.held n a m)) →
    ∃ t, exec (.addintCopyStart n) s = .next t
      ∧ t.cpy.cmds = s.cpy.cmds.map (fun d => if d.id = n then { d with stage := .queued } else d)
      ∧ (∀ l ∈ t.out.leaving, l ∈ s.out.leaving ∧ ∀ a m, l.entry.body ≠ .effect (.held n a m)) ∧ t.seq = s.seq ∧ t.regs = s.regs ∧ t.mem = s.mem)
  ∧ (∀ (s : State) (n : Nat) (c : DCmd) (m : CopyMode), s.cpy.cmds.find? (fun c => c.id == n && c.stage == .moved) = some c →
    c.kind = .copy m → accLeft s n (hScope c.dd) = false → recordRoom s →
    ∃ t, exec (.copyComplete n) s = .next t ∧ t.cpy.cmds = s.cpy.cmds.filter (fun d => d.id != n)
      ∧ t.seq = { s.seq with vflags := s.seq.vflags ||| c.flags }
      ∧ t.cpy.events = s.cpy.events ++ (if hKind c.dd = 4 ∧ c.silent = false then [recordOf 1 c.hd c.written] else [])
      ∧ t.regs = s.regs ∧ t.mem = s.mem ∧ t.out = s.out)
  ∧ (∀ (s : State) (g : Stream), s.cpy.gather = some g → recordRoom s →
    (g.count = 0 → ∃ t, exec .gatherEntryDeliver s = .next t ∧ t.cpy.gather = none ∧ t.cpy.events = s.cpy.events ++ [recordOf 2 g.dh 0]
      ∧ t.regs = s.regs ∧ t.mem = s.mem)
    ∧ (0 < g.count → g.elems * g.esz ≤ g.bytes.length → (readQ s g.queue).length < 4 →
      undoBlocked s.rcv.commits (queuePieces g.queue.val ((s.regs.qix.get g.queue).val + (readQ s g.queue).length) (g.elems * g.esz)) s = false → ∃ t, exec .gatherEntryDeliver s = .next t
      ∧ readQ t g.queue = readQ s g.queue ++ [⟨g.elems * g.esz, BitVec.ofNat 16384 (leNat g.bytes)⟩]
      ∧ (∀ q, q ≠ g.queue → readQ t q = readQ s q) ∧ t.regs.v = s.regs.v ∧ t.mem = s.mem ∧ t.seq = s.seq
      ∧ (g.count ≤ g.pos → t.cpy.gather = none ∧ t.cpy.events = s.cpy.events ++ [recordOf 2 g.dh (g.taken + 1)])
      ∧ (g.pos < g.count → t.cpy.events = s.cpy.events ∧ ∃ u, t.cpy.gather = some u ∧ u.bytes = [] ∧ u.entry = g.pos ∧ u.pos = g.pos
          ∧ u.taken = g.taken + 1)))
  ∧ (∀ (s : State) (g : Stream) (e : QEntry) (r : List QEntry), s.cpy.scatter = some g → readQ s g.queue = e :: r → g.open' = false →
    g.pos < g.count → pausing s = false → tinvBefore s g.id = false → undoBlocked s.rcv.commits (headPieces g.queue s) s = false → ∃ t u, exec .scatterEntryTake s = .next t ∧ readQ t g.queue = r
      ∧ (∀ q, q ≠ g.queue → readQ t q = readQ s q) ∧ t.cpy.scatter = some u ∧ u.open' = true ∧ u.entry = g.pos ∧ u.taken = g.taken + 1
      ∧ u.bytes = regBytes e.bytes.toNat 0 (g.elems * g.esz) ∧ t.regs.v = s.regs.v ∧ t.mem = s.mem ∧ t.seq = s.seq)
  ∧ (∀ (s : State) (g : Stream), s.cpy.scatter = some g → g.open' = false → g.count ≤ g.pos → accLeft s g.id (hScope g.ddesc) = false →
    recordRoom s → ∃ t, exec .scatterComplete s = .next t ∧ t.cpy.scatter = none
      ∧ t.cpy.events = s.cpy.events ++ [recordOf 3 g.dh (min g.dropped (2 ^ 20 - 1) * 2 ^ 32 + g.taken % 2 ^ 32)]
      ∧ (∀ e ∈ t.out.heldBack ++ t.out.pending, ∀ a k m sc, e.body = .effect (.scatterInc g.id a k m sc) → m = g.written)
      ∧ t.regs = s.regs ∧ t.mem = s.mem ∧ t.seq = s.seq)
  ∧ (∀ (s : State) (n : Nat) (c : DCmd),
    s.cpy.cmds.find? (fun c => c.id == n && c.kind == .tinv && c.stage == .started && decide (c.due ≤ s.pipe.wall)) = some c →
    ∃ t, exec (.dtinvComplete n) s = .next t ∧ t.sys = { s.sys with tlb := [] }
      ∧ t.cpy = { s.cpy with cmds := s.cpy.cmds.filter (fun d => d.id != n) } ∧ t.seq = s.seq ∧ t.regs = s.regs ∧ t.mem = s.mem ∧ t.out = s.out)
  ∧ (∀ (s : State) (n : Nat) (c : DCmd), s.cpy.cmds.find? (fun c => c.id == n && c.kind == .snap && c.stage == .moved) = some c →
    accLeft s n .pkg = false → recordRoom s → ∃ t, exec (.dsnapComplete n) s = .next t ∧ t.cpy.cmds = s.cpy.cmds.filter (fun d => d.id != n)
      ∧ t.cpy.events = s.cpy.events ++ [recordOf 5 c.hs ((if c.fill = 1 then 2 ^ 51 else 0) + c.written)] ∧ t.seq = s.seq ∧ t.regs = s.regs
      ∧ t.mem = s.mem)
  ∧ (∀ (s u : State) (n : Nat) (c : DCmd) (k : CollKind) (sc : Scope) (id root len : Nat) (src : List (Nat × Nat)) (bs : List Byte),
    s.cpy.cmds.find? (fun c => c.id == n && c.stage == .started && c.link == 0 && decide (c.due ≤ s.pipe.wall)) = some c →
    c.kind = .coll k sc id root len → readFree s = true →
    (sc = .pod → ∀ p ∈ collPeers k s root, admitted s p = true) →
    src = (collRanges k (rankOf s sc == root) (participants s sc).length c.dst.toNat len).1 →
    ∀ w, (∀ p, payLines (src.map (fun e => lineCost e.1 e.2 s)).sum c.roff s = (false, p, w) →
      exec (.dcollContribution n) s = .next { w with cpy := { w.cpy with cmds := w.cpy.cmds.map (fun d => if d.id = n then { d with roff := p } else d) } })
    ∧ (payLines (src.map (fun e => lineCost e.1 e.2 s)).sum c.roff s = (true, 0, w) →
    (src = [] → bs = [] ∧ u = w) → (∀ x m r, src = (x, m) :: r → readRange .c c.hs (m / 64 + 2) x m w = .ok (bs, u)) →
    ∃ t x, exec (.dcollContribution n) s = .next t ∧ x ∈ t.hub.colls ∧ (pkgIndex u, bs) ∈ x.contributed
      ∧ (∀ d ∈ t.cpy.cmds, d.id = n → d.link = x.no + 1) ∧ t.seq = u.seq ∧ t.regs = u.regs ∧ t.mem = u.mem))
  ∧ (∀ (s u : State) (n : Nat) (c : DCmd) (x : Coll) (k : CollKind) (sc : Scope) (id root len : Nat) (l : List (Nat × List Byte)),
    s.cpy.cmds.find? (fun c => c.id == n && c.stage == .started && decide (0 < c.link) && decide (c.due ≤ s.pipe.wall)) = some c →
    s.hub.colls.find? (fun x => x.no + 1 == c.link) = some x → c.kind = .coll k sc id root len → x.failed = false →
    allArrived s sc x = true → (c.woff = 0 → ∃ t d, exec (.dcollComplete n) s = .next t ∧ 1 ≤ d
      ∧ t.cpy.cmds = s.cpy.cmds.map (fun y => if y.id = n then { y with woff := 1, due := s.pipe.wall + d } else y) ∧ t.mem = s.mem)
    ∧ (c.woff ≠ 0 → writeWaits s c = false → writeFree s = true → collResult s sc c x = some l → ∀ w,
      payLines (l.map (fun e => lineCost e.1 e.2.length s)).sum c.roff s = (true, 0, w) → receiveAll c.commit l w = .ok (some u) →
      recordRoom u → ∃ t, exec (.dcollComplete n) s = .next t ∧ t.cpy.cmds = u.cpy.cmds.filter (fun d => d.id != n)
      ∧ t.cpy.events = u.cpy.events ++ [recordOf 4 c.hd id] ∧ t.seq = u.seq ∧ t.regs = u.regs ∧ t.mem = u.mem)))


/-! ### The way out of the core and results on their way (R18, R49, R50, R95, R101 to R105, R124, R132, R142, R169, R175, R300) -/

/-- R18, R95, R101, R124, R300: an entry enters the Paddock when it passes the port, within 64 bytes a cycle and 32 KiB; it leaves 512 wall
cycles after it entered and not before; a committed effect whose writes are performed joins the port; a released store is performed in
its bank, or at the die coherence point and then at its home. R102 to R105, R132, R175, R275: a held-back effect is performed at the home of its location in one step once it may be: an increment and a
release add to their counters, saturating, and an atomic replaces the old value by its operation's and sends it to its register. -/
def Obligations.entries_leave_and_are_performed : Prop :=
  ((∀ (s : State) (e : OutEntry) (r : List OutEntry), s.out.port = e :: r → throttled s = false → s.rcv.rerun = none →
    s.out.portUsed + entrySize e ≤ 64 → paddockBytes s + entrySize e ≤ 32768 →
    exec .paddockEntry s = .next { s with out := { s.out with
      port := r, portUsed := s.out.portUsed + entrySize e, paddock := s.out.paddock ++ [⟨e, s.pipe.wall⟩] } })
  ∧ (∀ (s : State) (e : OutEntry) (r : List OutEntry), s.out.port = e :: r → throttled s = false →
    64 < s.out.portUsed + entrySize e ∨ 32768 < paddockBytes s + entrySize e → exec .paddockEntry s = .next s)
  ∧ (∀ (s : State) (e : PadEntry) (r : List PadEntry), s.out.paddock = e :: r → s.rcv.rerun = none →
    (s.pipe.wall < e.entered + 512 → exec .paddockRelease s = .next s)
    ∧ (e.entered + 512 ≤ s.pipe.wall → (∀ c a n, e.entry.body ≠ .effect (.held c a n)) → ∃ t x y, exec .paddockRelease s = .next t ∧ 0 < x ∧ 0 < y
      ∧ t.out = { s.out with paddock := r, leaving := s.out.leaving ++ [⟨e.entry, s.pipe.wall + x, s.pipe.wall + x + y, false⟩] }
      ∧ t.seq = s.seq ∧ t.regs = s.regs ∧ t.mem = s.mem))
  ∧ (∀ (s : State) (n : Nat) (e : OutEntry), s.out.pending.find? (fun e => e.id == n) = some e →
    (effectReady s e = true → exec (.pendingListRelease n) s = .next { s with out := { s.out with
      pending := s.out.pending.filter (fun x => x.id != n), port := s.out.port ++ [e] } })
    ∧ (effectReady s e = false → exec (.pendingListRelease n) s = .next s))
  ∧ (∀ (s : State) (n : Nat) (l : Leaving) (va key : Nat) (bs : List Byte), leavingAt s n = some l → l.entry.body = .store va key bs →
    (key < tierBase → dieReady s l = true → refusedKey s key = false → ∃ t, exec (.storePerform n) s = .next t
      ∧ t.mem = memPutN s.mem (landKey s key) bs ∧ t.out.leaving = s.out.leaving.filter (fun e => e.entry.id != n)
      ∧ t.seq = s.seq ∧ t.regs = s.regs)
    ∧ (tierBase ≤ key → l.atDie = false → dieReady s l = true → writeFails s key bs.length = none →
      ∀ u, recordWrite va key bs.length s = some u → ∃ t, exec (.storePerform n) s = .next t ∧ t.mem = memPutN u.mem key bs
        ∧ (∀ x ∈ t.out.leaving, x.entry.id = n → x.atDie = true) ∧ t.seq = u.seq ∧ t.regs = u.regs)
    ∧ (tierBase ≤ key → l.atDie = true → homeReady s l = true → ∃ t, exec (.storePerform n) s = .next t ∧ t.mem = s.mem
      ∧ t.out.leaving = s.out.leaving.filter (fun e => e.entry.id != n) ∧ t.seq = s.seq ∧ t.regs = s.regs)
    ∧ (dieReady s l = false → l.atDie = false → exec (.storePerform n) s = .next s)))
  ∧ ((∀ (s : State) (e : OutEntry) (a : Word) (key n : Nat), refusedKey s key = false → homeBad s a.toNat key 8 = none →
    ∀ w, w = leBytes 8 (min (leNat (readHome key 8 s) + n) (2 ^ 64 - 1)) →
    (landKey s key < 0x60000 → ∃ t, counterUp e a key n s = t ∧ t.mem = memPutN s.mem (landKey s key) w ∧ t.seq = s.seq ∧ t.regs = s.regs
      ∧ t.out = s.out)
    ∧ (tierBase ≤ key → ∀ u, recordWrite a.toNat key 8 s = some u → ∃ t, counterUp e a key n s = t ∧ t.mem = memPutN u.mem key w
      ∧ t.seq = u.seq ∧ t.regs = u.regs ∧ t.out = u.out))
  ∧ (∀ (s : State) (n : Nat) (l : Leaving) (c key amount : Nat) (a : Word) (sc : Scope), leavingAt s n = some l →
    l.entry.body = .effect (.copyInc c a key amount sc) ∨ l.entry.body = .effect (.scatterInc c a key amount sc) →
    (effectDue s n sc = true → exec (.counterIncrementPerform n) s = .next (counterUp l.entry a key amount (dropLeaving n s)))
    ∧ (effectDue s n sc = false → exec (.counterIncrementPerform n) s = .next s))
  ∧ (∀ (s : State) (n : Nat) (l : Leaving) (items : List RelItem) (paths : BitVec 5) (hm : BitVec 16), leavingAt s n = some l →
    l.entry.body = .effect (.relh items paths hm) → effectDue s n (widest items) = true →
    exec (.relHPerform n) s = .next (items.foldl (fun t i => counterUp l.entry i.addr i.key 1 t) (dropLeaving n s)))
  ∧ (∀ (s : State) (n : Nat) (l : Leaving) (a b c : Word) (key : Nat) (op : AmoOp) (wide : Bool) (flight : Option Nat) (w : Nat)
      (old x y : BitVec 64) (new : Nat), leavingAt s n = some l →
    l.entry.body = .effect (.atomic a key op wide b c flight) → effectDue s n .pkg = true → refusedKey s key = false →
    w = (if wide then 64 else 32) → homeBad s a.toNat key (w / 8) = none →
    old = (BitVec.ofNat 64 (leNat (readHome key (w / 8) s))) → x = BitVec.ofNat 64 (b.toNat % 2 ^ w) → y = BitVec.ofNat 64 (c.toNat % 2 ^ w) →
    (op = .add → new = (old.toNat + x.toNat) % 2 ^ w) → (op = .and → new = (old &&& x).toNat) → (op = .or → new = (old ||| x).toNat) →
    (op = .xor → new = (old ^^^ x).toNat) → (op = .swap → new = x.toNat) → (op = .cas → new = if old = y then x.toNat else old.toNat) →
    (op = .minn → new = min old.toNat x.toNat) → (op = .maxn → new = max old.toNat x.toNat) →
    (op = .min → new = if signExt old.toNat w ≤ signExt x.toNat w then old.toNat else x.toNat) →
    (op = .max → new = if signExt old.toNat w ≤ signExt x.toNat w then x.toNat else old.toNat) →
    landKey s key < 0x60000 →
    ∃ t, exec (.atomicPerform n) s = .next t ∧ t.mem = memPutN s.mem (landKey s key) (leBytes (w / 8) new)
      ∧ t.out.leaving = s.out.leaving.filter (fun e => e.entry.id != n) ∧ t.seq = s.seq ∧ t.regs = s.regs
      ∧ (∀ f, flight = some f → ∀ g ∈ t.pipe.flight, g.id = f → g.val = .x (BitVec.ofInt 64 (signExt old.toNat w)))
      ∧ (flight = none → t.pipe = s.pipe)))


/-- R49, R50, R142, R169, R408: results land and arrive as their values come, a refused die-window access raises a deferred PERMISSION, and a
deferred fault is taken at program level, held while a handler runs, and a double trap when the handler's own operation faults. -/
def Obligations.arrivals_and_deferred_faults : Prop :=
  (∀ s : State, (landing s).2 = ([], []) → exec .resultLanding s = .next (landing s).1)
  ∧ (∀ (s : State) (f : Flight) (n : Fin 32) (w : Word), takesFaults s →
    f.sys = false → f.dup = none → f.shadow = none → s.pipe.flight = [f] → f.late = true → f.due < s.pipe.wall → f.dest = .x n → n ≠ 0 → f.val = .x w →
    ∃ t, exec (.resultArrival f.id) s = .next t ∧ t.pipe.flight = [] ∧ readX t n = w ∧ (∀ m, m ≠ n → readX t m = readX s m)
      ∧ t.regs = s.regs ∧ t.mem = s.mem)
  ∧ (∀ (s : State) (f : Flight) (r : ReadInfo) (cells : List (Nat × Option Byte)) (sh : LoadShape), s.pipe.flight = [f] → f.late = false →
    f.due ≤ s.pipe.wall → f.val = .load cells sh → f.read = some r → (∀ k, f.dest ≠ .h k) → r.window = none → ∀ p u,
    (payLines (hbmLines (cells.map (·.1))) f.paid s = (false, p, u) →
      exec (.resultArrival f.id) s = .next { u with pipe := { u.pipe with flight := [{ f with paid := p }] } })
    ∧ (payLines (hbmLines (cells.map (·.1))) f.paid s = (true, p, u) → rangeBad u r.va ((cells.map (·.1)).map (landKey u)) = none →
    ∃ t g, exec (.resultArrival f.id) s = .next t ∧ t.pipe.flight = [g] ∧ g.val = shapeVal sh (readKeys r.path r.h (cells.map (·.1)) u).1
      ∧ g.dest = f.dest ∧ g.rem = f.rem ∧ g.variable' = false ∧ t.seq = s.seq ∧ t.regs = s.regs ∧ t.mem = s.mem))
  ∧ (∀ (s : State) (n : Nat) (r : Refused), s.out.refusals.find? (fun r => r.id == n && decide (r.due ≤ s.pipe.wall)) = some r →
    r.cnt = none → r.flight = none → r.fault.sys = false → takesFaults s →
    ∃ t, exec (.tagRefusal n) s = .next t ∧ t.out.refusals = s.out.refusals.erase r ∧ deferredTaken r.fault.code r.fault.tval s t
      ∧ t.regs = s.regs ∧ t.mem = s.mem)
  ∧ (∀ (s : State) (f : FaultRec) (r : List FaultRec), s.seq.held = f :: r → s.seq.level = .program →
    ∃ t, exec (.deferredTrap f) s = .next t ∧ deferredTaken f.code f.tval s t ∧ t.seq.held = r ∧ t.regs = s.regs ∧ t.mem = s.mem)
  ∧ (∀ (s : State) (f : FaultRec), s.seq.held = [] → f.sys = false → takesFaults s →
    ∃ t, exec (.deferredTrap f) s = .next t ∧ deferredTaken f.code f.tval s t ∧ t.seq.x = s.seq.x ∧ t.regs = s.regs ∧ t.mem = s.mem)
  ∧ (∀ (s : State) (f : FaultRec), s.pipe.found = none → s.seq.level = .system → f.sys = false →
    exec (.deferredTrap f) s = .next { s with seq := { s.seq with held := s.seq.held ++ [f] } })
  ∧ (∀ (s : State) (f : FaultRec), s.pipe.found = none → s.seq.level = .system → f.sys = true → ∃ t, exec (.deferredTrap f) s = .next t
      ∧ t.seq = { s.seq with run := .stopped 1 s.seq.tcause.toNat f.code.toNat } ∧ t.regs = s.regs ∧ t.mem = s.mem)


/-! ### Synchronisation and trust operations after issue (R129, R131, R133, R177, R325, R380 to R387) -/

/-- R129, R177, R325, R133: a barrier arrival is counted, a second one toward the next generation; a generation ends when every core of the crew
has arrived, and with it the core's wait; the hub hands the next published slot to the next waiting core, grants a free slot to the
oldest request, and advances the tail and the head over contiguous slots; a free lock bit goes to the oldest request. -/
def Obligations.synchronisation_events : Prop :=
  (∀ (s : State) (core : Nat) (sc : Scope) (id : Fin 512) (b : Barrier), b = barrierOf s core sc id →
    (core ≠ pkgIndex s ∧ (crewOf s core).isSome = true ∨ core = pkgIndex s ∧ sc ≠ .pod ∧ ∃ l x r, s.out.leaving = x ++ l :: r
      ∧ l.entry.body = .effect (.bar sc id) ∧ (∀ y ∈ x, y.entry.body ≠ .effect (.bar sc id)) ∧ effectDue s l.entry.id sc = true) →
    ∃ t, exec (.barrierArrival core sc id) s = .next t
      ∧ barrierOf t core sc id = (if b.arrived.contains core = true then { b with next := b.next ++ [core] } else { b with arrived := b.arrived ++ [core] })
      ∧ t.seq = s.seq ∧ t.regs = s.regs ∧ t.mem = s.mem)
  ∧ (∀ (s : State) (sc : Scope) (id : Fin 512), ∃ t, exec (.barrierComplete sc id) s = .next t
      ∧ (∀ b ∈ s.hub.barriers, b.scope = sc → b.id = id → b.arrived ≠ [] → (∀ c ∈ barrierCrew s b, c ∈ b.arrived) →
          { b with gen := b.gen + 1, arrived := b.next, next := [] } ∈ t.hub.barriers)
      ∧ (∀ b ∈ s.hub.barriers, b.scope ≠ sc ∨ b.id ≠ id ∨ b.arrived = [] ∨ (∃ c ∈ barrierCrew s b, c ∉ b.arrived) → b ∈ t.hub.barriers)
      ∧ (∀ w, s.seq.barWait = some w → s.seq.handlerWait = none → t.seq.barWait = if waitOver { s with hub := t.hub } w = true then none else some w)
      ∧ t.seq.x = s.seq.x ∧ t.regs = s.regs ∧ t.mem = s.mem)
  ∧ (∀ (s : State) (l q c : Nat) (k : SQueue), stageQueue s l q = some k → nextTaker k.rr k.takers = some c →
    (k.taken < k.tail → ∃ t, exec (.nextitemHandout l q) s = .next t
      ∧ stageQueue t l q = some { k with taken := k.taken + 1, takers := k.takers.filter (fun x => x != c), rr := c + 1 } ∧ t.regs = s.regs
      ∧ t.mem = s.mem ∧ (c ≠ pkgIndex s → t.seq = s.seq ∧ t.pipe = s.pipe)
      ∧ (∀ f, c = pkgIndex s → s.seq.ctx.map (·.launch) = some l → s.pipe.flight.find? (fun f => f.val == .awaited .item) = some f →
        t.seq.item = some ⟨l, q, k.taken, word (slotAddr k k.taken)⟩
        ∧ ∀ g ∈ t.pipe.flight, g.id = f.id → g.val = .x (word (slotAddr k k.taken))))
    ∧ (k.tail ≤ k.taken → producerEnded s l q = true → c = pkgIndex s → s.seq.ctx.map (·.launch) = some l →
      ∀ f, s.pipe.flight.find? (fun f => f.val == .awaited .item) = some f → ∃ t, exec (.nextitemHandout l q) s = .next t
        ∧ t.seq.item = none ∧ (∀ g ∈ t.pipe.flight, g.id = f.id → g.val = .x 0) ∧ t.regs = s.regs ∧ t.mem = s.mem)
    ∧ (k.tail ≤ k.taken → producerEnded s l q = false → exec (.nextitemHandout l q) s = .next s))
  ∧ (∀ (s : State) (l q w c : Nat) (k : SQueue) (r : List (Nat × Nat)), stageQueue s l q = some k → k.emitters = (w, c) :: r →
    (k.granted - k.head < k.entries → ∃ t, exec (.emitGrant l q) s = .next t
      ∧ stageQueue t l q = some { k with granted := k.granted + 1, emitters := r }
      ∧ t.out.grants = s.out.grants ++ (if c = pkgIndex s then [(l, q, k.granted)] else []) ∧ t.seq = s.seq ∧ t.regs = s.regs ∧ t.mem = s.mem)
    ∧ (k.entries ≤ k.granted - k.head → exec (.emitGrant l q) s = .next s))
  ∧ (∀ (s : State) (l q n : Nat) (a : Word) (k : SQueue) (v : Leaving) (x r : List Leaving), stageQueue s l q = some k →
    s.out.leaving = x ++ v :: r → effectDue s v.entry.id .pkg = true →
    (v.entry.body = .effect (.emit l q n a) → (∀ y ∈ x, ∀ b, y.entry.body ≠ .effect (.emit l q n b)) →
      ∃ t j, exec (.emitPublish l q n) s = .next t ∧ stageQueue t l q = some j ∧ t.seq = s.seq ∧ t.regs = s.regs
        ∧ (n = k.tail → k.published = [] → j = { k with tail := k.tail + 1 }) ∧ (n ≠ k.tail → k.tail ∉ k.published → j = { k with published := k.published ++ [n] }))
    ∧ (v.entry.body = .effect (.release l q n a) → (∀ y ∈ x, ∀ b, y.entry.body ≠ .effect (.release l q n b)) →
      ∃ t j, exec (.itemRelease l q n) s = .next t ∧ stageQueue t l q = some j ∧ t.seq = s.seq ∧ t.regs = s.regs
        ∧ (n = k.head → k.released = [] → j = { k with head := k.head + 1 }) ∧ (n ≠ k.head → k.head ∉ k.released → j = { k with released := k.released ++ [n] })))
  ∧ (∀ (s : State) (core bank bit : Nat) (w : LockWait),
    s.sys.lockWaits.find? (fun w => w.core == core && w.bank == bank && w.bit == bit && w.queued) = some w →
    (lockFree s w = false → exec (.lockGrant core bank bit) s = .next s)
    ∧ (lockFree s w = true → w.fromCore ≠ dieIndex s ∨ tagMatches s w.core = true → ∃ t, exec (.lockGrant core bank bit) s = .next t
      ∧ (∃ n, t.sys.locks = ⟨w.core, w.bank, w.bit, w.fromCtx, w.fromCore, n⟩ ::
          s.sys.locks.filter (fun l => !(l.core == w.core && l.bank == w.bank && l.bit == w.bit)))
      ∧ t.sys.lockWaits = s.sys.lockWaits.erase w ∧ t.mem = s.mem
      ∧ (∀ f, s.pipe.flight = [f] → w.flight = some f.id → f.late = false →
          ∃ g, t.pipe.flight = [g] ∧ g.dest = f.dest ∧ g.val = .x (word (leNat (readHome (landKey s w.addr) 8 s))) ∧ t.regs = s.regs ∧ t.seq = s.seq)))
  ∧ (∀ (s : State) (w : LockWait), s.sys.lockWaits.find? (fun w => !w.queued && decide (w.retryAt ≤ s.pipe.wall)) = some w →
    ∃ t, exec .ldlRetry s = .next t ∧ t.sys.lockWaits = s.sys.lockWaits.filter (fun x => x != w) ++
        [if queuedAt s w.core w.bank < 8 then { w with queued := true } else { w with retryAt := s.pipe.wall + 32 }]
      ∧ t.seq = s.seq ∧ t.regs = s.regs ∧ t.mem = s.mem ∧ t.pipe = s.pipe ∧ t.sys.locks = s.sys.locks)

/-- R380 to R387: a trust operation that has left the Paddock is performed once every earlier entry is, with the status that R381 gives; its status
fills its register and its result bytes their place when it completes. KROT moves a block to the current epoch, SCRUB returns it to the
zero state, UNSEAL names its seal exactly, MCLRCHK passes where every block is clear. -/
def Obligations.trust_operations_are_performed : Prop :=
  (∀ (s : State) (n : Nat) (l : Leaving) (op : TrustOp) (a base size aux : Word) (keys : List Nat) (flight : Option Nat) (r : Performed),
    leavingAt s n = some l → l.entry.body = .effect (.trust op a base size aux keys flight) → effectDue s n .pkg = true →
    (hasTree op = false ∨ writesBlocks s keys = false) → r = performTrust op base.toNat size.toNat aux.toNat keys (dropLeaving n s) →
    ∃ t d, exec (.trustOpPerform n) s = .next t ∧ t.trust.done = r.state.trust.done ++ [d] ∧ d.id = n ∧ d.status = r.status ∧ d.writes = r.writes
      ∧ d.flight = flight ∧ d.block = a.toNat ∧ d.fault.isSome = r.fault.isSome ∧ s.pipe.wall < d.due
      ∧ t.mem = r.state.mem ∧ t.sys = r.state.sys ∧ t.hub = r.state.hub ∧ t.seq = r.state.seq ∧ t.regs = r.state.regs)
  ∧ (∀ (s : State) (v : Vf) (base size aux : Nat) (keys : List Nat), ctxVf s = some v →
    (s.trust.fault = true → performTrust .kgen base size aux keys s = ⟨2, [], none, s⟩)
    ∧ (∀ k, k = keySlot s (ctxKey s) → rngHealthy s → oldBlocks s (ctxKey s) k.ce = 0 → ∃ t j, performTrust .kgen base size aux keys s = ⟨0, [], none, t⟩
      ∧ keySlot t (ctxKey s) = j ∧ j.ce = !k.ce ∧ epochSecret j = shake256 32 (s.trust.rng ++ [1]) ∧ j.nold = liveBlocks s (ctxKey s)
      ∧ (if k.ce then j.secret1 = k.secret1 else j.secret0 = k.secret0) ∧ t.mem = s.mem ∧ t.sys = s.sys
      ∧ (∀ d ∈ t.links.dieLinks, ∀ x ∈ d.keys, x.slot = some (ctxKey s) → x.count = 0 ∧ x.key = dieKey (epochSecret j) d.a d.b x.dir x.gen))
    ∧ (s.trust.fault = false → 0 < oldBlocks s (ctxKey s) (keySlot s (ctxKey s)).ce → performTrust .kgen base size aux keys s = ⟨3, [], none, s⟩)
    ∧ ((∀ l ∈ s.trust.seals, ¬(l.tag.toNat = ctxTag s ∧ l.base = base ∧ l.size = size ∧ l.aux = aux)) →
      performTrust .unseal base size aux keys s = ⟨5, [], none, s⟩)
    ∧ (anySealed v s base size = true → performTrust .scrub base size aux keys s = ⟨6, [], none, s⟩)
    ∧ (anySealed v s base size = true ∨ anySealed v s aux (treeArea size) = true → performTrust .seal base size aux keys s = ⟨6, [], none, s⟩)
    ∧ ((performTrust .mclrchk base size aux keys s).status = 0 ↔ ∀ p ∈ blockVas keys base, (recAt s p.1).zero = true
        ∧ ∀ x, walkVf v s p.2 = .ok x → ptSealed x.w1.toNat = false)
    ∧ (∀ (b : Nat) (rec : CtrRec) (ce : Bool), keys = [b] → rec = recAt s b → rec.block = b → ce = (keySlot s (ctxKey s)).ce →
      (rec.zero = true → ∃ t, performTrust .krot base size aux keys s = ⟨0, [], none, t⟩ ∧ recAt t b = { rec with epoch := ce } ∧ t.mem = s.mem)
      ∧ (rec.zero = false → rec.epoch = ce → performTrust .krot base size aux keys s = ⟨0, [], none, s⟩)
      ∧ (rec.zero = false → rec.epoch ≠ ce → blockBad s b = none → rec.major ≠ BitVec.allOnes 48 →
        ∃ t, performTrust .krot base size aux keys s = ⟨0, [], none, t⟩
          ∧ recAt t b = { rec with major := rec.major + 1, minor := 0, epoch := ce, shared := false } ∧ t.mem = s.mem)
      ∧ (anySealed v s base size = false → tierBase ≤ 4096 * b → Memory.wf s.mem = true → ∃ t, performTrust .scrub base size aux keys s = ⟨0, [], none, t⟩
          ∧ recAt t b = { rec with zero := true, epoch := ce, shared := false, minor := 0 }
          ∧ (∀ j, j < 4096 → memGet t.mem (4096 * b + j) = 0) ∧ (∀ k, k < 4096 * b ∨ 4096 * b + 4096 ≤ k → memGet t.mem k = memGet s.mem k))))
  ∧ (∀ (s : State) (n : Nat) (d : TrustRes) (f : Flight) (rd : Fin 32), s.trust.done.find? (fun d => d.id == n && decide (d.due ≤ s.pipe.wall)) = some d →
    s.seq.ctx.map (·.launch) = some d.launch → takesFaults s → d.fault = none → s.pipe.flight = [f] → d.flight = some f.id → f.late = true →
    f.sys = false → f.dest = .x rd → rd ≠ 0 →
    ∃ t, exec (.trustOpComplete n) s = .next t ∧ t.trust.done = s.trust.done.filter (fun x => x.id != n) ∧ readX t rd = word d.status
      ∧ t.pipe.flight = [] ∧ t.mem = d.writes.foldl (fun m w => memPutN m (d.block + w.1) w.2) s.mem ∧ t.regs = s.regs
      ∧ (∀ o ∈ t.sys.old, blockOf o.unit ∉ d.keys))


/-! ### Commits that are forced, and recovery (R124, R148, R294 to R308, R336) -/


/-- R301, R304, R305, R306, R308: a strike report returns the core to the latest commit at or before d − 480, in up to 640 wall cycles; the end
of the dry run records its outcome and returns to C for the confirm run; the confirm run's end agrees, raises the KCHK that failed alike in
both runs, or retires the core, which is reported once it has drained; an error consumed under guarded mode returns to the last commit, a second one at the same address traps. -/
def Obligations.recovery_events : Prop :=
  (∀ (s : State) (zone : Fin 16) (c : Ckpt) (x r : List Ckpt), recoverySaving s = false → s.seq.ctx.isSome = true → s.rcv.ckpts = x ++ c :: r →
    (∀ y ∈ x, s.pipe.wall < y.wall + 480) → c.wall + 480 ≤ s.pipe.wall ∨ r = [] → ∃ t, exec (.upsetReport zone) s = .next t
      ∧ returned c s t ∧ logged 1 zone.val c s t ∧ 1 ≤ t.pipe.stall ∧ t.pipe.stall ≤ 640
      ∧ (s.rcv.rerun = none → t.rcv.rerun = none)
      ∧ (∀ u, s.rcv.rerun = some u → u.base < c.commit → t.rcv.rerun = some u)
      ∧ (∀ u, s.rcv.rerun = some u → c.commit ≤ u.base → ∃ v, t.rcv.rerun = some v ∧ v.kind = .dry ∧ v.base = c.commit ∧ v.startIssue = c.issue
          ∧ v.ended = false))
  ∧ (∀ (s : State) (zone : Fin 16), recoverySaving s = false → s.seq.ctx = none ∨ s.rcv.ckpts = [] → exec (.upsetReport zone) s = .next s)
  ∧ (∀ (s : State) (zone : Fin 16) (c : Ctx) (l : Launch), s.seq.run = .retired → s.seq.ctx = some c → launchAt s c.launch = some l → killable l = true →
    ∃ t, exec (.upsetReport zone) s = .next t ∧ launchKilled (if s.seq.gmode then 3 else 2) l s t ∧ t.seq.run = .retired)
  ∧ (∀ (s : State) (r : Rerun) (c : Ckpt) (x y : List Ckpt), s.rcv.rerun = some r → s.rcv.ckpts = x ++ c :: y → c.commit = r.base →
    (∀ k ∈ x, k.commit ≠ r.base) → r.ended = true →
    (r.kind = .dry → ∃ t, exec .dryRunEnd s = .next t ∧ returned c s t ∧ t.rcv.rerun = some { r with
        kind := .confirm, dryN := s.pipe.issue - r.startIssue, dryAtCommit := r.endedAtCommit, drySig := readK s 7, dryMis := r.mis,
        ended := false, endedAtCommit := false, mis := none })
    ∧ (r.kind = .confirm →
      (r.dryMis = none → r.mis = none → s.pipe.issue - r.startIssue = r.dryN → r.endedAtCommit = r.dryAtCommit → readK s 7 = r.drySig →
        ∃ t e, exec .confirmRunEnd s = .next t ∧ t.rcv.rerun = none ∧ t.rcv.errlog = s.rcv.errlog ++ [e] ∧ e.kind = 3 ∧ t.seq = s.seq
          ∧ t.regs = s.regs ∧ t.mem = s.mem ∧ t.out = s.out)
      ∧ (∀ m, r.dryMis = some m → r.mis = some m → m.slot = .k → m.word ≠ 0 → takesFaults s →
        ∃ t, exec .confirmRunEnd s = .next t ∧ deferredTaken 0x08 (tvalWord .k m.word.toNat) s t ∧ t.rcv.rerun = none ∧ t.regs = s.regs
          ∧ t.mem = s.mem)
      ∧ (sameKchk r.dryMis r.mis = false →
          ¬(r.dryMis = none ∧ r.mis = none ∧ s.pipe.issue - r.startIssue = r.dryN ∧ r.endedAtCommit = r.dryAtCommit ∧ readK s 7 = r.drySig) →
          ∃ t, exec .confirmRunEnd s = .next t ∧ returned c s t ∧ t.seq.run = .retired ∧ t.seq.ctx = s.seq.ctx ∧ t.rcv.rerun = none
            ∧ t.rcv.retiring = some (if r.dryMis = none ∧ r.mis = none then 1 else if r.dryMis ≠ none ∧ r.mis ≠ none then 3 else 2,
              s.rcv.commits - c.commit, discarded c s, c.seq.phase))))
  ∧ (∀ (s : State) (place commits entries : Nat) (phase : BitVec 48) (k : Ctx) (l : Launch), s.seq.run = .retired → s.seq.ctx = some k →
      launchAt s k.launch = some l → killable l = true → s.rcv.retiring = some (place, commits, entries, phase) →
    (drained s = false → recoverySaveStep s = s)
    ∧ (drained s = true → (recoverySaveStep s).hub.disabled = s.hub.disabled ++ [pkgIndex s]
        ∧ (recoverySaveStep s).rcv.retiredCount = s.rcv.retiredCount + 1 ∧ (recoverySaveStep s).rcv.retiring = none
        ∧ (recoverySaveStep s).trust.replies = s.trust.replies ++ [⟨0, "CORE_RETIRED", 0x13, []⟩] ∧ (recoverySaveStep s).seq.run = .retired
        ∧ (∃ e, (recoverySaveStep s).rcv.errlog = s.rcv.errlog ++ [e] ∧ e.kind = 4 ∧ e.place = BitVec.ofNat 8 place ∧ e.commits = commits
          ∧ e.entries = entries ∧ e.phase = phase)
        ∧ (s.seq.gmode = true ∧ l.recovery ≠ 0 → (recoverySaveStep s).seq = s.seq ∧ (recoverySaveStep s).mem = s.mem)
        ∧ (s.seq.gmode = false ∨ l.recovery = 0 → launchKilled (if s.seq.gmode then 3 else 2) l s (recoverySaveStep s))))
  ∧ (∀ (s : State), s.rcv.rerun = none ∨ (∃ r, s.rcv.rerun = some r ∧ r.ended = false) →
      exec .dryRunEnd s = .next s ∧ exec .confirmRunEnd s = .next s)
  ∧ (∀ (s : State) (p : ErrWhere) (sl : Slot) (a : Nat) (h : Fin 16), s.seq.ctx.isSome = true → s.seq.level = .program →
    (∀ (c : Ckpt) (x y : List Ckpt), s.seq.gmode = true → p = .state ∨ p = .globalLine ∧ hGuarded (readH s h) = true → s.rcv.cancelled ≠ some a →
      s.rcv.ckpts = x ++ c :: y → c.commit ≤ readerCommit sl s → (∀ k ∈ x, readerCommit sl s < k.commit) →
      ∃ t, exec (.uncorrectableConsumed p sl a h) s = .next t ∧ returned c s t ∧ logged 5 0 c s t ∧ t.rcv.cancelled = some a
        ∧ (c.cpy.refill = [] → t.cpy.cmds = keepCmds c s))
    ∧ (s.seq.gmode = false ∨ p = .codeStore ∨ (p = .globalLine ∧ hGuarded (readH s h) = false) ∨ s.rcv.cancelled = some a → takesFaults s →
      ∃ t, exec (.uncorrectableConsumed p sl a h) s = .next t
        ∧ deferredTaken 0x09 (tvalAddr sl (if p = .state ∧ 393216 ≤ a then 0 else a)) s t ∧ t.regs = s.regs ∧ t.mem = s.mem
        ∧ ∃ e, t.rcv.errlog = s.rcv.errlog ++ [e] ∧ e.kind = 6))
  ∧ (∀ (s : State) (p : ErrWhere) (sl : Slot) (a : Nat) (h : Fin 16), s.seq.ctx = none → exec (.uncorrectableConsumed p sl a h) s = .next s)

/-- R148, R304, R336: a pre-emption request is noted with its wall cycle; at a yield point outside a rerun the core stops issue to save; past
`yieldbound` YIELD_OVERRUN traps with the cycles since the request, and is held while a handler runs. A granule of the context that
differs from its slot goes out in the background: it is no access of the program, counts on no counter and is not folded. -/
def Obligations.preemption_events : Prop :=
  (∀ (s : State) (area : Word),
    (s.seq.ctx.isSome = true → s.seq.preempt = none →
      exec (.preemptRequest area) s = .next { s with seq := { s.seq with preempt := some ⟨s.pipe.wall, area, 0, false⟩ } })
    ∧ (s.seq.ctx = none ∨ s.seq.preempt ≠ none → exec (.preemptRequest area) s = .next s))
  ∧ (∀ (s : State) (p : Preempt), s.seq.preempt = some p → p.forced = false → takesFaults s →
    (s.rcv.rerun = none → yieldPoint s = true → ∃ t, exec .voluntaryPreempt s = .next t ∧ t.seq = { s.seq with run := .saving false }
      ∧ t.rcv = { s.rcv with saveAcc := none } ∧ t.regs = s.regs ∧ t.mem = s.mem ∧ t.out = s.out ∧ t.pipe = s.pipe
      ∧ (nextTakes s = false → t.hub = s.hub)
      ∧ (nextTakes s = true → ∀ c l, s.seq.ctx = some c → launchAt t c.launch = some l → l.move = none))
    ∧ (s.rcv.rerun ≠ none ∨ yieldPoint s = false → exec .voluntaryPreempt s = .next s)
    ∧ (∀ u, s.seq.barWait = none → s.seq.token = some u → s.seq.reps = 0 → s.pipe.tried = false → u.mark = false → yieldPoint s = true)
    ∧ (∀ b, s.seq.barWait = some b → yieldPoint s = b.mark))
  ∧ (∀ (s : State) (p : Preempt), s.seq.preempt = some p → p.forced = false → s.seq.run = .running →
    (s.seq.heldOverrun = true ∨ s.seq.yieldbound.toNat ≤ p.waited → s.rcv.rerun = none →
      (s.seq.level = .program → ∃ t, exec .yieldOverrun s = .next t ∧ t.seq.level = .system ∧ t.seq.tcause = 0x0B
        ∧ t.seq.tval = BitVec.ofNat 60 ((s.pipe.wall - p.at') % 2 ^ 32) ∧ t.seq.pc = s.seq.tvec.toNat * 32
        ∧ t.seq.tpc = BitVec.ofNat 21 (s.seq.reps % 32 * 2 ^ 16 + s.seq.pc % 2 ^ 16) ∧ t.seq.preempt = some { p with forced := true }
        ∧ t.regs = s.regs ∧ t.mem = s.mem ∧ t.seq.x = s.seq.x)
      ∧ (s.seq.level = .system → exec .yieldOverrun s = .next { s with seq := { s.seq with heldOverrun := true } }))
    ∧ (s.seq.heldOverrun = false ∧ p.waited < s.seq.yieldbound.toNat ∨ s.rcv.rerun ≠ none → exec .yieldOverrun s = .next s))
  ∧ (∀ (s u : State) (area : Word) (e : Nat × Granule), slotAddrOf s = some area → backgroundIdle s = true → betweenSaves s = true →
    (staleGranules s area).find? (fun x => x.1 == e.1) = some e →
    writeGranules .d s.nextId area.toNat [e] { s with nextId := s.nextId + 1 } = .ok (some u) →
    ∃ t, exec (.backgroundWriteback e.1) s = .next t ∧ t.rcv.area = some area ∧ e ∈ t.rcv.image ∧ t.seq = u.seq ∧ t.regs = u.regs
      ∧ t.mem = u.mem ∧ t.out.cnt = u.out.cnt ∧ t.out.port = u.out.port.map (fun x => if x.acc = s.nextId then { x with quiet := true } else x)
      ∧ t.seq = s.seq ∧ t.out.cnt = s.out.cnt)
  ∧ (∀ (s : State) (g : Nat), backgroundIdle s = false ∨ betweenSaves s = false → exec (.backgroundWriteback g) s = .next s)


/-! ### Work queues, registers and containment (R104, R109, R110, R314 to R322, R337, R338, R349, R350, R365, R386, R398, R399) -/

/-- R315, R316, R317, R320: an entry read from the ring is carried out by its type, or as a tag failure; what the hub does with the entry at the head of a queue that is on: a replay is dropped, counted and told (0x01); in GAP
every entry but a resync is dropped and counted; a gap sends the queue to GAP (0x03); a resync sets `last` and RUN (0x04); a tag failure is
dropped and counted (0x02); the next entry in RUN is carried out by its type, and the last number ends the queue (0x05). -/
def Obligations.work_queue_entries : Prop :=
  ∀ (s : State) (n seq : Nat) (q : WQueue), queueAt s n = some q →
    (entryDue q s = true →
      (∀ (i : Instr) (a b c : Word) (f : Bool) (k : Byte),
        i ∈ [Instr.noOp n seq, .launch n seq a, .counterAdd n seq b c f, .otherTypeEntry n seq k] →
        (∀ j, j ∈ [i, .resync n seq] → 2 ^ 63 ≤ seq ∨ (∃ l, q.last = some l ∧ seq ≤ l) → ∃ t, exec j s = .next t
          ∧ queueAt t n = some { q with head := q.head + 1, replay := satAdd64 q.replay 1 }
          ∧ told q.vf ⟨0x01, n, word seq, word (q.last.getD (2 ^ 64 - 1))⟩ s t ∧ t.hub.launches = s.hub.launches ∧ coreKept s t)
        ∧ (seq < 2 ^ 63 → (∀ l, q.last = some l → l < seq) →
          (q.state = .gap → ∃ t, exec i s = .next t
            ∧ queueAt t n = some { q with head := q.head + 1, gapdrop := BitVec.ofNat 32 (min (q.gapdrop.toNat + 1) (2 ^ 32 - 1)) }
            ∧ t.mem = s.mem ∧ t.hub.launches = s.hub.launches ∧ coreKept s t)
          ∧ (q.state ≠ .gap → seq ≠ (q.last.map (· + 1)).getD 0 → ∃ t, exec i s = .next t
            ∧ queueAt t n = some { q with head := q.head + 1, state := .gap }
            ∧ told q.vf ⟨0x03, n, word seq, word (q.last.getD (2 ^ 64 - 1))⟩ s t ∧ t.hub.launches = s.hub.launches ∧ coreKept s t)))
      ∧ (seq < 2 ^ 63 → (∀ l, q.last = some l → l < seq) → ∃ t, exec (.resync n seq) s = .next t
        ∧ queueAt t n = some { q with head := q.head + 1, last := some seq, state := .run } ∧ told q.vf ⟨0x04, n, word seq, 0⟩ s t
        ∧ t.hub.launches = s.hub.launches ∧ coreKept s t)
      ∧ (∃ t, exec (.tagFailure n seq) s = .next t ∧ queueAt t n = some { q with head := q.head + 1, authfail := satAdd64 q.authfail 1 }
        ∧ told q.vf ⟨0x02, n, word seq, 0⟩ s t ∧ t.hub.launches = s.hub.launches ∧ coreKept s t)
      ∧ (q.state = .run → seq = (q.last.map (· + 1)).getD 0 → seq + 1 < 2 ^ 63 →
        (∃ t, exec (.noOp n seq) s = .next t ∧ queueAt t n = some { q with head := q.head + 1, last := some seq } ∧ t.mem = s.mem
          ∧ t.hub.launches = s.hub.launches ∧ coreKept s t)
        ∧ (∀ k, ∃ t, exec (.otherTypeEntry n seq k) s = .next t ∧ queueAt t n = some { q with head := q.head + 1, last := some seq }
          ∧ told q.vf ⟨0x06, n, word seq, 0x10⟩ s t ∧ t.hub.launches = s.hub.launches ∧ coreKept s t)
        ∧ (∀ a b, ∃ t, exec (.counterAdd n seq a b true) s = .next t
          ∧ queueAt t n = some { q with head := q.head + 1, last := some seq, wait := q.wait ++ [(a, b, s.hub.nextLaunch)] } ∧ t.mem = s.mem)
        ∧ (∀ a b v, vfAt s q.vf = some v → ∃ t, exec (.counterAdd n seq a b false) s = .next t
          ∧ queueAt t n = some { q with head := q.head + 1, last := some seq } ∧ counterRaised v a b s t ∧ t.seq = s.seq ∧ t.regs = s.regs)
        ∧ (∀ a v, vfAt s q.vf = some v →
          (launchStatus s q.vf a = none → ∃ t, exec (.launch n seq a) s = .next t
            ∧ queueAt t n = some { q with head := q.head + 1, last := some seq } ∧ t.hub.launches = s.hub.launches ++ [launchOf v s n a]
            ∧ t.hub.nextLaunch = s.hub.nextLaunch + 1 ∧ t.mem = s.mem ∧ coreKept s t)
          ∧ (∀ k, launchStatus s q.vf a = some k → ∃ t, exec (.launch n seq a) s = .next t
            ∧ queueAt t n = some { q with head := q.head + 1, last := some seq } ∧ told q.vf ⟨0x06, n, a, word k⟩ s t
            ∧ t.hub.launches = s.hub.launches ∧ coreKept s t)))
      ∧ (q.state = .run → seq = 2 ^ 63 - 1 → q.last = some (seq - 1) → ∃ t, exec (.noOp n seq) s = .next t
        ∧ queueAt t n = some { q with head := q.head + 1, last := some seq, state := .spent } ∧ told q.vf ⟨0x05, n, word seq, 0⟩ s t))
    ∧ (q.state = .off ∨ q.head = q.doorbell ∨ s.links.pcie = false ∨ s.links.shed = true → ∀ (i : Instr) (a b c : Word) (f : Bool) (k : Byte),
        i ∈ [Instr.noOp n seq, .launch n seq a, .counterAdd n seq b c f, .otherTypeEntry n seq k, .resync n seq, .tagFailure n seq] →
        exec i s = .next s)
    ∧ (∀ a b m r v, q.wait = (a, b, m) :: r → vfAt s q.vf = some v →
        ((∀ l ∈ s.hub.launches, l.queue = n → l.id < m → killable l = false) → ∃ t, exec (.counterAddDeferred n) s = .next t
          ∧ queueAt t n = some { q with wait := r } ∧ counterRaised v a b s t ∧ t.seq = s.seq ∧ t.regs = s.regs)
        ∧ ((∃ l ∈ s.hub.launches, l.queue = n ∧ l.id < m ∧ killable l = true) → exec (.counterAddDeferred n) s = .next s))
    ∧ (q.wait = [] → exec (.counterAddDeferred n) s = .next s)
    ∧ (∀ e, entryDue q s = true → e = ringEntry q s → seq = leNat (e.take 8) →
      handleHead n s = match openEntry s q e with
        | none => exec (.tagFailure n seq) s
        | some b =>
          if e.getD 8 0 = 0x00 then exec (.noOp n seq) s
          else if e.getD 8 0 = 0x01 then exec (.launch n seq (word (leNat (b.take 8)))) s
          else if e.getD 8 0 = 0x02 then exec (.counterAdd n seq (word (leNat (b.take 8))) (word (leNat ((b.drop 8).take 8)))
            (flag (word (leNat ((b.drop 16).take 8))).toNat 0)) s
          else if e.getD 8 0 = 0x0F then exec (.resync n seq) s
          else exec (.otherTypeEntry n seq (e.getD 8 0)) s)

/-- R319, R322, R349, R350, R367, R391, R398, R399: the registers of queues, rings and functions: what a write changes, and which writes are
ignored; a queue is enabled where its function has a LIVE slot and its interface is unlocked or in RUN; a launch without a LIVE slot is
refused with 0x15; an invalidation drops the cached translations of its range, and is done when their last use is performed. -/
def Obligations.register_writes_complete : Prop :=
  (∀ (s : State) (n : Nat) (q : WQueue), queueAt s n = some q →
    (∀ d, ∃ t, exec (.queueDoorbell n d) s = .next t ∧ queueAt t n = some (if q.state = .off then q else { q with doorbell := d })
      ∧ t.mem = s.mem ∧ coreKept s t)
    ∧ (∀ z, ∃ t, exec (.queueEnable n z) s = .next t ∧ t.mem = s.mem ∧ coreKept s t ∧ queueAt t n = some
      (if z < 4 ∨ 16 < z then q else if q.state ≠ .off then { q with size := z }
       else if mayEnable s q.vf = true then { q with state := .run, head := 0, last := none, size := z } else q))
    ∧ (∃ t, exec (.queueDisable n) s = .next t ∧ queueAt t n = some { q with state := .off } ∧ t.mem = s.mem ∧ coreKept s t)
    ∧ (∀ w : Word, ∃ t, exec (.registerWrite (.queueBase n) w) s = .next t ∧ coreKept s t
      ∧ queueAt t n = some (if q.state = .off ∧ w.toNat % 4096 = 0 then { q with base := w } else q)))
  ∧ (∀ (s : State) (vf : Nat) (v : Vf), vfAt s vf = some v →
    (mayEnable s vf = true ↔ (v.tdisp = .unlocked ∨ v.tdisp = .run) ∧ ∃ n, v.slot = some n ∧ (keySlot s n).state = .live)
    ∧ (∀ a, (∀ n, v.slot = some n → (keySlot s n).state ≠ .live) → launchStatus s vf a = some 0x15)
    ∧ (∀ a n, v.slot = some n → (keySlot s n).state = .live → badRecord v s a (imageAt v s (word (recordFields v s a 8 8))) = true →
        launchStatus s vf a = some 0x10)
    ∧ (∀ z, (4 ≤ z ∧ z ≤ 16 → ∃ t, exec (.eventRingEnable vf z) s = .next t ∧ coreKept s t
        ∧ vfAt t vf = some { v with ringCtl := word (256 + z), ringHead := 0, ringTail := 0 })
      ∧ (z < 4 ∨ 16 < z → exec (.eventRingEnable vf z) s = .next s))
    ∧ (∀ w : Word,
      (∃ t, exec (.registerWrite (.ringBase vf) w) s = .next t ∧ coreKept s t
        ∧ vfAt t vf = some (if flag v.ringCtl.toNat 8 = true ∨ w.toNat % 4096 ≠ 0 then v else { v with ringBase := w }))
      ∧ (∃ t, exec (.registerWrite (.ringHead vf) w) s = .next t ∧ coreKept s t
        ∧ vfAt t vf = some (if w.toNat < 2 ^ 32 then { v with ringHead := w.setWidth 32 } else v))
      ∧ (∃ t, exec (.registerWrite (.root vf) w) s = .next t ∧ coreKept s t ∧ vfAt t vf = some
        (if bits w.toNat 56 8 = 0 ∧ bits w.toNat 3 10 = 0 ∧ bits w.toNat 1 2 < 2 ∧ vfResident s vf = false ∧ v.tdisp ≠ .locked ∧ v.tdisp ≠ .run
         then { v with root := w } else v))
      ∧ (∃ t, exec (.registerWrite (.invva vf) w) s = .next t ∧ coreKept s t
        ∧ vfAt t vf = some (if v.invBusy = true ∨ bits w.toNat 57 7 ≠ 0 ∨ bits w.toNat 0 16 ≠ 0 then v else { v with invva := w })))
    ∧ (∀ len : BitVec 64, (v.invBusy = true ∨ 2 ^ 32 ≤ len.toNat → exec (.invalidate vf len) s = .next s)
      ∧ (v.invBusy = false → len.toNat < 2 ^ 32 → ∃ t, exec (.invalidate vf len) s = .next t ∧ coreKept s t ∧ t.mem = s.mem
        ∧ (∃ l, vfAt t vf = some { v with invlen := len.setWidth 32, invBusy := true, invIds := l }
          ∧ (s.seq.ctx = none ∨ (∃ c, s.seq.ctx = some c ∧ c.vf ≠ vf) → l = []))
        ∧ (∀ x ∈ t.sys.tlb, x ∈ s.sys.tlb)
        ∧ (∀ x ∈ s.sys.tlb, 0 < x.size → x.va < 2 ^ 57 → (x ∈ t.sys.tlb ↔ x.vf ≠ vf
          ∨ len ≠ 0 ∧ (x.va + x.size ≤ v.invva.toNat ∨ v.invva.toNat + 65536 * len.toNat ≤ x.va)))))
    ∧ (v.invBusy = true → (∀ n ∈ v.invIds, n ∉ accessIds s) →
        ∃ t, exec (.invalidateDone vf) s = .next t ∧ vfAt t vf = some { v with invBusy := false, invIds := [] } ∧ coreKept s t ∧ t.mem = s.mem)
    ∧ (v.invBusy = false ∨ (∃ n ∈ v.invIds, n ∈ accessIds s) → exec (.invalidateDone vf) s = .next s))
  ∧ (∀ (s : State) (w : Word), exec (.registerWrite .yieldbound w) s = .next { s with seq := { s.seq with yieldbound := w.setWidth 32 } }
    ∧ (∀ n, exec (.registerWrite (.readOnly n) w) s = .next s)
    ∧ exec (.registerWrite .powerLimit w) s = .next (if 1000 ≤ w.toNat ∧ w.toNat ≤ 2600 then { s with links := { s.links with powerLimit := w.toNat } }
        else s)
    ∧ (∀ (p e : Nat), ∃ t, exec (.registerWrite (.quantum p e) w) s = .next t ∧ coreKept s t ∧ t.hub.vfs = s.hub.vfs
      ∧ ∀ x, partAt s p = some x → e < 256 → ∃ y, partAt t p = some y
        ∧ y.table[e]? = some ⟨bits w.toNat 0 16, bits w.toNat 16 16, bits w.toNat 32 8, bits w.toNat 40 8, bits w.toNat 48 16, 0⟩
        ∧ ∀ i, i < x.table.length → i ≠ e → y.table[i]? = x.table[i]?))

/-- R109, R110, R337, R338, R365, R386: a kill that Yard asks for stops the launch: its core's context, engines, queues, checkpoints and scratchpad
are cleared, event 0x08 tells cause 5 and the package; Tack then scrubs its slots and its load area, and its cores go back to the pool when
the scrub is complete; pages that are returned read as zeros. -/
def Obligations.containment_completes : Prop :=
  (∀ (s : State) (l : Launch), launchAt s l.id = some l →
    (killable l = true → ∃ t, exec (.yardKill l.id) s = .next t
      ∧ (∃ k, launchAt t l.id = some k ∧ k.state = .killed ∧ k.killInfo = some (5, pkgIndex s, 0, 0))
      ∧ ((∀ m ∈ s.sys.migrations, m.vf = l.vf → m.switched = true) → s.seq.ctx = none ∨ (∃ c, s.seq.ctx = some c ∧ c.launch ≠ l.id) →
          told l.vf ⟨0x08, l.queue, l.record, word (5 + 256 * s.id.package.toNat)⟩ s t ∧ t.seq = s.seq ∧ t.regs = s.regs ∧ t.out = s.out ∧ t.mat = s.mat
          ∧ t.cpy = s.cpy ∧ t.pipe = s.pipe)
      ∧ (∀ c, s.seq.ctx = some c → c.launch = l.id → (∀ m ∈ s.sys.migrations, m.vf = l.vf → m.switched = true) → coreCleared s t ∧ (∀ b ∈ t.sys.locks, b.ownerCtx ≠ l.id)
          ∧ (∀ e ∈ t.out.leaving, ∃ x ∈ s.out.leaving, e = x ∨ e = { x with entry := { x.entry with quiet := true } })))
    ∧ (killable l = false → exec (.yardKill l.id) s = .next s)
    ∧ (s.links.shed = true ∨ l.state ≠ .killed → ∃ t, exec (.scrubCtx l.id) s = .next t
        ∧ t.trust.replies = s.trust.replies ++ [⟨0, "SCRUB_CTX", 0xFF, []⟩] ∧ t.mem = s.mem ∧ t.hub = s.hub ∧ coreKept s t)
    ∧ (∀ v, s.links.shed = false → l.state = .killed → vfAt s l.vf = some v → ∃ t, exec (.scrubCtx l.id) s = .next t
        ∧ launchAt t l.id = some { l with state := .scrubbing } ∧ t.seq = s.seq ∧ t.regs = s.regs
        ∧ t.out = { s.out with leaving := t.out.leaving } ∧ (∀ e ∈ s.out.leaving, e.entry.quiet = false → e ∈ t.out.leaving)
        ∧ (∃ r, t.trust.replies = r ++ [⟨0, "SCRUB_CTX", 0, []⟩]) ∧ t.mem = ((killedRanges s l).foldl (fun u r => scrubRange v r.1 r.2 u) s).mem)
    ∧ (∀ i, l.id = i → l.state = .scrubbing → ∃ t u k, exec (.scrubComplete (1024 + i)) s = .next t
        ∧ (partOfVf s l.vf = none → t = u) ∧ (∀ p, partOfVf s l.vf = some p → t = allocate p.first u)
        ∧ launchAt u i = some k ∧ k.state = .gone ∧ (∀ st ∈ k.stages, st.crew = []) ∧ coreKept s u
        ∧ (∀ p ∈ s.hub.parts, ∃ p' ∈ u.hub.parts, p'.first = p.first ∧ p'.size = p.size ∧ (∀ c ∈ p.pool, c ∈ p'.pool)
            ∧ ∀ st ∈ l.stages, ∀ c ∈ st.crew, (∀ x ∈ s.hub.launches, x.id ≠ i → x.state = .running → ∀ y ∈ x.stages, c ∉ y.crew) →
                coreUsable s c = true → p.first ≤ c / 96 → c / 96 < p.first + p.size → c ∈ p'.pool))
    ∧ (∀ i, l.id = i → l.state ≠ .scrubbing → exec (.scrubComplete (1024 + i)) s = .next s))
  ∧ (∀ (s : State) (vf : Nat), vf < 1024 → ∃ t, exec (.scrubComplete vf) s = .next t ∧ coreKept s t ∧ t.mem = s.mem
    ∧ (∀ k ∈ s.trust.slots, k.tag.toNat = vf → k.state = .revoked → ⟨k.n, .empty, List.replicate 32 0, List.replicate 32 0, false, 0, 0⟩ ∈ t.trust.slots)
    ∧ (∀ k ∈ s.trust.slots, k.tag.toNat ≠ vf ∨ k.state ≠ .revoked → k ∈ t.trust.slots)
    ∧ (∀ v, v.vf ≠ vf → (v ∈ t.hub.vfs ↔ v ∈ s.hub.vfs)) ∧ (∀ v ∈ t.hub.vfs, v.vf = vf → v.assigned = true)
    ∧ ((∀ v ∈ s.hub.vfs, v.vf = vf → v.assigned = true) → t.hub.vfs = s.hub.vfs))
  ∧ (∀ (s : State) (vf : Nat) (v : Vf) (base : Word) (x : Xlat) (b : Nat), s.links.shed = false → vfAt s vf = some v → base.toNat % 4096 = 0 →
    walkVf v s base.toNat = .ok x → b = globalKey [x] base.toNat / 4096 → tierBase ≤ 4096 * b → Memory.wf s.mem = true →
    (∀ m ∈ s.sys.migrations, m.copied = false ∨ m.switched = true) →
    (∀ l ∈ s.trust.seals, l.tag.toNat ≠ v.vf ∨ base.toNat + 4096 ≤ l.base ∨ l.base + l.size ≤ base.toNat) →
    ∃ t, exec (.scrubPages vf base 4096) s = .next t ∧ t.trust.replies = s.trust.replies ++ [⟨0, "SCRUB_PAGES", 0, []⟩] ∧ (recAt t b).zero = true
      ∧ (∀ j, j < 4096 → memGet t.mem (4096 * b + j) = 0) ∧ (∀ k, k < 4096 * b ∨ 4096 * b + 4096 ≤ k → memGet t.mem k = memGet s.mem k)
      ∧ t.seq = s.seq ∧ t.regs = s.regs ∧ t.pipe = s.pipe ∧ t.mat = s.mat ∧ t.cpy = s.cpy ∧ (∀ e ∈ s.out.leaving, e.entry.quiet = false → e ∈ t.out.leaving))
  ∧ (∀ (s : State) (vf size : Nat) (base : Word), s.links.shed = true ∨ vfAt s vf = none ∨ base.toNat % 4096 ≠ 0 ∨ size % 4096 ≠ 0 →
    ∃ t, exec (.scrubPages vf base size) s = .next t ∧ t.trust.replies = s.trust.replies ++ [⟨0, "SCRUB_PAGES", 0xFF, []⟩] ∧ t.mem = s.mem
      ∧ t.hub = s.hub ∧ coreKept s t)


/-! ### The stage scheduler (R306, R323 to R335, R339, R340, R407) -/

/-- R324, R326, R327, R328, R330: the launch considered next has the highest priority, then the first queue from the pointer, then the lowest
number, and starts when its minima fit and its slot is LIVE; a kernel starts with the state of a context start; a launch completes when every
stage has ended (0x07); at an interval boundary a pair with a difference of 4,096 or more that is chosen twice in a row makes a move
pending; a free core joins the stage below its maximum with the highest pressure. -/
def Obligations.launches_are_scheduled : Prop :=
  (∀ (s : State) (p : Part) (l : Launch), nextReady s p = some l → l ∈ readyOn s p ∧ ∀ x ∈ readyOn s p, x.priority ≤ l.priority
      ∧ (x.priority = l.priority → fromPtr p l.queue ≤ fromPtr p x.queue ∧ (x.queue = l.queue → l.id ≤ x.id)))
  ∧ (∀ (s : State) (l : Launch) (p : Part) (v : Vf), launchAt s l.id = some l → vfAt s l.vf = some v → partAt s v.part = some p →
    (startable s p = some l → (∀ n, v.slot = some n → (keySlot s n).state ≠ .live) → ∃ t k, exec (.launchStart l.id) s = .next t
        ∧ launchAt t l.id = some k ∧ k.state = .gone ∧ told l.vf ⟨0x06, l.queue, l.record, 0x15⟩ s t ∧ coreKept s t)
    ∧ (∀ n st c, startable s p = some l → v.slot = some n → (keySlot s n).state = .live → l.stages = [st] → st.min = 1 → st.init = 1 →
        freeCores s p = [c] → inMask st.dies c = true → c ≠ pkgIndex s → ∃ t k j q, exec (.launchStart l.id) s = .next t
        ∧ launchAt t l.id = some k ∧ k.state = .running ∧ k.stages = [j] ∧ j.crew = st.crew ++ [c] ∧ c ∈ k.ran
        ∧ partAt t p.first = some q ∧ q.wqPtr = (l.queue + 1) % 65536 ∧ c ∉ q.pool ∧ t.seq = s.seq ∧ t.regs = s.regs)
    ∧ (startable s p = none ∨ (∃ x, startable s p = some x ∧ x.id ≠ l.id) → exec (.launchStart l.id) s = .next s)
    ∧ (∀ x, nextReady s p = some x → fits s p x = false → startable s p = none))
  ∧ (∀ (s : State) (l : Launch) (v : Vf) (stage : Nat) (p : Placement), launchAt s l.id = some l → vfAt s l.vf = some v →
    stagePlacement s l stage = some p → ∃ t c, startHere l.id stage s = t
      ∧ t.seq.pc = p.entry % 65536 ∧ t.seq.reps = 0 ∧ t.seq.run = .running ∧ t.seq.level = .program ∧ t.seq.x = Vector.replicate 32 0 ∧ t.seq.loops = []
      ∧ t.seq.vshape = 0x1FFC ∧ t.seq.vflags = 0 ∧ t.seq.mflags = 0 ∧ t.seq.phase = 0 ∧ t.seq.parity = false ∧ t.seq.cycle = 0 ∧ t.seq.instret = 0
      ∧ t.seq.latcon = p.latcon ∧ t.seq.gmode = l.guarded ∧ t.seq.tenant = tenantOf v ∧ t.seq.yieldbound = s.seq.yieldbound ∧ t.seq.tvec = s.seq.tvec
      ∧ (∀ k, t.seq.ctx = some k → k.launch = l.id ∧ k.stage = stage ∧ k.vf = l.vf) ∧ t.seq.ctx.isSome = true
      ∧ t.regs = { Regs.afterReset with h := p.handles } ∧ t.mat = Mat.afterReset ∧ t.cpy = Cpy.afterReset ∧ t.code = p.code ∧ t.dict = p.dict
      ∧ t.rcv.ckpts = [c] ∧ c.seq = t.seq ∧ c.regs = t.regs ∧ t.pipe.flight = []
      ∧ (Memory.wf s.mem = true → (∀ k, k < 393216 → memGet t.mem k = 0) ∧ ∀ k, 393216 ≤ k → memGet t.mem k = memGet s.mem k))
  ∧ (∀ (s : State) (l : Launch) (v : Vf), launchAt s l.id = some l → vfAt s l.vf = some v →
    (l.state = .running → (∀ st ∈ l.stages, st.ended = true) →
      (l.completion = 0 → ∃ t k, exec (.launchComplete l.id) s = .next t ∧ launchAt t l.id = some k ∧ k.state = .completed
        ∧ told l.vf ⟨0x07, l.queue, l.record, 0⟩ s t ∧ coreKept s t)
      ∧ (l.completion ≠ 0 → s.links.pcie = false → ∃ t k, exec (.launchComplete l.id) s = .next t ∧ launchAt t l.id = some k ∧ k.state = .completed
        ∧ counterRaised v l.completion 1 s t ∧ t.hub.posts = s.hub.posts ++ [(l.vf, ⟨0x07, l.queue, l.record, 0⟩)] ∧ t.seq = s.seq))
    ∧ (l.state ≠ .running ∨ (∃ st ∈ l.stages, st.ended = false) → exec (.launchComplete l.id) s = .next s))
  ∧ (∀ (s : State) (l : Launch) (d r : Nat), choosePair s l = some (d, r) →
    d ≠ r ∧ (∃ x y, (x, d) ∈ openStages s l ∧ (y, r) ∈ openStages s l ∧ x.min < x.crew.length ∧ y.crew.length < y.max ∧ (∃ c ∈ x.crew, inMask y.dies c = true)
      ∧ 4096 ≤ pressure l y - pressure l x ∧ ∀ z ∈ openStages s l, z.1.min < z.1.crew.length → pressure l x ≤ pressure l z.1)
    ∧ ((rebalance s l).move = if l.pair = some (d, r) ∧ 1 ≤ l.streak then some (d, r) else none))
  ∧ (∀ (s : State) (l : Launch), choosePair s l = none → (rebalance s l).streak = 0 ∧ (rebalance s l).move = none)
  ∧ (∀ (s : State), (s.pipe.ref / 4096 ≤ s.hub.rebalDone → exec .rebalanceBoundary s = .next s)
    ∧ (s.hub.rebalDone < s.pipe.ref / 4096 → s.hub.saved = [] → (∀ p ∈ s.hub.parts, p.pool = []) → (∀ l ∈ s.hub.launches, l.state ≠ .submitted) →
      ∃ t, exec .rebalanceBoundary s = .next t ∧ t.hub.rebalDone = s.pipe.ref / 4096 ∧ coreKept s t
        ∧ t.hub.launches = s.hub.launches.map (fun l => if l.state = .running ∧ (∃ p ∈ s.hub.parts, p.switching = none ∧ runningVf p = some l.vf)
          then rebalance s l else l)))
  ∧ (∀ (s : State) (p : Part), (∀ e ∈ joins s p, e.2.2 ∈ freeCores s p ∧ ∃ l ∈ s.hub.launches, l.id = e.1 ∧ l.state = .running ∧ runningVf p = some l.vf
      ∧ ∃ x, (x, e.2.1) ∈ openStages s l ∧ x.crew.length < x.max ∧ inMask x.dies e.2.2 = true
        ∧ ∀ y ∈ openStages s l, y.1.crew.length < y.1.max → inMask y.1.dies e.2.2 = true → pressure l y.1 ≤ pressure l x)
    ∧ (∀ l st c, partAt s p.first = some p → s.hub.saved = [] → (∀ l ∈ s.hub.launches, l.state ≠ .submitted) → p.pool = [c] → 1 ≤ p.size → c ≠ pkgIndex s →
      joins s p = [(l, st, c)] → ∃ t k j x y q, exec (.coreAllocation p.first) s = .next t ∧ k ∈ s.hub.launches ∧ k.id = l ∧ k.stages[st]? = some x
        ∧ j ∈ t.hub.launches ∧ j.id = l ∧ j.stages[st]? = some y ∧ y.crew = x.crew ++ [c] ∧ partAt t p.first = some q ∧ q.pool = [] ∧ t.seq = s.seq))
  ∧ (∀ (s : State) (n : Nat), partAt s n = none → exec (.coreAllocation n) s = .next s)

/-- R306, R332 to R335, R339, R340, R407: at a slice boundary the highest-priority eligible entry runs, its slice its length less its charge; a
change of function pre-empts the outgoing one and charges it what the switch took; saved contexts resume on their core or another; dies are
divided into partitions where no function in CONFIG_LOCKED or RUN is bound to them (log entry 106); a gang's members switch at its time, and contexts not pre-empted 50 µs later are killed with cause 4; a core
that passes its self-test returns to service, but not after a third retirement. -/
def Obligations.slices_gangs_and_cores : Prop :=
  (∀ (l : List (Quantum × Nat)) (n i : Nat) (p q : Part), pickSlice l n p = (some i, q) → ∃ e, (e, i) ∈ l ∧ ∀ x ∈ l, x.1.priority ≤ e.priority)
  ∧ (∀ (s : State) (p : Part), partAt s p.first = some p →
    (sliceOver s p = false → exec (.sliceBoundary p.first) s = .next s)
    ∧ (∀ i q e, sliceOver s p = true → pickSlice (eligible s p) (sliceFuel p) p = (some i, q) → q.table[i]? = some e → e.gang = 0 →
      (runningVf p = none ∨ runningVf p = some e.vf ∨ (∀ l ∈ s.hub.launches, runningVf p = some l.vf → l.state ≠ .running) →
        ∃ t u r, exec (.sliceBoundary p.first) s = .next t ∧ t = allocate p.first u ∧ partAt u p.first = some r ∧ r.running = some i ∧ r.switching = none
          ∧ r.sliceEnd = s.pipe.ref + (1500 * e.slice - e.charge) ∧ r.table[i]? = some { e with charge := 0 } ∧ coreKept s u ∧ u.mem = s.mem)
      ∧ (∀ vf, runningVf p = some vf → vf ≠ e.vf → (∃ l ∈ s.hub.launches, l.vf = vf ∧ l.state = .running) →
        ∃ t r, exec (.sliceBoundary p.first) s = .next t ∧ partAt t p.first = some r ∧ r.switching = some (some i, s.pipe.ref) ∧ r.running = p.running
          ∧ (∀ c, s.seq.ctx = some c → c.vf = vf → s.seq.run = .running → s.seq.preempt = none →
              ∃ a, t.seq.preempt = some ⟨s.pipe.wall, a, 0, false⟩)
          ∧ (∀ l ∈ t.hub.launches, l.vf = vf → l.move = none ∧ l.streak = 0) ∧ t.regs = s.regs ∧ t.mem = s.mem)))
  ∧ (∀ (s : State) (p : Part), partAt s p.first = some p →
    (p.switching = none → exec (.preemptComplete p.first) s = .next s)
    ∧ (∀ x vf, p.switching = some x → p.running.isSome = true → runningVf p = some vf → allSaved s vf = false → exec (.preemptComplete p.first) s = .next s)
    ∧ (∀ q i e vf, p.switching = some (none, q) → p.running = some i → p.table[i]? = some e → runningVf p = some vf → allSaved s vf = true →
      ∃ t r, exec (.preemptComplete p.first) s = .next t ∧ partAt t p.first = some r ∧ r.running = none
        ∧ r.switching = none ∧ r.table[i]? = some { e with charge := e.charge + (s.pipe.ref - q) } ∧ coreKept s t)
    ∧ (∀ j q i e f vf, p.switching = some (some j, q) → p.running = some i → p.table[i]? = some e → p.table[j]? = some f → i ≠ j → f.gang = 0 →
      runningVf p = some vf → allSaved s vf = true → ∃ t u r, exec (.preemptComplete p.first) s = .next t ∧ t = allocate p.first u
        ∧ partAt u p.first = some r ∧ r.running = some j ∧ r.switching = none ∧ r.sliceEnd = s.pipe.ref + (1500 * f.slice - f.charge)
        ∧ r.table[i]? = some { e with charge := e.charge + (s.pipe.ref - q) } ∧ r.table[j]? = some { f with charge := 0 } ∧ coreKept s u))
  ∧ (∀ (s : State) (n : Nat), partAt s n = none → exec (.preemptComplete n) s = .next s ∧ exec (.sliceBoundary n) s = .next s)
  ∧ (∀ (s : State) (l : Launch) (v : Vf) (st : Nat) (e : Saved) (p : Placement), stagePlacement s l st = some p → vfAt s l.vf = some v →
    ∃ t t0, resumeHere l st e s = t ∧ t0.seq.level = .system ∧ t0.seq.run = .running ∧ t0.seq.tenant = tenantOf v ∧ t0.code = p.code ∧ t0.mem = s.mem
      ∧ t0.hub = s.hub ∧ t0.seq.item = e.item ∧ (∃ c, t0.seq.ctx = some c ∧ c.launch = l.id ∧ c.stage = st ∧ c.vf = l.vf)
      ∧ (∀ u, loadArea e.area t0 = .ok u → t.seq.level = .program ∧ t.seq.pc = bits u.seq.tpc.toNat 0 16 ∧ t.seq.reps = tpcReps u
          ∧ t.seq.x = u.seq.x ∧ t.regs = u.regs ∧ t.mem = u.mem ∧ t.mat = u.mat ∧ t.cpy = u.cpy)
      ∧ (∀ f, loadArea e.area t0 = .error f → t.seq.run = .stopped 1 f.code.toNat 0 ∧ t.mem = s.mem))
  ∧ (∀ (s : State) (e : Saved) (l : Launch) (v : Vf) (p : Part) (core : Nat), s.hub.saved.find? (fun x => x.launch == l.id && x.recovery) = some e →
    launchAt s l.id = some l → vfAt s l.vf = some v → partAt s v.part = some p → runningVf p = some l.vf → p.switching = none → l.state = .running →
    (∀ st x, stageOf l e.core = some st → l.stages[st]? = some x → core ∈ freeCores s p → inMask x.dies core = true → spans s l (some e.core) core = true → core ≠ pkgIndex s →
      ∃ t k y w, exec (.recoveryResume l.id core) s = .next t ∧ launchAt t l.id = some k ∧ k.stages[st]? = some y
        ∧ y.crew = x.crew.map (fun c => if c = e.core then core else c) ∧ core ∈ k.ran ∧ t.hub.saved = s.hub.saved.filter (fun x => x != e)
        ∧ (∀ q ∈ t.hub.parts, core ∉ q.pool) ∧ vfAt t l.vf = some w ∧ (core ≠ e.core → (e.core, core) ∈ w.remap) ∧ t.seq = s.seq ∧ t.regs = s.regs)
    ∧ (enabledIn s p (savedMask s e) = [] → core ∉ freeCores s p → ∃ t k, exec (.recoveryResume l.id core) s = .next t ∧ launchAt t l.id = some k
        ∧ k.state = .killed ∧ k.killInfo = some (6, e.core, 0, 0)))
  ∧ (∀ (s : State) (l core : Nat), (∀ e ∈ s.hub.saved, e.launch ≠ l ∨ e.recovery = false) → exec (.recoveryResume l core) s = .next s)
  ∧ (∀ (s : State) (first count size : Nat) (ok : Prop),
    (ok ↔ size ∈ [1, 2, 4, 8] ∧ 0 < count ∧ first + count ≤ 8 ∧ first % size = 0 ∧ count % size = 0
      ∧ (∀ p ∈ s.hub.parts, (first ≤ p.first ∧ p.first + p.size ≤ first + count) ∨ p.first + p.size ≤ first ∨ first + count ≤ p.first)
      ∧ (∀ d, first ≤ d → d < first + count → residentOn s d = false)
      ∧ ∀ v ∈ s.hub.vfs, v.tdisp = .locked ∨ v.tdisp = .run → v.part < first ∨ first + count ≤ v.part) →
    (¬ok → exec (.partitionChange first count size) s = .next s)
    ∧ (ok → ∃ t, exec (.partitionChange first count size) s = .next t ∧ coreKept s t ∧ t.mem = s.mem
      ∧ (∀ p ∈ s.hub.parts, p.first + p.size ≤ first ∨ first + count ≤ p.first → p ∈ t.hub.parts)
      ∧ (∀ i, i < count / size → ∃ q ∈ t.hub.parts, q.first = first + size * i ∧ q.size = size ∧ q.running = none ∧ q.switching = none
        ∧ ∀ p ∈ s.hub.parts, first ≤ p.first → p.first + p.size ≤ first + count → ∀ c ∈ p.pool, q.first ≤ c / 96 → c / 96 < q.first + size → c ∈ q.pool)
      ∧ (∀ v ∈ s.hub.vfs, (∀ i, i < count / size → first + size * i ≤ v.part → v.part < first + size * i + size →
          { v with part := first + size * i } ∈ t.hub.vfs)
        ∧ (v.part < first ∨ first + count ≤ v.part → v ∈ t.hub.vfs))))
  ∧ (∀ (s : State) (g a b : Nat), (1 ≤ g → g < 65536 → ∃ t, exec (.gangSliceTimes g a b) s = .next t ∧ coreKept s t ∧ t.mem = s.mem
      ∧ t.hub.gangs = s.hub.gangs.filter (fun x => x.gang != g) ++ [⟨g, a, b, false⟩])
    ∧ (g = 0 ∨ 65536 ≤ g → exec (.gangSliceTimes g a b) s = .next s))
  ∧ (∀ (s : State) (x : Gang), s.hub.gangs.find? (fun g => g.gang == x.gang && !g.active) = some x →
    (s.links.podTime < 1500 * x.start → exec (.gangSliceStart x.gang) s = .next s)
    ∧ (1500 * x.start ≤ s.links.podTime → ∀ f i p e, gangEntries s x.gang = [(f, i)] → partAt s f = some p → p.table[i]? = some e →
      (∀ y q, p.switching = some (y, q) → ∃ t r, exec (.gangSliceStart x.gang) s = .next t ∧ partAt t f = some r ∧ r.switching = some (some i, q)
        ∧ { x with active := true } ∈ t.hub.gangs ∧ coreKept s t)
      ∧ (∀ vf, p.switching = none → runningVf p = some vf → vf ≠ e.vf → ∃ t r, exec (.gangSliceStart x.gang) s = .next t ∧ partAt t f = some r
        ∧ r.switching = some (some i, s.pipe.ref) ∧ { x with active := true } ∈ t.hub.gangs ∧ t.regs = s.regs ∧ t.mem = s.mem)))
  ∧ (∀ (s : State) (x : Gang), s.hub.gangs.find? (fun g => g.gang == x.gang && g.active) = some x →
    (s.links.podTime < 1500 * (x.start + 50) → exec (.gangPreemptTimeout x.gang) s = .next s)
    ∧ (1500 * (x.start + 50) ≤ s.links.podTime → ∀ f i p q vf l, gangEntries s x.gang = [(f, i)] → partAt s f = some p → p.switching = some (some i, q) →
      runningVf p = some vf → lateLaunches s vf = [l.id] → launchAt s l.id = some l → killable l = true → ∃ t k, exec (.gangPreemptTimeout x.gang) s = .next t
        ∧ launchAt t l.id = some k ∧ k.state = .killed ∧ k.killInfo = some (4, pkgIndex s, 0, 0)))
  ∧ (∀ (s : State) (n : Nat), (∀ g ∈ s.hub.gangs, g.gang ≠ n) → exec (.gangSliceStart n) s = .next s ∧ exec (.gangPreemptTimeout n) s = .next s)
  ∧ (∀ (s : State) (c : Nat) (pass : Bool),
    (768 ≤ c ∨ s.links.stage < 3 ∨ (c = pkgIndex s ∧ s.seq.ctx.isSome = true) → exec (.coreSelfTest c pass) s = .next s)
    ∧ (c < 768 → 3 ≤ s.links.stage → (∀ l ∈ s.hub.launches, ∀ st ∈ l.stages, c ∉ st.crew) → (c = pkgIndex s → s.seq.ctx = none ∧ drained s = true) →
      (pass = true → (c = pkgIndex s → s.rcv.retiredCount < 3) → ∃ t, exec (.coreSelfTest c pass) s = .next t ∧ c ∉ t.hub.disabled
        ∧ (∀ d, d ≠ c → (d ∈ t.hub.disabled ↔ d ∈ s.hub.disabled)) ∧ (c = pkgIndex s → s.seq.run = .retired → t.seq.run = .idle)
        ∧ (s.hub.disabledDies = [] → ∀ p ∈ s.hub.parts, p.first ≤ c / 96 → c / 96 < p.first + p.size → ∃ q ∈ t.hub.parts, q.first = p.first ∧ c ∈ q.pool)
        ∧ t.regs = s.regs ∧ t.mem = s.mem)
      ∧ (pass = false ∨ (c = pkgIndex s ∧ 3 ≤ s.rcv.retiredCount) → ∃ t, exec (.coreSelfTest c pass) s = .next t ∧ c ∈ t.hub.disabled
        ∧ (∀ q ∈ t.hub.parts, c ∉ q.pool) ∧ coreKept s t ∧ t.mem = s.mem)))


/-! ### The memory system's own work and the generator (R351, R352, R355 to R362, R365, R368, R369, R408) -/

/-- R351, R352: a migration freezes the leaf and drops its translations, busy for a page that is frozen already; it copies the page once every
earlier write to it is performed; the switch sends the leaf to the target, and what waits on its way there with it, and fails when
software changed the leaf; the old copy is released once no load still reads it. -/
def Obligations.migration_completes : Prop :=
  (∀ (s : State) (vf tier dpa : Nat) (va : Word),
    (vfAt s vf = none → ∃ t, exec (.migrationRequest vf va tier dpa) s = .next t ∧ t.trust.replies = s.trust.replies ++ [⟨0, "MIGRATE", 0xFF, []⟩]
      ∧ t.mem = s.mem ∧ t.sys = s.sys)
    ∧ (∀ v x, vfAt s vf = some v → walkVf v s va.toNat = .ok x →
      (ptFrozen x.w0.toNat = true → ∃ t, exec (.migrationRequest vf va tier dpa) s = .next t
        ∧ t.trust.replies = s.trust.replies ++ [⟨0, "MIGRATE", 1, []⟩] ∧ t.mem = s.mem ∧ t.sys = s.sys)
      ∧ (ptFrozen x.w0.toNat = false → tier < 3 → dpa % x.size = 0 → tierFits s tier dpa x.size = true →
        (tierKey tier dpa + x.size ≤ globalKey [x] x.va ∨ globalKey [x] x.va + x.size ≤ tierKey tier dpa) → Memory.wf s.mem = true →
        ∃ t, exec (.migrationRequest vf va tier dpa) s = .next t ∧ coreKept s t
          ∧ t.sys.migrations = s.sys.migrations ++ [⟨vf, x.va, x.leafAddr, x.w0 ||| 0x40, x.w1, tier, dpa, x.size, false, false⟩]
          ∧ entryWords t x.leafAddr = ((entryWords s x.leafAddr).1 ||| 0x40, (entryWords s x.leafAddr).2)
          ∧ t.sys.tlb = s.sys.tlb.filter (fun y => y.vf != vf || decide (y.va + y.size ≤ x.va) || decide (x.va + x.size ≤ y.va))
          ∧ ∀ k, k < x.leafAddr ∨ x.leafAddr + 8 ≤ k → memGet t.mem k = memGet s.mem k)))
  ∧ (∀ (s : State) (vf : Nat) (va : Word) (m : Migration), migrationAt s vf va = some m →
    (m.copied = true ∨ pageWritesOut s m.source m.size = true → exec (.migrationCopy vf va) s = .next s)
    ∧ (m.copied = false → pageWritesOut s m.source m.size = false → Memory.wf s.mem = true →
      (m.source + m.size ≤ m.target ∨ m.target + m.size ≤ m.source) →
      ∃ t, exec (.migrationCopy vf va) s = .next t ∧ coreKept s t
        ∧ t.sys.migrations = s.sys.migrations.map (fun x => if x = m then { x with copied := true } else x)
        ∧ (∀ j, j < m.size → memGet t.mem (m.target + j) = memGet s.mem (m.source + j))
        ∧ (∀ k, k < m.target ∨ m.target + m.size ≤ k → memGet t.mem k = memGet s.mem k))
    ∧ (m.copied = false → exec (.migrationSwitch vf va) s = .next s)
    ∧ (∀ w, w = entryWords s m.leafAddr → m.copied = true → s.sys.stalled = [] → Memory.wf s.mem = true → m.tier < 3 → m.dpa % 512 = 0 → m.dpa < 2 ^ 56 →
      (swFields w.1 w.2 = swFields m.leaf0.toNat m.leaf1.toNat → ∃ t, exec (.migrationSwitch vf va) s = .next t
        ∧ t.sys.migrations = s.sys.migrations.map (fun x => if x = m then { x with switched := true } else x) ∧ (entryWords t m.leafAddr).2 = w.2
        ∧ ptTier (entryWords t m.leafAddr).1 = m.tier ∧ ptPa (entryWords t m.leafAddr).1 = m.dpa ∧ ptFrozen (entryWords t m.leafAddr).1 = false
        ∧ bits (entryWords t m.leafAddr).1 0 6 = bits w.1 0 6
        ∧ t.sys.tlb = s.sys.tlb.filter (fun y => y.vf != m.vf || decide (y.va + y.size ≤ m.va) || decide (m.va + m.size ≤ y.va))
        ∧ t.out.heldBack = s.out.heldBack.map (OutEntry.movePage m.source m.target m.size)
        ∧ t.out.pending = s.out.pending.map (OutEntry.movePage m.source m.target m.size)
        ∧ (∀ k, k < m.leafAddr ∨ m.leafAddr + 8 ≤ k → memGet t.mem k = memGet s.mem k) ∧ t.seq = s.seq ∧ t.regs = s.regs)
      ∧ (swFields w.1 w.2 ≠ swFields m.leaf0.toNat m.leaf1.toNat → m.target % 4096 = 0 → m.size % 4096 = 0 →
        (m.leafAddr + 16 ≤ m.target ∨ m.target + m.size ≤ m.leafAddr) → ∃ t, exec (.migrationSwitch vf va) s = .next t
        ∧ t.sys.migrations = s.sys.migrations.filter (fun x => x != m) ∧ ptFrozen (entryWords t m.leafAddr).1 = false
        ∧ ptTier (entryWords t m.leafAddr).1 = ptTier w.1 ∧ ptPa (entryWords t m.leafAddr).1 = ptPa w.1
        ∧ (∀ r ∈ s.sys.recs, m.target ≤ 4096 * r.block → 4096 * r.block < m.target + m.size → (recAt t r.block).zero = true)
        ∧ t.seq = s.seq ∧ t.regs = s.regs)))
  ∧ (∀ (s : State) (vf : Nat) (va : Word), migrationAt s vf va = none → exec (.migrationCopy vf va) s = .next s
    ∧ ((∀ m ∈ s.sys.migrations, m.vf = vf → m.va = va.toNat → m.switched = false) → exec (.migrationSwitch vf va) s = .next s)
    ∧ (∀ m, s.sys.migrations.find? (fun m => m.vf == vf && m.va == va.toNat && m.switched) = some m →
      (pageReadsOut s m.source m.size = true → exec (.migrationSwitch vf va) s = .next s)
      ∧ (pageReadsOut s m.source m.size = false → m.source % 4096 = 0 → m.size % 4096 = 0 → Memory.wf s.mem = true →
        ∃ t, exec (.migrationSwitch vf va) s = .next t ∧ t.sys.migrations = s.sys.migrations.filter (fun x => x != m)
          ∧ (∀ r ∈ s.sys.recs, m.source ≤ 4096 * r.block → 4096 * r.block < m.source + m.size → (recAt t r.block).zero = true
            ∧ ∀ j, j < 4096 → memGet t.mem (4096 * r.block + j) = 0)
          ∧ (∀ k, k < m.source ∨ m.source + m.size ≤ k → memGet t.mem k = memGet s.mem k) ∧ t.seq = s.seq ∧ t.regs = s.regs)))


/-- R355, R356, R358 to R362, R408: refreshes of a bank may be postponed, 8 at most; an alert issues all that is owed; a retraining takes at
most 4 µs and changes no stored value, moves a lane that stayed below three times to the spare, and a second such lane disables the
pseudo-channel; the bandwidth registers accept what R360 allows, and a boundary gives the tokens of R361, none of the last interval kept. R365, R368, R369, R390: a retest takes 1,024 fresh samples; when they pass the count clears and the generator is reseeded, else the count rises, and
the third failure is FAULT; a reseed comes after 2^20 requests; HEALTH answers the state and the count. 32 identical samples in a row fail. -/
def Obligations.memory_upkeep_and_generator_complete : Prop :=
  ((∀ (s : State) (a c p b : Nat), (16 ≤ a ∨ 32 ≤ c ∨ 2 ≤ p ∨ 16 ≤ b → exec (.perBankRefresh a c p b) s = .next s ∧ exec (.activationAlert a c p b) s = .next s)
    ∧ (a < 16 → c < 32 → p < 2 → b < 16 →
      (∃ t, exec (.perBankRefresh a c p b) s = .next t ∧ (bankAt t a c p b).owed ≤ 8 ∧ (bankAt t a c p b).owed ≤ (bankAt s a c p b).owed + 1
        ∧ (bankAt t a c p b).refreshes + (bankAt t a c p b).owed = (bankAt s a c p b).refreshes + (bankAt s a c p b).owed + 1 ∧ t.mem = s.mem
        ∧ coreKept s t)
      ∧ (∃ t, exec (.activationAlert a c p b) s = .next t ∧ (bankAt t a c p b).owed = 0
        ∧ (bankAt t a c p b).refreshes = (bankAt s a c p b).refreshes + (bankAt s a c p b).owed
        ∧ (bankAt t a c p b).mgmt = (bankAt s a c p b).mgmt + 1 ∧ t.mem = s.mem ∧ coreKept s t)))
  ∧ (∀ (s : State) (a c p n : Nat) (clear : Bool),
    (16 ≤ a ∨ 32 ≤ c ∨ 2 ≤ p ∨ (∃ r ∈ s.sys.retraining, r.1 = a ∧ s.pipe.ref < r.2.2) → exec (.channelRetrain a c p n clear) s = .next s)
    ∧ (a < 16 → c < 32 → p < 2 → (∀ r ∈ s.sys.retraining, r.1 = a → r.2.2 ≤ s.pipe.ref) →
      ∃ t e, exec (.channelRetrain a c p n clear) s = .next t ∧ (a, c, e) ∈ t.sys.retraining ∧ s.pipe.ref ≤ e ∧ e ≤ s.pipe.ref + 6000 ∧ t.mem = s.mem
        ∧ coreKept s t
        ∧ ((laneAt s a c p n).repaired = false → (laneAt s a c p n).below < 3 →
            (laneAt t a c p n).below = (if clear then 0 else (laneAt s a c p n).below + 1) ∧ (laneAt t a c p n).repaired = false)
        ∧ (3 ≤ (laneAt s a c p n).below → (laneAt t a c p n).repaired = true)
        ∧ ((laneAt s a c p n).repaired = false → (laneAt s a c p n).below = 2 → clear = false →
            (∃ x ∈ s.sys.lanes, x.stack = a ∧ x.chan = c ∧ x.pc = p ∧ x.lane ≠ n ∧ x.repaired = true) → (a, c, p) ∈ t.sys.deadPc)))
  ∧ (∀ (s : State) (w : Word),
    (1 ≤ w.toNat → w.toNat ≤ 524288 → exec (.budgetWrite w) s = .next { s with sys := { s.sys with budget := w.toNat } })
    ∧ (w.toNat = 0 ∨ 524288 < w.toNat → exec (.budgetWrite w) s = .next s)
    ∧ (∀ (i : Nat) (ok : Prop), (ok ↔ i < 1024 ∧ w.toNat < 2 ^ 27
        ∧ bits w.toNat 16 11 + ((s.sys.shares.filter (fun e => e.1 != i)).map (fun e => e.2.1)).sum ≤ 1024
        ∧ (bits w.toNat 16 11 ≠ 0 → ∀ e ∈ s.sys.shares, e.1 ≠ i → e.2.1 ≠ 0 → e.2.2 ≠ bits w.toNat 0 16)) →
      (¬ok → exec (.shareWrite i w) s = .next s)
      ∧ (ok → ∃ t, exec (.shareWrite i w) s = .next t ∧ shareAt t i = (bits w.toNat 16 11, bits w.toNat 0 16) ∧ (∀ j, j ≠ i → shareAt t j = shareAt s j)
        ∧ coreKept s t ∧ t.mem = s.mem)))
  ∧ (∀ (s : State), (s.pipe.ref / 1024 ≤ s.sys.bwDone → exec .bandwidthBoundary s = .next s)
    ∧ (s.sys.bwDone < s.pipe.ref / 1024 → ∃ t, exec .bandwidthBoundary s = .next t ∧ t.sys.bwDone = s.pipe.ref / 1024 ∧ t.out.spent = false
      ∧ t.out.waiting = false ∧ t.seq = s.seq ∧ t.regs = s.regs ∧ t.mem = s.mem ∧ t.out.paddock = s.out.paddock
      ∧ (hasDemand s = false ∨ throttled s = false → t.out.tokens = 0)
      ∧ (hasDemand s = true → throttled s = true → ∃ n o q, 1 ≤ n ∧ n ≤ 768
        ∧ o ≤ ((s.sys.shares.filter (fun e => e.2.1 != 0 && e.2.2 != ctxTag s)).map (fun e => e.2.1)).sum
        ∧ q = s.sys.budget * shareOf s (ctxTag s) / (shareOf s (ctxTag s) + o) ∧ (t.out.tokens = q / n ∨ t.out.tokens = q / n + 1)))))
  ∧ ((∀ (s : State), s.trust.retesting = true → s.trust.fault = false → ∃ t, exec .rngRetest s = .next t ∧ t.trust.samples = s.trust.samples + 1024
    ∧ coreKept s t ∧ t.mem = s.mem
    ∧ (((noiseBytes s.trust.samples 1024).foldl (fun h b => healthStep b h) Health.start).tripped = false → t.trust.failures = 0
        ∧ t.trust.retesting = false ∧ t.trust.fault = false ∧ t.trust.sinceSeed = 0 ∧ t.trust.rng = shake256 64 (noiseBytes s.trust.samples 1024))
    ∧ (((noiseBytes s.trust.samples 1024).foldl (fun h b => healthStep b h) Health.start).tripped = true → t.trust.failures = s.trust.failures + 1
        ∧ t.trust.rng = s.trust.rng ∧ (t.trust.fault = true ↔ 2 ≤ s.trust.failures) ∧ (t.trust.retesting = true ↔ s.trust.failures < 2)))
  ∧ (∀ (s : State), s.trust.retesting = false ∨ s.trust.fault = true → exec .rngRetest s = .next s)
  ∧ (∀ (s : State), (s.trust.sinceSeed < 2 ^ 20 ∨ s.trust.fault = true ∨ s.trust.retesting = true → exec .rngReseed s = .next s)
    ∧ (2 ^ 20 ≤ s.trust.sinceSeed → s.trust.fault = false → s.trust.retesting = false → ∃ t, exec .rngReseed s = .next t
      ∧ t.trust.samples = s.trust.samples + 1024 ∧ coreKept s t
      ∧ (t.trust.health.tripped = false → t.trust.rng = shake256 64 (noiseBytes s.trust.samples 1024) ∧ t.trust.sinceSeed = 0)
      ∧ (t.trust.health.tripped = true → t.trust.rng = s.trust.rng ∧ t.trust.sinceSeed = s.trust.sinceSeed)))
  ∧ (∀ (s : State), ∃ t, exec .health s = .next t ∧ coreKept s t ∧ t.mem = s.mem
    ∧ t.trust = { s.trust with replies := s.trust.replies ++ [⟨0, "HEALTH", 0, [if s.trust.fault then 1 else 0, BitVec.ofNat 8 s.trust.failures]⟩] })
  ∧ (∀ (b : Byte) (h : Health) (n : Nat), 32 ≤ n → ((List.replicate n b).foldl (fun h b => healthStep b h) h).tripped = true))


/-! ### Tack: mailbox, functions, SPDM and TDISP (R318, R365, R367, R371, R389 to R391, R393, R395, R396, R400, R404, R406) -/

/-- R365, R371, R395, R396, R404, R406: the mailbox: a drawn nonce, an unlock only for a signed record of this serial and nonce that spends the nonce,
a handshake message to a known peer, READY once at stage 6, an image that verifies and is not below the fused version, the metadata region
once; in Shed mode these are refused but for the image and SHED_CLEAR, which resets the package with count 0. -/
def Obligations.mailbox_requests_complete : Prop :=
  (∀ (s : State), s.links.shed = false → ∃ t, exec .debugNonce s = .next t ∧ coreKept s t ∧ t.mem = s.mem
    ∧ ((∃ n, t.trust.nonce = some n ∧ t.trust.replies = s.trust.replies ++ [⟨0, "DEBUG_NONCE", 0, n⟩])
      ∨ (t.trust.nonce = none ∧ t.trust.replies = s.trust.replies ++ [⟨0, "DEBUG_NONCE", 0xFF, []⟩])))
  ∧ (∀ (s : State) (n : List Byte), s.links.shed = false → rngHealthy s → n = shake256 32 (s.trust.rng ++ [1]) → ∃ t, exec .debugNonce s = .next t
    ∧ coreKept s t ∧ t.mem = s.mem ∧ t.trust = { s.trust with
        nonce := some n
        rng := shake256 64 (s.trust.rng ++ [2])
        sinceSeed := s.trust.sinceSeed + 1
        replies := s.trust.replies ++ [⟨0, "DEBUG_NONCE", 0, n⟩] })
  ∧ (∀ (s : State) (r : List Byte), s.links.shed = false →
    (unlockForm r = false → ∃ t, exec (.debugUnlock r) s = .next t ∧ replied 0 "DEBUG_UNLOCK" 0xFF [] s t ∧ t.trust.debug = s.trust.debug)
    ∧ (∀ ok level, unlockForm r = true → (r[52]?).map (·.toNat) = some level →
      (ok ↔ s.trust.nonce = some ((r.drop 20).take 32) ∧ Config.ed448Verify (r.take 64) (r.drop 64) = true ∧ (r.drop 4).take 16 = Config.serial
        ∧ (level = 2 → ∀ v ∈ s.hub.vfs, v.tdisp ≠ .locked ∧ v.tdisp ≠ .run)) →
      ∃ t, exec (.debugUnlock r) s = .next t ∧ (s.trust.nonce = some ((r.drop 20).take 32) → t.trust.nonce = none)
        ∧ (s.trust.nonce ≠ some ((r.drop 20).take 32) → t.trust.nonce = s.trust.nonce)
        ∧ (ok → replied 0 "DEBUG_UNLOCK" 0 [] s t ∧ t.trust.debug = max s.trust.debug level
          ∧ t.trust.meas.get 5 = extendLog (s.trust.meas.get 5) (leBytes 1 level ++ shake256 64 r))
        ∧ (¬ok → replied 0 "DEBUG_UNLOCK" 1 [] s t ∧ t.trust.debug = s.trust.debug ∧ t.trust.meas = s.trust.meas)))
  ∧ (∀ (s : State) (p : Nat) (m : List Byte), s.links.shed = false →
    ((∃ x ∈ s.trust.peers, x.peer = p) → ∃ t, exec (.fabric p m) s = .next t ∧ coreKept s t
      ∧ t.trust.replies = s.trust.replies ++ [⟨2000 + p, "FABRIC", 0, m⟩, ⟨0, "FABRIC", 0, []⟩])
    ∧ ((∀ x ∈ s.trust.peers, x.peer ≠ p) → ∃ t, exec (.fabric p m) s = .next t ∧ replied 0 "FABRIC" 0xFF [] s t))
  ∧ (∀ (s : State), s.links.shed = false →
    (s.links.readyDone = false → s.links.stage = 6 → s.links.holding = none → ∃ t, exec .ready s = .next t ∧ replied 0 "READY" 0 [] s t
      ∧ t.links = { s.links with readyDone := true, stage := 7, count := 0 } ∧ t.trust.meas.get 4 = mapBytes s)
    ∧ (s.links.readyDone = true ∨ s.links.stage ≠ 6 ∨ s.links.holding ≠ none → ∃ t, exec .ready s = .next t ∧ replied 0 "READY" 0xFF [] s t
      ∧ t.links = s.links))
  ∧ (∀ (s : State) (tack : Bool) (ver : Nat) (img : List Byte),
    (Config.ed448Verify img [] = true → Config.fusedVersion ≤ ver → ∃ t, exec (.fwUpdate tack ver img) s = .next t
      ∧ replied 0 "FW_UPDATE" 0 [] s t ∧ t.trust.flash = (tack, ver, img) :: s.trust.flash.filter (fun e => e.1 != tack))
    ∧ (Config.ed448Verify img [] = false ∨ ver < Config.fusedVersion → ∃ t, exec (.fwUpdate tack ver img) s = .next t
      ∧ replied 0 "FW_UPDATE" 1 [] s t ∧ t.trust.flash = s.trust.flash))
  ∧ (∀ (s : State) (base size : Nat), s.links.shed = false →
    (0 < size → base + size ≤ 2 ^ 56 → s.trust.hostmeta = none → ∃ t, exec (.hostmeta base size) s = .next t ∧ replied 0 "HOSTMETA" 0 [] s t
      ∧ t.trust.hostmeta = some (base, size))
    ∧ (size = 0 ∨ 2 ^ 56 < base + size ∨ s.trust.hostmeta ≠ none → ∃ t, exec (.hostmeta base size) s = .next t ∧ replied 0 "HOSTMETA" 0xFF [] s t
      ∧ t.trust.hostmeta = s.trust.hostmeta))
  ∧ (∀ (s : State) (i : Instr) (k : String) (r m : List Byte) (p b z : Nat), s.links.shed = true →
    (i, k) ∈ [(Instr.debugNonce, "DEBUG_NONCE"), (.debugUnlock r, "DEBUG_UNLOCK"), (.fabric p m, "FABRIC"), (.ready, "READY"), (.hostmeta b z, "HOSTMETA")] →
    ∃ t, exec i s = .next t ∧ replied 0 k 0xFF [] s t ∧ t.links = s.links)
  ∧ (∀ (s : State), (s.links.shed = false → ∃ t, exec .shedClear s = .next t ∧ replied 0 "SHED_CLEAR" 0xFF [] s t ∧ t.links = s.links)
    ∧ (s.links.shed = true → ∃ t, exec .shedClear s = .next t ∧ t.links.shed = false ∧ t.links.stage = 0 ∧ t.links.count = 0
      ∧ t.links.reasons = s.links.reasons ∧ t.seq = Seq.afterReset ∧ t.trust.slots = [] ∧ t.trust.flash = s.trust.flash))

/-- R367, R391, R395, R400: a function is assigned with an EMPTY slot made LIVE; unbinding, a function-level reset, a stop and an IDE failure kill its
launches, revoke its slot and scrub every block under it; a lock needs an idle, unlocked interface and no debug level 2, and gives a fresh
slot, or none until a stop where the draw fails (that a lock is then refused too is log entry 105); a start needs a locked one; the report and the state tell what R391 names. -/
def Obligations.function_interfaces_complete : Prop :=
  (∀ (s : State) (vf part : Nat) (p : Part), vf < 1024 → s.links.shed = false → partAt s part = some p →
    (vfAt s vf = none → ∃ t w, exec (.vfAssign vf part) s = .next t ∧ bound vf s t ∧ vfAt t vf = some w ∧ w = { newVf vf part with slot := w.slot }
      ∧ coreKept s t ∧ t.mem = s.mem)
    ∧ (∀ v, vfAt s vf = some v → v.assigned = true →
      (v.slot.isSome = true → exec (.vfAssign vf part) s = .next s)
      ∧ (v.barred = true → exec (.vfAssign vf part) s = .next s)
      ∧ (v.slot = none → v.barred = false → ∃ t, exec (.vfAssign vf part) s = .next t ∧ bound vf s t ∧ coreKept s t)))
  ∧ (∀ (s : State) (vf part : Nat), 1024 ≤ vf ∨ s.links.shed = true ∨ partAt s part = none → exec (.vfAssign vf part) s = .next s)
  ∧ (∀ (s : State) (vf : Nat) (v : Vf), vfAt s vf = some v →
    (∃ t w, exec (.unbind vf) s = .next t ∧ vfAt t vf = some w ∧ w.assigned = false ∧ w.tdisp = .unlocked ∧ w.slot = none ∧ revoked vf v s t
      ∧ ∀ q ∈ t.hub.queues, q.vf = vf → q.state = .off)
    ∧ (∃ t w, exec (.functionLevelReset vf) s = .next t ∧ vfAt t vf = some w ∧ revoked vf v s t ∧ w.part = v.part ∧ w.tdisp = .unlocked ∧ w.root = 0
      ∧ w.ringBase = 0 ∧ w.ringCtl = 0 ∧ w.ringHead = 0 ∧ w.ringTail = 0 ∧ w.invBusy = false ∧ w.err = Vector.replicate 16 0 ∧ w.assigned = v.assigned
      ∧ w.meas7 = v.meas7 ∧ w.meas8 = v.meas8 ∧ w.meas9 = v.meas9 ∧ (v.assigned = false → w.slot = none)
      ∧ (∀ n, w.slot = some n → (keySlot t n).state = .live)
      ∧ ∀ q ∈ t.hub.queues, q.vf = vf → q.state = .off ∧ q.base = 0 ∧ q.size = 0 ∧ q.doorbell = 0 ∧ q.head = 0 ∧ q.last = none ∧ q.wait = [])
    ∧ (∃ t w, exec (.stopInterface vf) s = .next t ∧ vfAt t vf = some w ∧ w.tdisp = .unlocked ∧ w.barred = false ∧ revoked vf v s t
      ∧ t.trust.replies = s.trust.replies ++ [⟨vf + 2, "STOP_INTERFACE", 0, []⟩] ∧ (v.assigned = false → w.slot = none)
      ∧ ∀ n, w.slot = some n → (keySlot t n).state = .live ∧ (keySlot t n).tag = BitVec.ofNat 16 vf)
    ∧ (v.tdisp = .run → ∃ t w, exec (.ideIntegrityFailure vf) s = .next t ∧ vfAt t vf = some w ∧ w.tdisp = .error ∧ w.slot = none ∧ revoked vf v s t
      ∧ ∀ q ∈ t.hub.queues, q.vf = vf → q.state = .off)
    ∧ (v.tdisp ≠ .run → exec (.ideIntegrityFailure vf) s = .next s)
    ∧ (∀ ok, (ok ↔ v.tdisp = .unlocked ∧ (∀ q ∈ s.hub.queues, q.vf = vf → q.state = .off) ∧ vfResident s vf = false ∧ s.trust.debug ≠ 2
        ∧ v.barred = false) →
      (¬ok → ∃ t, exec (.lockInterface vf) s = .next t ∧ replied (vf + 2) "LOCK_INTERFACE" 0x0001 [] s t ∧ t.hub = s.hub)
      ∧ (ok → ∃ t w, exec (.lockInterface vf) s = .next t ∧ vfAt t vf = some w
        ∧ (∀ n, v.slot = some n → w.slot ≠ some n ∧ ∀ r ∈ t.sys.recs, r.slot = n → r.zero = true)
        ∧ (w.slot.isSome = true → w.tdisp = .locked ∧ t.trust.replies = s.trust.replies ++ [⟨vf + 2, "LOCK_INTERFACE", 0, []⟩]
          ∧ ∀ n, w.slot = some n → (keySlot t n).state = .live)
        ∧ (w.slot = none → w.tdisp = .unlocked ∧ w.barred = true ∧ t.trust.replies = s.trust.replies ++ [⟨vf + 2, "LOCK_INTERFACE", 0x0005, []⟩])))
    ∧ (v.tdisp = .locked → ∃ t, exec (.startInterface vf) s = .next t ∧ replied (vf + 2) "START_INTERFACE" 0 [] s t
      ∧ vfAt t vf = some { v with tdisp := .run })
    ∧ (v.tdisp ≠ .locked → ∃ t, exec (.startInterface vf) s = .next t ∧ replied (vf + 2) "START_INTERFACE" 0x0004 [] s t ∧ t.hub = s.hub)
    ∧ (v.tdisp = .locked ∨ v.tdisp = .run → ∃ t d, exec (.getDeviceInterfaceReport vf) s = .next t ∧ replied (vf + 2) "DEVICE_INTERFACE_REPORT" 0
          ((s.hub.queues.filter (fun q => q.vf == vf)).flatMap (fun q => leBytes 4 (64 * q.q)) ++ leBytes 1 v.part ++ leBytes 1 d) s t
      ∧ (v.slot = none → d = 0) ∧ ∀ n, v.slot = some n → ((keySlot s n).state = .empty → d = 0) ∧ ((keySlot s n).state = .live → d = 1)
        ∧ ((keySlot s n).state = .revoked → d = 2))
    ∧ (v.tdisp = .unlocked ∨ v.tdisp = .error → ∃ t, exec (.getDeviceInterfaceReport vf) s = .next t
      ∧ replied (vf + 2) "DEVICE_INTERFACE_REPORT" 0x0004 [] s t)
    ∧ (∀ n, (v.tdisp, n) ∈ [(Tdisp.unlocked, 0), (.locked, 1), (.run, 2), (.error, 3)] → ∃ t, exec (.getDeviceInterfaceState vf) s = .next t
      ∧ replied (vf + 2) "DEVICE_INTERFACE_STATE" 0 (leBytes 1 n) s t ∧ t.hub = s.hub)
    ∧ (∃ t, exec (.getTdispVersion vf) s = .next t ∧ replied (vf + 2) "TDISP_VERSION" 0 [0x10] s t ∧ t.hub = s.hub)
    ∧ (∃ t, exec (.getTdispCapabilities vf) s = .next t ∧ replied (vf + 2) "TDISP_CAPABILITIES" 0 [0, 0, 0, 0] s t ∧ t.hub = s.hub)
    ∧ (∀ m, ∃ t, exec (.unsupportedRequest vf m) s = .next t ∧ replied (vf + 2) "TDISP_ERROR" 0x0007 (leBytes 4 m) s t ∧ t.hub = s.hub))
  ∧ (∀ (s : State) (vf m : Nat) (i : Instr), vfAt s vf = none → i ∈ [Instr.unbind vf, .functionLevelReset vf, .stopInterface vf, .ideIntegrityFailure vf,
      .lockInterface vf, .startInterface vf, .getDeviceInterfaceReport vf, .getDeviceInterfaceState vf, .getTdispVersion vf, .getTdispCapabilities vf,
      .unsupportedRequest vf m] → exec i s = .next s)

/-- R318, R389, R390, R393: an SPDM request in its order is answered and moves the function's exchange on; a request out of order is answered
UnexpectedRequest and changes nothing (the order and the codes are the model's, log entry 18); a key update sends the function's queues to RUN
with no last number. -/
def Obligations.spdm_requests_complete : Prop :=
  (∀ (s : State) (fn : Nat) (x : Session), fnExists s fn = true → x = sessionOf s fn →
    (∃ t, exec (.getVersion fn) s = .next t ∧ replied (fn + 1) "VERSION" 0 [0x12] s t ∧ sessionOf t fn = ⟨fn, true, false, false, false, false, [], 0⟩)
    ∧ (x.version = true → ∃ t, exec (.getCapabilities fn) s = .next t ∧ replied (fn + 1) "CAPABILITIES" 0 (leBytes 4 0x62D6) s t
      ∧ sessionOf t fn = { x with caps := true })
    ∧ (x.caps = true → (∃ t, exec (.negotiateAlgorithms fn true) s = .next t ∧ replied (fn + 1) "ALGORITHMS" 0 [] s t ∧ sessionOf t fn = { x with algs := true })
      ∧ ∃ t, exec (.negotiateAlgorithms fn false) s = .next t ∧ replied (fn + 1) "ALGORITHMS" 0x01 [] s t ∧ sessionOf t fn = x)
    ∧ (x.algs = true →
      (∃ t, exec (.getDigests fn) s = .next t ∧ replied (fn + 1) "DIGESTS" 0 (if s.links.shed then sha3_512 (Config.certificate 0)
        else sha3_512 (Config.certificate 0) ++ sha3_512 (Config.certificate 1)) s t ∧ sessionOf t fn = x)
      ∧ (∀ slot nonce, (slot = 0 ∨ slot = 1 ∧ s.links.shed = false →
          (∃ t, exec (.getCertificate fn slot) s = .next t ∧ replied (fn + 1) "CERTIFICATE" 0 (Config.certificate slot) s t)
          ∧ ∃ t, exec (.challenge fn slot nonce) s = .next t
            ∧ replied (fn + 1) "CHALLENGE_AUTH" 0 (Config.ed448Sign (sha3_512 (Config.certificate slot) ++ nonce)) s t)
        ∧ (2 ≤ slot ∨ slot = 1 ∧ s.links.shed = true →
          (∃ t, exec (.getCertificate fn slot) s = .next t ∧ replied (fn + 1) "CERTIFICATE" 0x01 [] s t)
          ∧ ∃ t, exec (.challenge fn slot nonce) s = .next t ∧ replied (fn + 1) "CHALLENGE_AUTH" 0x01 [] s t))
      ∧ (∀ i nonce, (∀ v, measurement s fn i = some v → ∃ t, exec (.getMeasurements fn i nonce) s = .next t
          ∧ replied (fn + 1) "MEASUREMENTS" 0 (v ++ sha3_512 v ++ Config.ed448Sign (v ++ nonce)) s t)
        ∧ (measurement s fn i = none → ∃ t, exec (.getMeasurements fn i nonce) s = .next t ∧ replied (fn + 1) "MEASUREMENTS" 0x01 [] s t))
      ∧ (∀ share, ∃ t, exec (.keyExchange fn share) s = .next t
        ∧ ((∃ e, replied (fn + 1) "KEY_EXCHANGE_RSP" 0 (Config.secp384 e) s t ∧ sessionOf t fn = { x with
              exchanged := true, active := false, key := shake256 32 (Config.secp384 (e ++ share)), updates := 0 })
          ∨ replied (fn + 1) "KEY_EXCHANGE_RSP" 0x05 [] s t ∧ sessionOf t fn = x))
      ∧ (∀ share e, rngHealthy s → e = shake256 48 (s.trust.rng ++ [1]) → ∃ t, exec (.keyExchange fn share) s = .next t
        ∧ replied (fn + 1) "KEY_EXCHANGE_RSP" 0 (Config.secp384 e) s t
        ∧ sessionOf t fn = { x with exchanged := true, active := false, key := shake256 32 (Config.secp384 (e ++ share)), updates := 0 }))
    ∧ (∀ mac, x.exchanged = true → x.active = false →
      (mac = Config.hmac x.key [] → ∃ t, exec (.finish fn mac) s = .next t ∧ replied (fn + 1) "FINISH_RSP" 0 [] s t ∧ sessionOf t fn = { x with active := true })
      ∧ (mac ≠ Config.hmac x.key [] → ∃ t, exec (.finish fn mac) s = .next t ∧ replied (fn + 1) "FINISH_RSP" 0x06 [] s t
        ∧ sessionOf t fn = { x with exchanged := false, key := [] }))
    ∧ (x.active = true →
      (∃ t, exec (.keyUpdate fn) s = .next t ∧ replied (fn + 1) "KEY_UPDATE_ACK" 0 [] s t
        ∧ sessionOf t fn = { x with key := Config.hmac x.key [1], updates := x.updates + 1 }
        ∧ t.hub.queues = s.hub.queues.map (fun q => if q.vf + 1 = fn then { q with last := none, state := if q.state = .off then .off else .run } else q))
      ∧ (∃ t, exec (.heartbeat fn) s = .next t ∧ replied (fn + 1) "HEARTBEAT_ACK" 0 [] s t ∧ sessionOf t fn = x ∧ t.hub = s.hub)
      ∧ (∃ t, exec (.endSession fn) s = .next t ∧ replied (fn + 1) "END_SESSION_ACK" 0 [] s t
        ∧ sessionOf t fn = { x with active := false, exchanged := false, key := [] })
      ∧ (∀ vf v d, fn = vf + 1 → vfAt s vf = some v →
        (d.length = 64 → ∃ t w, exec (.peerAllow vf d) s = .next t ∧ replied (fn + 1) "PEER_ALLOW" 0 [] s t ∧ vfAt t vf = some w ∧ d ∈ w.allowed
          ∧ w = { v with allowed := w.allowed } ∧ ∀ e, e ∈ w.allowed ↔ e = d ∨ e ∈ v.allowed)
        ∧ (d.length ≠ 64 → ∃ t, exec (.peerAllow vf d) s = .next t ∧ replied (fn + 1) "PEER_ALLOW" 0x01 [] s t ∧ t.hub = s.hub)))
    ∧ (∀ i k b o n m c vf d, (i, k, b) ∈ [(Instr.getCapabilities fn, "CAPABILITIES", x.version), (.negotiateAlgorithms fn o, "ALGORITHMS", x.caps),
        (.getDigests fn, "DIGESTS", x.algs), (.getCertificate fn n, "CERTIFICATE", x.algs), (.challenge fn n m, "CHALLENGE_AUTH", x.algs),
        (.getMeasurements fn n m, "MEASUREMENTS", x.algs), (.keyExchange fn m, "KEY_EXCHANGE_RSP", x.algs),
        (.finish fn c, "FINISH_RSP", x.exchanged && !x.active), (.keyUpdate fn, "KEY_UPDATE_ACK", x.active), (.heartbeat fn, "HEARTBEAT_ACK", x.active),
        (.endSession fn, "END_SESSION_ACK", x.active), (.peerAllow vf d, "PEER_ALLOW", x.active || decide (fn ≠ vf + 1))] →
      b = false → ∃ t, exec i s = .next t ∧ replied (fn + 1) k 0x04 [] s t ∧ t.trust.sessions = s.trust.sessions ∧ t.hub = s.hub))
  ∧ (∀ (s : State) (fn n vf : Nat) (o : Bool) (m d : List Byte) (i : Instr), fnExists s fn = false → i ∈ [Instr.getVersion fn, .getCapabilities fn,
      .negotiateAlgorithms fn o, .getDigests fn, .getCertificate fn n, .challenge fn n m, .getMeasurements fn n m, .keyExchange fn m, .finish fn m,
      .keyUpdate fn, .heartbeat fn, .endSession fn] ∨ i = .peerAllow vf d ∧ fn = vf + 1 → exec i s = .next s)


/-! ### Bring-up, power, host link, die links and ports (R10, R392 to R394, R397, R401 to R411) -/

/-- R10, R368, R404 to R408, R410: a package reset leaves the state after reset with host memory, the flash and the start record kept; each boot stage in
progress does its work or fails the start with its reason; the third failed start in a row leads to Shed mode; a stage past its limit fails;
after 1 s in reset the package starts again; a rail fault or a thermal trip stops every clock; above the power limit the clock falls by a step,
else it may rise by one (log entry 104). R392 to R394, R397, R402, R403, R408, R409, R411: posts that waited for the host link are written in order when it is up; a lost CXL device's
migrations are abandoned; a die link moves to a fresh key and is out of service after 16 tag failures in a row, its last module or its loss;
the handshake's three messages are verified, and both sides then hold the pair secret; ports train, lose lanes and are lost. -/
def Obligations.starts_and_links_complete : Prop :=
  ((∀ (s : State), ∃ t, exec .packageReset s = .next t ∧ t.seq = Seq.afterReset ∧ t.regs = Regs.afterReset ∧ t.mat = Mat.afterReset ∧ t.cpy = Cpy.afterReset
    ∧ t.links.stage = 0 ∧ t.links.holding = none ∧ t.links.count = s.links.count ∧ t.links.reasons = s.links.reasons ∧ t.links.readyDone = false
    ∧ t.links.resetAt = s.pipe.ref ∧ t.trust.slots = [] ∧ t.trust.flash = s.trust.flash ∧ t.trust.debug = 0 ∧ t.trust.hostmeta = none ∧ t.hub.vfs = []
    ∧ t.hub.launches = [] ∧ t.pipe.flight = [] ∧ t.pipe.wall = s.pipe.wall ∧ t.out.paddock = [] ∧ t.sys.lanes = s.sys.lanes
    ∧ (Memory.wf s.mem = true → ∀ k, memGet t.mem k = if tierKey 2 0 ≤ k then memGet s.mem k else 0))
  ∧ (∀ (s : State) (sig rng yard up : Bool) (v pod pkg : Nat) (dies hbm cores : List Nat), s.links.holding = none → s.links.shed = false →
    (s.links.stage = 0 →
      (3 ≤ s.links.count → ∃ t, exec (.bootStage0 sig v) s = .next t ∧ t.links = { s.links with shed := true, pcie := true, pcieWidth := 16 }
        ∧ t.trust.meas.get 2 = leBytes 4 v ∧ startStatus t = startStatus s + 8 ∧ coreKept s t)
      ∧ (s.links.count < 3 →
        (sig = false → ∃ t, exec (.bootStage0 sig v) s = .next t ∧ startFailed 0x01 (s.links.count + 1) s t)
        ∧ (sig = true → v < Config.fusedVersion → ∃ t, exec (.bootStage0 sig v) s = .next t ∧ startFailed 0x02 (s.links.count + 1) s t)
        ∧ (sig = true → Config.fusedVersion ≤ v → ∃ t, exec (.bootStage0 sig v) s = .next t
          ∧ t.links = { s.links with stage := 1, count := s.links.count + 1 } ∧ t.trust.meas.get 1 = Config.bootImage 0 ++ imageInUse s true
          ∧ t.trust.meas.get 2 = leBytes 4 v ∧ coreKept s t)))
    ∧ (s.links.stage = 1 → ∀ bad, bad = ((noiseBytes s.trust.samples 1024).foldl (fun h b => healthStep b h) Health.start).tripped →
      (rng = false ∨ bad = true → ∃ t, exec (.bootStage1 rng yard) s = .next t ∧ startFailed 0x03 s.links.count s t)
      ∧ (rng = true → bad = false → yard = false → ∃ t, exec (.bootStage1 rng yard) s = .next t ∧ startFailed 0x04 s.links.count s t)
      ∧ (rng = true → bad = false → yard = true → ∃ t, exec (.bootStage1 rng yard) s = .next t ∧ t.links.stage = 2 ∧ t.trust.stackKeys.length = 16
        ∧ t.links.dieLinks.length = s.links.dieLinks.length + 14 ∧ (∀ i < 16, t.trust.stackKeys[i]? ≠ none) ∧ t.trust.meas.get 3 = imageInUse s false
        ∧ t.trust.meas.get 5 = emptyLog ∧ t.mem = s.mem ∧ coreKept s t))
    ∧ (s.links.stage = 2 → ∀ d h, d = (List.range 8).filter (fun n => dies.contains n && !s.links.cut.contains n) → h = (List.range 16).filter (fun n => hbm.contains n && d.contains (n / 2)) →
      (d = [] → ∃ t, exec (.bootStage2 dies hbm) s = .next t ∧ startFailed 0x05 s.links.count s t)
      ∧ (d ≠ [] → h = [] → ∃ t, exec (.bootStage2 dies hbm) s = .next t ∧ startFailed 0x06 s.links.count s t)
      ∧ (d ≠ [] → h ≠ [] → ∃ t, exec (.bootStage2 dies hbm) s = .next t ∧ t.links.stage = 3 ∧ (∀ n, n ∈ t.hub.disabledDies ↔ n < 8 ∧ n ∉ d)
        ∧ (∀ n, n ∈ t.sys.deadStacks ↔ n < 16 ∧ n ∉ h) ∧ coreKept s t ∧ t.mem = s.mem))
    ∧ (s.links.stage = 3 →
      ((∀ c, c < 768 → c ∈ cores → c / 96 ∈ s.hub.disabledDies) → ∃ t, exec (.bootStage3 cores) s = .next t ∧ startFailed 0x07 s.links.count s t)
      ∧ (∀ c, c < 768 → c ∈ cores → c / 96 ∉ s.hub.disabledDies → ∃ t, exec (.bootStage3 cores) s = .next t ∧ t.links.stage = 4
        ∧ (∀ n, n ∈ t.hub.disabled ↔ n < 768 ∧ n ∉ cores)
        ∧ (∀ p ∈ s.hub.parts, p.first ≤ c / 96 → c / 96 < p.first + p.size → ∃ q ∈ t.hub.parts, q.first = p.first ∧ c ∈ q.pool) ∧ coreKept s t ∧ t.mem = s.mem))
    ∧ (s.links.stage = 4 → (up = true → ∃ t, exec (.bootStage4 up) s = .next t ∧ t.links = { s.links with stage := 5, pcie := true, pcieWidth := 16 }
        ∧ coreKept s t ∧ t.mem = s.mem)
      ∧ (up = false → ∃ t, exec (.bootStage4 up) s = .next t ∧ startFailed 0x08 s.links.count s t))
    ∧ (s.links.stage = 5 → ∃ t, exec (.bootStage5 pod pkg) s = .next t ∧ t.links = { s.links with stage := 6 }
      ∧ t.id = { s.id with pod := BitVec.ofNat 16 pod, package := BitVec.ofNat 10 pkg } ∧ coreKept s t ∧ t.mem = s.mem)
    ∧ (∀ l r, (s.links.stage, l, r) ∈ [(0, 500, [(0x01 : Byte), 0x02]), (1, 1500, [0x03, 0x04]), (2, 4000, [0x05, 0x06]), (3, 6000, [0x07]), (4, 8000, [0x08]),
        (5, 10000, [0x09]), (6, 10000, [0x09])] →
      (1500000 * l ≤ s.pipe.ref - s.links.resetAt → ∃ t x, exec .bootStageTimeout s = .next t ∧ x ∈ r ∧ startFailed x s.links.count s t)
      ∧ (s.pipe.ref - s.links.resetAt < 1500000 * l → exec .bootStageTimeout s = .next s)))
  ∧ (∀ (s : State) (n : Nat) (i : Instr) (a b : Bool) (v w : Nat) (d e : List Nat), (i, n) ∈ [(Instr.bootStage0 a v, 0), (.bootStage1 a b, 1), (.bootStage2 d e, 2),
      (.bootStage3 d, 3), (.bootStage4 a, 4), (.bootStage5 v w, 5)] → s.links.stage ≠ n ∨ s.links.holding ≠ none ∨ s.links.shed = true → exec i s = .next s)
  ∧ (∀ (s : State), (7 ≤ s.links.stage ∨ s.links.shed = true ∨ s.links.holding ≠ none → exec .bootStageTimeout s = .next s)
    ∧ (s.links.holding = none → exec .startRestart s = .next s)
    ∧ (∀ x, s.links.holding = some x → (s.pipe.ref < x + 1500000000 → exec .startRestart s = .next s)
      ∧ (x + 1500000000 ≤ s.pipe.ref → exec .startRestart s = .next { s with links := { s.links with
          holding := none, clocks := true, resetAt := s.pipe.ref } }))
    ∧ (∃ t, exec .railFault s = .next t ∧ startFailed 0x0A s.links.count s t ∧ t.links.clocks = false)
    ∧ (∃ t, exec .thermalTrip s = .next t ∧ startFailed 0x0B s.links.count s t ∧ t.links.clocks = false)
    ∧ (∀ p, (s.links.powerLimit ≠ 0 → s.links.powerLimit < p → exec (.powerLimitThrottle p) s =
          .next { s with links := { s.links with clockMHz := max 750 (s.links.clockMHz - 25) } })
      ∧ (s.links.powerLimit = 0 ∨ p ≤ s.links.powerLimit → (1500 ≤ s.links.clockMHz → exec (.powerLimitThrottle p) s = .next s)
        ∧ (s.links.clockMHz < 1500 → ∃ t, exec (.powerLimitThrottle p) s = .next t ∧ coreKept s t ∧ t.mem = s.mem
          ∧ (t.links = s.links ∨ t.links = { s.links with clockMHz := min 1500 (s.links.clockMHz + 25) }))))))
  ∧ ((∀ (s : State), exec .pcieLinkDown s = .next { s with links := { s.links with pcie := false } }
    ∧ (∀ t, exec (.podTimeCorrection t) s = .next { s with links := { s.links with podTime := t } })
    ∧ (∀ w, (w ∈ [1, 2, 4, 8, 16] → 4 ≤ s.links.stage ∨ s.links.shed = true → ∃ t, exec (.pcieLinkUp w) s = .next t ∧ t.links.pcie = true
        ∧ t.links.pcieWidth = w ∧ t.hub.posts = [] ∧ coreKept s t
        ∧ (s.hub.posts = [] → t.mem = s.mem ∧ t.hub = s.hub)
        ∧ (∀ vf r, s.hub.posts = [(vf, r)] → ∀ u, u = { s with links := { s.links with pcie := true } } → told vf r u t))
      ∧ (w ∉ [1, 2, 4, 8, 16] ∨ s.links.stage < 4 ∧ s.links.shed = false → exec (.pcieLinkUp w) s = .next s))
    ∧ (s.links.cxl = false → exec .cxlDeviceLoss s = .next s)
    ∧ (s.links.cxl = true → ∃ t, exec .cxlDeviceLoss s = .next t ∧ t.links.cxl = false
      ∧ t.sys.migrations = s.sys.migrations.filter (fun m => !(m.tier == 1 && !m.switched)) ∧ t.seq = s.seq ∧ t.regs = s.regs
      ∧ (s.sys.stalled = [] → (∀ m ∈ s.sys.migrations, m.tier = 1 → m.copied = false) → coreKept s t
        ∧ (∀ m, Memory.wf s.mem = true → s.sys.migrations.filter (fun m => m.tier == 1 && !m.switched) = [m] →
          ptFrozen (entryWords t m.leafAddr).1 = false ∧ ∀ k, k < m.leafAddr ∨ m.leafAddr + 8 ≤ k → memGet t.mem k = memGet s.mem k))))
  ∧ (∀ (s : State) (a b dir : Nat) (k : DieLink), s.links.dieLinks = [k] → k.joins a b = true →
    (2 ≤ dir → ∀ slot ok, exec (.dieLinkRekey a b dir slot) s = .next s ∧ exec (.flitRetry a b dir ok) s = .next s)
    ∧ (dir < 2 →
      (∀ n, (keySlot s n).state = .live → ∃ t x y, exec (.dieLinkRekey a b dir (some n)) s = .next t ∧ t.links.dieLinks = [x]
        ∧ x = { k with keys := y :: k.keys.filter (fun z => !(z.dir == dir && z.slot == some n)) } ∧ y.dir = dir ∧ y.slot = some n ∧ y.count = 0
        ∧ (∀ z, k.keys.find? (fun z => z.dir == dir && z.slot == some n) = some z → y.gen = z.gen + 1)
        ∧ (k.keys.find? (fun z => z.dir == dir && z.slot == some n) = none → y.gen = 0)
        ∧ y.key = dieKey (if (keySlot s n).ce then (keySlot s n).secret1 else (keySlot s n).secret0) a b dir y.gen ∧ coreKept s t ∧ t.mem = s.mem)
      ∧ (∀ n, (keySlot s n).state ≠ .live → exec (.dieLinkRekey a b dir (some n)) s = .next s)
      ∧ (∃ t x, exec (.dieLinkRekey a b dir none) s = .next t ∧ t.links.dieLinks = [x] ∧ coreKept s t ∧ (x = k ∨ ∃ y,
          x = { k with keys := y :: k.keys.filter (fun z => !(z.dir == dir && z.slot == none)) } ∧ y.dir = dir ∧ y.slot = none ∧ y.count = 0))
      ∧ (k.up = true → (∃ t x, exec (.flitRetry a b dir true) s = .next t ∧ t.links.dieLinks = [x] ∧ coreKept s t ∧ t.mem = s.mem ∧ x.up = true
          ∧ (if dir = 0 then x.fails0 = 0 ∧ x.fails1 = k.fails1 else x.fails1 = 0 ∧ x.fails0 = k.fails0))
        ∧ (∀ n, n = (if dir = 0 then k.fails0 else k.fails1) → ∃ t x, exec (.flitRetry a b dir false) s = .next t ∧ t.links.dieLinks = [x] ∧ coreKept s t
          ∧ t.mem = s.mem ∧ (x.up = true ↔ n + 1 < 16) ∧ x.keys = k.keys
          ∧ (if dir = 0 then x.fails0 = n + 1 ∧ x.fails1 = k.fails1 else x.fails1 = n + 1 ∧ x.fails0 = k.fails0))))
    ∧ (∀ m l, m < 4 → l < 64 →
      (exec (.ucieLaneRepair a b m l true) s = .next { s with links := { s.links with dieLinks :=
          [{ k with lanes := (m, l) :: k.lanes.filter (fun x => x != (m, l)) }] } })
      ∧ (exec (.ucieLaneRepair a b m l false) s = .next { s with links := { s.links with dieLinks :=
          [{ k with modules := k.modules - 1, up := k.up && decide (1 < k.modules) }] } }))
    ∧ exec (.ucieLinkLoss a b) s = .next { s with links := { s.links with dieLinks := [{ k with up := false }] } })
  ∧ (∀ (s : State) (a b dir m l : Nat) (slot : Option Nat) (ok : Bool), (∀ k ∈ s.links.dieLinks, k.joins a b = false) ∨ 4 ≤ m ∨ 64 ≤ l →
      exec (.ucieLaneRepair a b m l ok) s = .next s ∧ ((∀ k ∈ s.links.dieLinks, k.joins a b = false) → exec (.dieLinkRekey a b dir slot) s = .next s
        ∧ exec (.ucieLinkLoss a b) s = .next s))
  ∧ (∀ (s : State) (n : Nat) (p : Peer) (msg : List Byte), peerAt s n = some p →
    (∀ failed, failed = { p with
        shake := .failed, secret := [], digest := [], transcript := [], own := [], keys := [], retryAt := s.pipe.ref + 1500000000 } →
      (s.id.package.toNat ≤ n → exec (.hs1 n msg) s = .next s)
      ∧ (n < s.id.package.toNat → msg.length ≠ 1656 → ∃ t, exec (.hs1 n msg) s = .next t ∧ peerAt t n = some failed
        ∧ replied 0 "HANDSHAKE_FAILED" 0 (leBytes 2 n) s t)
      ∧ (n < s.id.package.toNat → msg.length = 1656 → ∃ t q, exec (.hs1 n msg) s = .next t ∧ peerAt t n = some q ∧ coreKept s t
        ∧ (q = failed ∨ ∃ m, q.shake = .hs2 ∧ q.transcript = msg ++ m ∧ replied (2000 + n) "HS2" 0 m s t))
      ∧ (∀ e m, n < s.id.package.toNat → msg.length = 1656 → rngHealthy s → e = shake256 64 (s.trust.rng ++ [1]) →
        m = signed msg (shareOfPeer e ++ (Config.mlKem (e.drop 32 ++ msg.drop 88)).take 1568 ++ measDigest s ++ Config.certificate 0) →
        ∃ t, exec (.hs1 n msg) s = .next t ∧ peerAt t n = some { p with shake := .hs2, transcript := msg ++ m, own := e }
          ∧ replied (2000 + n) "HS2" 0 m s t)
      ∧ (p.shake ≠ .hs1 → exec (.hs2 n msg) s = .next s) ∧ (p.shake ≠ .hs2 → exec (.hs3 n msg) s = .next s)
      ∧ (p.shake = .hs1 → verifies p.transcript msg 1656 = false → ∃ t, exec (.hs2 n msg) s = .next t ∧ peerAt t n = some failed
        ∧ replied 0 "HANDSHAKE_FAILED" 0 (leBytes 2 n) s t)
      ∧ (p.shake = .hs1 → verifies p.transcript msg 1656 = true → ∃ t m q, exec (.hs2 n msg) s = .next t ∧ replied (2000 + n) "HS3" 0 m s t
        ∧ peerAt t n = some q ∧ q.shake = .done ∧ q.digest = (msg.drop 1656).take 64 ∧ q.sent = 0 ∧ q.keys = []
        ∧ q.secret = pairSecret (p.own.drop 32) ((msg.drop 32).take 56) ((msg.drop 88).take 1568) (p.transcript ++ msg ++ m))
      ∧ (p.shake = .hs2 → verifies p.transcript msg 0 = false → ∃ t, exec (.hs3 n msg) s = .next t ∧ peerAt t n = some failed
        ∧ replied 0 "HANDSHAKE_FAILED" 0 (leBytes 2 n) s t)
      ∧ (p.shake = .hs2 → verifies p.transcript msg 0 = true → ∃ t q, exec (.hs3 n msg) s = .next t ∧ peerAt t n = some q ∧ q.shake = .done
        ∧ q.digest = msg.take 64 ∧ q.sent = 0 ∧ q.keys = [] ∧ coreKept s t ∧ t.mem = s.mem
        ∧ q.secret = pairSecret (p.own.drop 32) ((p.transcript.drop 32).take 56) ((p.transcript.drop 88).take 1568) (p.transcript ++ msg))
      ∧ (∀ i, (i = .handshakeRetry n ∧ p.shake = .failed ∧ p.retryAt ≤ s.pipe.ref) ∨ (i = .fabricRekey n ∧ p.shake = .done ∧ 2 ^ 31 ≤ p.sent) →
        ∃ t q, exec i s = .next t ∧ peerAt t n = some q ∧ coreKept s t ∧ t.mem = s.mem ∧ (n ≤ s.id.package.toNat → q.shake = .down ∧ q.secret = p.secret)
          ∧ (s.id.package.toNat < n → q = failed ∨ ∃ m, q.shake = .hs1 ∧ q.transcript = m ∧ q.secret = p.secret ∧ replied (2000 + n) "HS1" 0 m s t))
      ∧ (p.shake ≠ .failed ∨ s.pipe.ref < p.retryAt → exec (.handshakeRetry n) s = .next s)
      ∧ (p.shake ≠ .done ∨ p.sent < 2 ^ 31 → exec (.fabricRekey n) s = .next s)))
  ∧ (∀ (s : State) (n : Nat) (msg : List Byte), peerAt s n = none → exec (.hs1 n msg) s = .next s ∧ exec (.hs2 n msg) s = .next s
      ∧ exec (.hs3 n msg) s = .next s ∧ exec (.handshakeRetry n) s = .next s ∧ exec (.fabricRekey n) s = .next s)
  ∧ (∀ (s : State) (port peer lanes : Nat),
    (8 ≤ port ∨ 1024 ≤ peer ∨ peer = s.id.package.toNat ∨ lanes ∉ [1, 2, 4] ∨ s.links.stage < 5 → exec (.ualinkPortTrain port peer lanes) s = .next s)
    ∧ (port < 8 → peer < 1024 → peer ≠ s.id.package.toNat → lanes ∈ [1, 2, 4] → 5 ≤ s.links.stage → ∃ t, exec (.ualinkPortTrain port peer lanes) s = .next t
      ∧ t.links.ports = ⟨port, lanes, some peer⟩ :: s.links.ports.filter (fun p => p.port != port) ∧ (∃ q, peerAt t peer = some q) ∧ coreKept s t ∧ t.mem = s.mem)
    ∧ (lanes = 2 ∨ lanes = 1 → exec (.ualinkLaneLoss port lanes) s = .next { s with links := { s.links with
        ports := s.links.ports.map (fun p => if p.port == port && decide (lanes < p.lanes) then { p with lanes := lanes } else p) } })
    ∧ (lanes ≠ 2 → lanes ≠ 1 → exec (.ualinkLaneLoss port lanes) s = .next s)
    ∧ (∃ t, exec (.ualinkPortLoss port) s = .next t ∧ t.links.ports = s.links.ports.filter (fun p => p.port != port) ∧ t.seq = s.seq
      ∧ ((∀ c ∈ s.cpy.cmds, c.stage ≠ .started) → coreKept s t ∧ t.mem = s.mem)
      ∧ (∀ p r, s.links.ports.find? (fun p => p.port == port) = some p → p.peer = some r → (∀ q ∈ s.links.ports, q.port ≠ port → q.peer ≠ some r) →
          ∀ x ∈ t.trust.peers, x.peer ≠ r))))


/-! ### Four rules stated whole -/

/-- R134: QFEAT's word by its encoding in slot S (with either yield mark); it writes the feature bit that R63 gives to rd, in class 0;
numbers 128 to 4,095 are ILLEGAL_OP. -/
def Obligations.qfeat_writes_a_feature_bit : Prop :=
  ∀ (rd : Fin 32) (n : Fin 4096) (y : Fin 2) (w : Nat), w = n.val * 2 ^ 20 + 4 * 2 ^ 12 + rd.val * 2 ^ 7 + 0x09 + 2 * y.val →
    (∀ m : Fin 128, n.val = m.val → decodeWord .s w = .qfeat rd m
      ∧ ∀ s : State, s.cyc.isSome = true → canIssueX rd [] 0 s →
        exec (.qfeat rd m) s = .next (postX .s rd (if m.val < 17 then 1 else 0) 0 s))
    ∧ (128 ≤ n.val → decodeWord .s w = .unassignedOpcode .s (BitVec.ofNat 32 w)
      ∧ ∀ (s : State) (g : Granule), slotWord g 0 = w → bundleTrap s g = some ⟨0x02, tvalIssue 1 0 0 w, false⟩)

/-- R157: HGET's word; sel takes 8 of the descriptor's 32 bytes as they stand at issue, a phase-paired handle's base too; the result is
posted in class 0; on h15 sel 2 gives 0x3701 and the others 0; sel 4 to 7 are ILLEGAL_OP. R158: HCLR's word; it posts the all-zero descriptor in class 0;
a handle that holds it fails every access with HANDLE_BOUNDS (R154, R155 after alignment and window); h15 is not cleared (R150). -/
def Obligations.hget_reads_and_hclr_clears_a_descriptor : Prop :=
  (∀ (h : Fin 16) (xd : Fin 32) (sel : Fin 8) (w : Nat), w = 0x11 * 2 ^ 26 + h.val * 2 ^ 22 + xd.val * 2 ^ 17 + sel.val * 2 ^ 14 →
    (∀ m : Fin 4, sel.val = m.val → decodeWord .l w = .hget h xd m
      ∧ ∀ s : State, s.cyc.isSome = true → canIssueX xd [] 0 s → isEmpty s (.h h) = false →
        (h ≠ 15 → exec (.hget h xd m) s = .next (postX .l xd ((s.regs.h.get h).extractLsb' (64 * m.val) 64) 0 s))
        ∧ (h = 15 → exec (.hget h xd m) s = .next (postX .l xd (if m = 2 then 0x3701 else 0) 0 s)))
    ∧ (4 ≤ sel.val → decodeWord .l w = .unassignedOpcode .l (BitVec.ofNat 32 w)
      ∧ ∀ (s : State) (g : Granule), decodeBad s (decodeWord .s (slotWord g 0)) = false → slotWord g 1 = w →
        bundleTrap s g = some ⟨0x02, tvalIssue 1 1 0 w, false⟩))
  ∧ decodeWord .l 0x446C0000 = .hget 1 22 0
  ∧ (∀ (h : Fin 16) (w : Nat), w = 0x12 * 2 ^ 26 + h.val * 2 ^ 22 →
    (h ≠ 15 → decodeWord .l w = .hclr h
      ∧ (∀ s : State, s.cyc.isSome = true → isEmpty s (.h h) = false → recordsFull s (lat s 0) = false →
        exec (.hclr h) s = .next (push (Flight.start s .l (.h h) (.h 0) (lat s 0)) s))
      ∧ ∀ (s : State) (kinds : List Nat) (write : Bool) (va stop : Nat), s.regs.h.get h = 0 →
        handleBad s h (readH s h) kinds write va stop = some (0x05, va))
    ∧ (h = 15 → decodeWord .l w = .unassignedOpcode .l (BitVec.ofNat 32 w)))

/-- R287: KALU's word, its nine results from two sources as they stand at issue, and no flag with them (kd is k0 to k6: R285 keeps k7). -/
def Obligations.kalu_computes_into_a_check_register : Prop :=
  (∀ (kd : Fin 8) (a b : KSrc) (fa fb : Nat) (op : KOp) (code : Nat), kd ≠ 7 →
    (∀ n, a = .k n → fa = n.val) → (∀ n, a = .x n → fa = 32 + n.val) → (∀ n, b = .k n → fb = n.val) → (∀ n, b = .x n → fb = 32 + n.val) →
    (op, code) ∈ [(KOp.add, 0), (.sub, 1), (.and, 2), (.or, 3), (.xor, 4), (.sll, 5), (.srl, 6), (.sra, 7), (.slt, 8)] →
    decodeWord .k (0x01 * 2 ^ 26 + kd.val * 2 ^ 23 + fa * 2 ^ 17 + fb * 2 ^ 11 + code * 2 ^ 7) = .kalu op kd a b
    ∧ ∀ s : State, s.cyc.isSome = true → (∀ n, a = .k n ∨ b = .k n → isEmpty s (.k n) = false) →
      (∀ n, a = .x n ∨ b = .x n → xEmpty s n = false) → isEmpty s (.k kd) = false → recordsFull s (lat s 13) = false →
      ∀ va vb r : Word, (∀ n, a = .k n → va = s.regs.k.get n) → (∀ n, a = .x n → va = readX s n) →
        (∀ n, b = .k n → vb = s.regs.k.get n) → (∀ n, b = .x n → vb = readX s n) →
        (op, r) ∈ [(KOp.add, va + vb), (.sub, va - vb), (.and, va &&& vb), (.or, va ||| vb), (.xor, va ^^^ vb),
          (.sll, va <<< (vb.toNat % 64)), (.srl, va >>> (vb.toNat % 64)), (.sra, va.sshiftRight (vb.toNat % 64)),
          (.slt, if va.toInt < vb.toInt then 1 else 0)] →
        ∃ f : Flight, exec (.kalu op kd a b) s = .next (push f s) ∧ f = Flight.start s .k (.k kd) (.x r) (lat s 13)
          ∧ f.dest = .k kd ∧ f.val = .x r ∧ f.vfl = 0 ∧ f.mfl = 0)
  ∧ decodeWord .k 0x04CB3000 = .kalu .add 1 (.x 5) (.x 6)

/-- R291: KRD's word; the check register as it stands at issue goes to x[xd] of the level's bank in class 13, nowhere for x0; with an
S-slot write of the same x register in its bundle it collides: ILLEGAL_BUNDLE. -/
def Obligations.krd_copies_a_check_register : Prop :=
  (∀ (xd : Fin 32) (ka : Fin 8),
    decodeWord .k (0x06 * 2 ^ 26 + xd.val * 2 ^ 21 + ka.val * 2 ^ 18) = .krd xd ka
    ∧ ∀ s : State, s.cyc.isSome = true → isEmpty s (.k ka) = false → canIssueX xd [] 13 s →
      ∃ f : Flight, exec (.krd xd ka) s = .next (push f s) ∧ f = Flight.start s .k f.dest (.x (s.regs.k.get ka)) (lat s 13)
        ∧ f.dest = (if xd = 0 then .none else .x xd))
  ∧ decodeWord .k 0x195C0000 = .krd 10 7
  ∧ (∀ (s : State) (g : Granule) (xd : Fin 32) (ka : Fin 8), xd ≠ 0 → (∀ o ∈ bundleOps g, decodeBad s o.2 = false) →
    .x xd ∈ resources (decodeWord .s (slotWord g 0)) → decodeWord .k (slotWord g 7) = .krd xd ka →
    ∃ v, bundleTrap s g = some ⟨0x01, v, false⟩)
end

