-- ==== Sys2Proof/Laws/Issue.lean ====
section
/-! SUPPORT. How a slot operation stands in a bundle, as rewriting lemmas: cite these and leave `issue`, `record`, `checked` and
`firstHalt` folded. -/

namespace Sys2Proof.Laws

open Sys2Proof Sys2Proof.Machine

/-- In an open bundle an operation does its slot's part. -/
theorem issue_open {sl : Slot} {body : State → Issued} {s : State} (h : s.cyc.isSome = true) :
    issue sl body s = .next (record sl body s) := by
  obtain ⟨c, hc⟩ := Option.isSome_iff_exists.1 h
  simp [issue, hc]

/-- Alone an operation is the bundle whose other slots hold NOPs. -/
theorem issue_closed {sl : Slot} {body : State → Issued} {s : State} (h : s.cyc = none) :
    issue sl body s = .next (finish s (record sl body (openCycle s))) := by simp [issue, h]

/-- An operation whose part goes well in an open bundle. -/
theorem issue_ok {sl : Slot} {body : State → Issued} {s t : State} (h : s.cyc.isSome = true) (hb : body s = .ok t) :
    issue sl body s = .next t := by rw [issue_open h]; simp [record, hb]

/-- An operation that stalls its bundle. -/
theorem issue_stall {sl : Slot} {body : State → Issued} {s : State} (h : s.cyc.isSome = true) (hb : body s = .stall) :
    issue sl body s = .next (stalls s) := by rw [issue_open h]; simp [record, hb, stalls]

/-- An operation that traps. -/
theorem issue_trap {sl : Slot} {body : State → Issued} {s : State} {t : Trap} (h : s.cyc.isSome = true) (hb : body s = .trap t) :
    issue sl body s = .next (record sl (fun _ => .trap t) s) := by rw [issue_open h]; simp [record, hb]

theorem record_ok {sl : Slot} {body : State → Issued} {s t : State} (hb : body s = .ok t) : record sl body s = t := by
  simp [record, hb]

/-- A scalar computation that nothing keeps from issuing posts its result. -/
theorem scalar_ok {rd : Fin 32} {srcs : List (Fin 32)} {cls : Nat} {f : State → Word} {s : State} (h : canIssueX rd srcs cls s) :
    scalar rd srcs cls f s = .ok (postX .s rd (f s) cls s) := by
  have : srcs.any (xEmpty s) = false := by simp only [List.any_eq_false, Bool.not_eq_true]; exact h.1
  simp [scalar, this, h.2.1, h.2.2]

/-- A 12-bit immediate is its signed value. -/
theorem imm12_eq (i : BitVec 12) : imm12 i = i.toInt := by
  have h := i.isLt
  have e : (2 : ℕ) ^ 12 = 4096 := rfl
  simp only [imm12, signExt, BitVec.toInt, e] at *
  rw [Nat.mod_eq_of_lt h]
  norm_num
  split <;> split <;> omega

/-- The signed value of an immediate, as an address sees it. -/
theorem addr_eq (b : Word) (i : BitVec 12) : addr b (imm12 i) = place (b.toNat + i.toInt) := by rw [imm12_eq, addr]

theorem eaLM_eq (s : State) (o : LM) : eaLM s o = place ((readX s o.xb).toNat + o.off.toInt * 32) := by rw [eaLM, imm12_eq, addr]

theorem eaScalar_eq (s : State) (o : LM) : eaScalar s o = place ((readX s o.xb).toNat + o.off.toInt * 8) := by
  rw [eaScalar, imm12_eq, addr]

/-- An exact sum that is no negative number is the address. -/
theorem place_nonneg {i : Int} (h : 0 ≤ i) : (place i : Int) = i := by
  unfold place; rw [if_neg (by omega)]; exact Int.toNat_of_nonneg h

/-- A negative sum lies beyond every window (R6, R86). -/
theorem place_neg {i : Int} (h : i < 0) (h2 : -(2 ^ 63) ≤ i) : 2 ^ 63 ≤ place i := by
  unfold place wrapNat; rw [if_pos h]; omega

/-- The low bytes of a number, one by one. -/
theorem leBytes_eq (n v : Nat) : leBytes n v = (List.range n).map (fun i => BitVec.ofNat 8 (v / 256 ^ i)) := by
  induction n generalizing v with
  | zero => rfl
  | succ n ih => rw [leBytes, ih, List.range_succ_eq_map]; simp [Nat.div_div_eq_div_mul, pow_succ, Nat.mul_comm]

/-- Nothing keeps an operation from issuing. -/
theorem firstHalt_none (l : List (Option Issued)) (k : Issued) (h : ∀ o ∈ l, o = none) : firstHalt l k = k := by
  unfold firstHalt
  split
  · rename_i i hi
    obtain ⟨o, ho, he⟩ := List.exists_of_findSome?_eq_some hi
    rw [h o ho] at he; simp at he
  · split
    · rename_i i hi
      obtain ⟨o, ho, he⟩ := List.exists_of_findSome?_eq_some hi
      rw [h o ho] at he; simp at he
    · rfl

theorem checked_ok (sl : Slot) (xs : List Xlat) (t : State) (k : List Xlat → State → Issued) :
    checked sl (.ok (xs, t)) k = k xs t := rfl

theorem checked_bad (sl : Slot) (e : BitVec 8 × Nat) (k : List Xlat → State → Issued) :
    checked sl (.error (some e)) k = .trap (accessTrap sl e) := rfl

theorem checked_frozen (sl : Slot) (k : List Xlat → State → Issued) : checked sl (.error none) k = .stall := rfl

/-- A source that is full keeps nothing from issuing. -/
theorem emptySource_full {s : State} {sl : Slot} {w : Nat} {b : Bool} {d : Dest} (h : isEmpty s d = false) :
    emptySource s sl w b d = none := by simp [emptySource, h]

theorem xSource_full {s : State} {sl : Slot} {w : Nat} {b : Bool} {r : Fin 32} (h : xEmpty s r = false) :
    xSource s sl w b r = none := by
  unfold xSource; split
  · rfl
  · rename_i hr; simp [xEmpty, hr] at h; simp [emptySource, h]

end Sys2Proof.Laws
end

