-- ==== Sys2Proof/Laws/Memory.lean ====
section
/-! SUPPORT. Memory: what a write changes and what it leaves, and that every operation keeps the canonical form. -/

namespace Sys2Proof.Laws

open Sys2Proof Sys2Proof.Machine

/-! ### Bounds -/

/-- A memory whose keys lie above a bound has keys above every lower one. -/
theorem memAbove_mono {lo hi : Nat} (h : lo ≤ hi) : ∀ {m : Memory}, memAbove hi m = true → memAbove lo m = true
  | [], _ => rfl
  | (k, b) :: r, hm => by
    simp only [memAbove, Bool.and_eq_true, decide_eq_true_eq] at hm ⊢
    exact ⟨⟨h.trans hm.1.1, hm.1.2⟩, hm.2⟩

/-- Below a memory's bound every byte reads as 0. -/
theorem memGet_below : ∀ {m : Memory} {lo a : Nat}, memAbove lo m = true → a < lo → memGet m a = 0
  | [], _, _, _, _ => rfl
  | (k, b) :: r, lo, a, hm, ha => by
    simp only [memAbove, Bool.and_eq_true, decide_eq_true_eq] at hm
    have : a < k := ha.trans_le hm.1.1
    simp [memGet, this, this.ne]

/-! ### One byte -/

/-- A write keeps a lower bound that the written key respects. -/
theorem memAbove_memPut : ∀ {m : Memory} {lo a : Nat} {v : Byte},
    memAbove lo m = true → lo ≤ a → memAbove lo (memPut m a v) = true
  | [], lo, a, v, _, ha => by
    by_cases hv : v = 0#8 <;> simp [memPut, memAbove, hv, ha]
  | (k, b) :: r, lo, a, v, hm, ha => by
    simp only [memAbove, Bool.and_eq_true, decide_eq_true_eq] at hm
    obtain ⟨⟨hk, hb⟩, hr⟩ := hm
    have hb' : ¬b = 0#8 := by simpa using hb
    unfold memPut
    split
    · next hlt =>
      split
      · simp [memAbove, hk, hb', hr]
      · next hv =>
        have hv' : ¬v = 0#8 := hv
        have : a + 1 ≤ k := hlt
        simp [memAbove, ha, hv', hb', hr, this]
    · split
      · next _ he =>
        subst he
        split
        · exact memAbove_mono (by omega) hr
        · next hv =>
          have hv' : ¬v = 0#8 := hv
          simp [memAbove, hk, hv', hr]
      · next h1 h2 =>
        simp only [memAbove, Bool.and_eq_true, decide_eq_true_eq]
        exact ⟨⟨hk, hb⟩, memAbove_memPut hr (by omega)⟩

/-- Writing a byte keeps the canonical form. -/
theorem wf_memPut {m : Memory} (h : Memory.wf m = true) (a : Nat) (v : Byte) : Memory.wf (memPut m a v) = true :=
  memAbove_memPut h (Nat.zero_le _)

/-- A byte that was written reads back. -/
theorem memGet_memPut_same : ∀ {m : Memory} {lo : Nat} (_ : memAbove lo m = true) (a : Nat) (v : Byte),
    memGet (memPut m a v) a = v
  | [], _, _, a, v => by by_cases hv : v = 0#8 <;> simp [memPut, memGet, hv]
  | (k, b) :: r, lo, hm, a, v => by
    simp only [memAbove, Bool.and_eq_true, decide_eq_true_eq] at hm
    unfold memPut
    split
    · next hlt => split <;> simp_all [memGet, hlt.ne]
    · split
      · next _ he =>
        subst he
        split
        · next hv => rw [memGet_below hm.2 (Nat.lt_succ_self _), hv]
        · simp [memGet]
      · next h1 h2 => simp [memGet, h1, h2, memGet_memPut_same hm.2 a v]

/-- A write leaves every other byte alone. -/
theorem memGet_memPut_other : ∀ {m : Memory} {lo : Nat} (_ : memAbove lo m = true) {a c : Nat} (v : Byte) (_ : c ≠ a),
    memGet (memPut m a v) c = memGet m c
  | [], _, _, a, c, v, hc => by by_cases hv : v = 0#8 <;> simp [memPut, memGet, hv, hc]
  | (k, b) :: r, lo, hm, a, c, v, hc => by
    simp only [memAbove, Bool.and_eq_true, decide_eq_true_eq] at hm
    unfold memPut
    split
    · next hlt =>
      split
      · rfl
      · simp only [memGet, hc, if_false]
        split
        · next hca =>
          have : c < k := hca.trans hlt
          simp [this, this.ne]
        · rfl
    · split
      · next _ he =>
        subst he
        split
        · simp only [memGet, hc, if_false]
          split
          · next hlt => exact memGet_below hm.2 (by omega)
          · rfl
        · simp [memGet, hc]
      · next h1 h2 =>
        simp only [memGet]
        split
        · rfl
        · split
          · rfl
          · exact memGet_memPut_other hm.2 v hc

/-! ### Several bytes -/

/-- Writing bytes keeps the canonical form. -/
theorem wf_memPutN : ∀ {m : Memory} (_ : Memory.wf m = true) (a : Nat) (bs : List Byte), Memory.wf (memPutN m a bs) = true
  | _, h, _, [] => h
  | _, h, a, b :: r => wf_memPutN (wf_memPut h a b) (a + 1) r

/-- Writing bytes leaves every byte outside them alone. -/
theorem memGet_memPutN_other : ∀ {m : Memory} (_ : Memory.wf m = true) (a : Nat) (bs : List Byte) {c : Nat}
    (_ : c < a ∨ a + bs.length ≤ c), memGet (memPutN m a bs) c = memGet m c
  | _, _, _, [], _, _ => rfl
  | m, h, a, b :: r, c, hc => by
    simp only [List.length_cons] at hc
    rw [memPutN, memGet_memPutN_other (wf_memPut h a b) (a + 1) r (by omega), memGet_memPut_other h b (by omega)]

/-- Bytes that were written read back. -/
theorem memGet_memPutN_same : ∀ {m : Memory} (_ : Memory.wf m = true) (a : Nat) (bs : List Byte) (i : Nat) (hi : i < bs.length),
    memGet (memPutN m a bs) (a + i) = bs[i]
  | m, h, a, b :: r, 0, _ => by
    rw [memPutN, memGet_memPutN_other (wf_memPut h a b) (a + 1) r (by omega)]
    exact memGet_memPut_same h a b
  | m, h, a, b :: r, i + 1, hi => by
    rw [memPutN, show a + (i + 1) = a + 1 + i by omega,
      memGet_memPutN_same (wf_memPut h a b) (a + 1) r i (by simpa using hi)]
    rfl

/-- Writing cells one after another keeps the canonical form. -/
theorem wf_foldl_memPut (f : Host.Cell → Nat × Byte) : ∀ (l : List Host.Cell) {m : Memory}, Memory.wf m = true →
    Memory.wf (l.foldl (fun m c => memPut m (f c).1 (f c).2) m) = true
  | [], _, h => h
  | c :: r, _, h => wf_foldl_memPut f r (wf_memPut h (f c).1 (f c).2)

/-- The values that other parties left in the scratchpad keep the canonical form (R297). -/
theorem wf_mergeForeign (own : List Nat) (cells : List Host.Cell) : ∀ (us : List Nat) {sp : Memory} (s : State), Memory.wf sp = true →
    Memory.wf (mergeForeign own cells us sp s).1 = true
  | [], _, _, h => h
  | u :: r, sp, s, h => by
    have ht := wf_foldl_memPut id (cells.filter (fun c => c.1 / 8 * 8 == u)) h
    simp only [mergeForeign]
    split
    · split
      · exact wf_mergeForeign own cells r _ h
      · exact wf_mergeForeign own cells r _ ht
    · exact wf_mergeForeign own cells r _ ht

/-! ### Dropping and joining -/

/-- Leaving cells out keeps a bound. -/
theorem memAbove_filter (p : Host.Cell → Bool) : ∀ {m : Memory} {lo : Nat}, memAbove lo m = true → memAbove lo (m.filter p) = true
  | [], _, _ => rfl
  | (k, b) :: r, lo, hm => by
    simp only [memAbove, Bool.and_eq_true, decide_eq_true_eq] at hm
    rw [List.filter_cons]
    split
    · simp only [memAbove, Bool.and_eq_true, decide_eq_true_eq]
      exact ⟨hm.1, memAbove_filter p hm.2⟩
    · exact memAbove_mono (by omega) (memAbove_filter p hm.2)

/-- Leaving cells out keeps the canonical form. -/
theorem wf_filter {m : Memory} (h : Memory.wf m = true) (p : Host.Cell → Bool) : Memory.wf (m.filter p) = true :=
  memAbove_filter p h

/-- Clearing a range keeps the canonical form. -/
theorem wf_memClear {m : Memory} (h : Memory.wf m = true) (a n : Nat) : Memory.wf (memClear m a n) = true :=
  wf_filter h _

/-- A scratchpad's part of memory: in canonical form, every key below the scratchpad's size (R13). -/
def spadOk (m : Memory) : Bool := Memory.wf m && m.all (fun c => decide (c.1 < Config.scratchBytes))

/-- Two parts, one wholly below the other, join to a memory in canonical form. -/
theorem memAbove_append : ∀ {a b : Memory} {lo hi : Nat}, memAbove lo a = true → (∀ c ∈ a, c.1 < hi) → memAbove hi b = true → lo ≤ hi →
    memAbove lo (a ++ b) = true
  | [], _, _, _, _, _, hb, hl => memAbove_mono hl hb
  | (k, v) :: r, b, lo, hi, ha, hk, hb, hl => by
    simp only [memAbove, Bool.and_eq_true, decide_eq_true_eq, List.cons_append] at ha ⊢
    exact ⟨ha.1, memAbove_append ha.2 (fun c hc => hk c (List.mem_cons_of_mem _ hc)) hb (hk (k, v) List.mem_cons_self)⟩

/-- Leaving out the cells below a bound puts a memory above it. -/
theorem memAbove_drop (hi : Nat) : ∀ {m : Memory} {lo : Nat}, memAbove lo m = true →
    memAbove hi (m.filter (fun c => decide (hi ≤ c.1))) = true
  | [], _, _ => rfl
  | (k, b) :: r, lo, hm => by
    simp only [memAbove, Bool.and_eq_true, decide_eq_true_eq] at hm
    rw [List.filter_cons]
    split
    · next hk =>
      simp only [memAbove, Bool.and_eq_true, decide_eq_true_eq]
      refine ⟨⟨by simpa using hk, hm.1.2⟩, memAbove_filter _ hm.2⟩
    · exact memAbove_drop hi hm.2

/-- The scratchpad's part of memory in canonical form. -/
theorem spadOk_spadOf {m : Memory} (h : Memory.wf m = true) : spadOk (spadOf m) = true := by
  simp only [spadOk, Bool.and_eq_true, List.all_eq_true, decide_eq_true_eq]
  refine ⟨wf_filter h _, fun c hc => ?_⟩
  have := List.mem_filter.1 hc
  simpa using this.2

/-- Putting back a saved scratchpad keeps the canonical form. -/
theorem wf_withSpad {sp m : Memory} (hs : Memory.wf sp = true) (hm : Memory.wf m = true) : Memory.wf (withSpad sp m) = true := by
  have h := spadOk_spadOf hs
  simp only [spadOk, Bool.and_eq_true, List.all_eq_true, decide_eq_true_eq] at h
  exact memAbove_append h.1 h.2 (memAbove_drop _ hm) (Nat.zero_le _)

/-- A write below the scratchpad's size keeps a scratchpad's form. -/
theorem spadOk_memPut {m : Memory} (h : spadOk m = true) {a : Nat} (ha : a < Config.scratchBytes) (v : Byte) :
    spadOk (memPut m a v) = true := by
  simp only [spadOk, Bool.and_eq_true, List.all_eq_true, decide_eq_true_eq] at h ⊢
  refine ⟨wf_memPut h.1 a v, ?_⟩
  have key : ∀ (m : Memory), (∀ c ∈ m, c.1 < Config.scratchBytes) → ∀ c ∈ memPut m a v, c.1 < Config.scratchBytes := by
    intro m
    induction m with
    | nil => intro _ c hc; by_cases hv : v = 0#8 <;> simp [memPut, hv] at hc; rw [hc]; exact ha
    | cons d r ih =>
      obtain ⟨k, b⟩ := d
      intro hm c hc
      have hr : ∀ c ∈ r, c.1 < Config.scratchBytes := fun c hc => hm c (List.mem_cons_of_mem _ hc)
      have hk : k < Config.scratchBytes := hm (k, b) List.mem_cons_self
      unfold memPut at hc
      split at hc
      · split at hc
        · exact hm c hc
        · rcases List.mem_cons.1 hc with rfl | hc
          · exact ha
          · exact hm c hc
      · split at hc
        · split at hc
          · exact hr c hc
          · rcases List.mem_cons.1 hc with rfl | hc
            · exact ha
            · exact hr c hc
        · rcases List.mem_cons.1 hc with rfl | hc
          · exact hk
          · exact ih hr c hc
  exact key m h.2

/-- Writes below the scratchpad's size keep a scratchpad's form. -/
theorem spadOk_memPutN : ∀ {m : Memory} (_ : spadOk m = true) (a : Nat) (bs : List Byte) (_ : a + bs.length ≤ Config.scratchBytes),
    spadOk (memPutN m a bs) = true
  | _, h, _, [], _ => h
  | _, h, a, b :: r, hb => by
    simp only [List.length_cons] at hb
    exact spadOk_memPutN (spadOk_memPut h (by omega) b) (a + 1) r (by omega)

end Sys2Proof.Laws
end

