-- ==== Sys2Proof/Laws/State.lean ====
section
/-! SUPPORT. What each update of a part of the state does to every field: to its own part, and to none of the others. -/

namespace Sys2Proof.Laws

open Sys2Proof Sys2Proof.Machine

/-! ### `updSeq` -/

@[simp] theorem updSeq_id (f : Seq → Seq) (s : State) : (updSeq f s).id = s.id := rfl
@[simp] theorem updSeq_seq (f : Seq → Seq) (s : State) : (updSeq f s).seq = f s.seq := rfl
@[simp] theorem updSeq_regs (f : Seq → Seq) (s : State) : (updSeq f s).regs = s.regs := rfl
@[simp] theorem updSeq_mat (f : Seq → Seq) (s : State) : (updSeq f s).mat = s.mat := rfl
@[simp] theorem updSeq_cpy (f : Seq → Seq) (s : State) : (updSeq f s).cpy = s.cpy := rfl
@[simp] theorem updSeq_pipe (f : Seq → Seq) (s : State) : (updSeq f s).pipe = s.pipe := rfl
@[simp] theorem updSeq_out (f : Seq → Seq) (s : State) : (updSeq f s).out = s.out := rfl
@[simp] theorem updSeq_rcv (f : Seq → Seq) (s : State) : (updSeq f s).rcv = s.rcv := rfl
@[simp] theorem updSeq_code (f : Seq → Seq) (s : State) : (updSeq f s).code = s.code := rfl
@[simp] theorem updSeq_dict (f : Seq → Seq) (s : State) : (updSeq f s).dict = s.dict := rfl
@[simp] theorem updSeq_ubrov (f : Seq → Seq) (s : State) : (updSeq f s).ubrov = s.ubrov := rfl
@[simp] theorem updSeq_mem (f : Seq → Seq) (s : State) : (updSeq f s).mem = s.mem := rfl
@[simp] theorem updSeq_sys (f : Seq → Seq) (s : State) : (updSeq f s).sys = s.sys := rfl
@[simp] theorem updSeq_hub (f : Seq → Seq) (s : State) : (updSeq f s).hub = s.hub := rfl
@[simp] theorem updSeq_trust (f : Seq → Seq) (s : State) : (updSeq f s).trust = s.trust := rfl
@[simp] theorem updSeq_links (f : Seq → Seq) (s : State) : (updSeq f s).links = s.links := rfl
@[simp] theorem updSeq_agenda (f : Seq → Seq) (s : State) : (updSeq f s).agenda = s.agenda := rfl
@[simp] theorem updSeq_draws (f : Seq → Seq) (s : State) : (updSeq f s).draws = s.draws := rfl
@[simp] theorem updSeq_nextId (f : Seq → Seq) (s : State) : (updSeq f s).nextId = s.nextId := rfl
@[simp] theorem updSeq_cyc (f : Seq → Seq) (s : State) : (updSeq f s).cyc = s.cyc := rfl

/-! ### `updRegs` -/

@[simp] theorem updRegs_id (f : Regs → Regs) (s : State) : (updRegs f s).id = s.id := rfl
@[simp] theorem updRegs_seq (f : Regs → Regs) (s : State) : (updRegs f s).seq = s.seq := rfl
@[simp] theorem updRegs_regs (f : Regs → Regs) (s : State) : (updRegs f s).regs = f s.regs := rfl
@[simp] theorem updRegs_mat (f : Regs → Regs) (s : State) : (updRegs f s).mat = s.mat := rfl
@[simp] theorem updRegs_cpy (f : Regs → Regs) (s : State) : (updRegs f s).cpy = s.cpy := rfl
@[simp] theorem updRegs_pipe (f : Regs → Regs) (s : State) : (updRegs f s).pipe = s.pipe := rfl
@[simp] theorem updRegs_out (f : Regs → Regs) (s : State) : (updRegs f s).out = s.out := rfl
@[simp] theorem updRegs_rcv (f : Regs → Regs) (s : State) : (updRegs f s).rcv = s.rcv := rfl
@[simp] theorem updRegs_code (f : Regs → Regs) (s : State) : (updRegs f s).code = s.code := rfl
@[simp] theorem updRegs_dict (f : Regs → Regs) (s : State) : (updRegs f s).dict = s.dict := rfl
@[simp] theorem updRegs_ubrov (f : Regs → Regs) (s : State) : (updRegs f s).ubrov = s.ubrov := rfl
@[simp] theorem updRegs_mem (f : Regs → Regs) (s : State) : (updRegs f s).mem = s.mem := rfl
@[simp] theorem updRegs_sys (f : Regs → Regs) (s : State) : (updRegs f s).sys = s.sys := rfl
@[simp] theorem updRegs_hub (f : Regs → Regs) (s : State) : (updRegs f s).hub = s.hub := rfl
@[simp] theorem updRegs_trust (f : Regs → Regs) (s : State) : (updRegs f s).trust = s.trust := rfl
@[simp] theorem updRegs_links (f : Regs → Regs) (s : State) : (updRegs f s).links = s.links := rfl
@[simp] theorem updRegs_agenda (f : Regs → Regs) (s : State) : (updRegs f s).agenda = s.agenda := rfl
@[simp] theorem updRegs_draws (f : Regs → Regs) (s : State) : (updRegs f s).draws = s.draws := rfl
@[simp] theorem updRegs_nextId (f : Regs → Regs) (s : State) : (updRegs f s).nextId = s.nextId := rfl
@[simp] theorem updRegs_cyc (f : Regs → Regs) (s : State) : (updRegs f s).cyc = s.cyc := rfl

/-! ### `updMat` -/

@[simp] theorem updMat_id (f : Mat → Mat) (s : State) : (updMat f s).id = s.id := rfl
@[simp] theorem updMat_seq (f : Mat → Mat) (s : State) : (updMat f s).seq = s.seq := rfl
@[simp] theorem updMat_regs (f : Mat → Mat) (s : State) : (updMat f s).regs = s.regs := rfl
@[simp] theorem updMat_mat (f : Mat → Mat) (s : State) : (updMat f s).mat = f s.mat := rfl
@[simp] theorem updMat_cpy (f : Mat → Mat) (s : State) : (updMat f s).cpy = s.cpy := rfl
@[simp] theorem updMat_pipe (f : Mat → Mat) (s : State) : (updMat f s).pipe = s.pipe := rfl
@[simp] theorem updMat_out (f : Mat → Mat) (s : State) : (updMat f s).out = s.out := rfl
@[simp] theorem updMat_rcv (f : Mat → Mat) (s : State) : (updMat f s).rcv = s.rcv := rfl
@[simp] theorem updMat_code (f : Mat → Mat) (s : State) : (updMat f s).code = s.code := rfl
@[simp] theorem updMat_dict (f : Mat → Mat) (s : State) : (updMat f s).dict = s.dict := rfl
@[simp] theorem updMat_ubrov (f : Mat → Mat) (s : State) : (updMat f s).ubrov = s.ubrov := rfl
@[simp] theorem updMat_mem (f : Mat → Mat) (s : State) : (updMat f s).mem = s.mem := rfl
@[simp] theorem updMat_sys (f : Mat → Mat) (s : State) : (updMat f s).sys = s.sys := rfl
@[simp] theorem updMat_hub (f : Mat → Mat) (s : State) : (updMat f s).hub = s.hub := rfl
@[simp] theorem updMat_trust (f : Mat → Mat) (s : State) : (updMat f s).trust = s.trust := rfl
@[simp] theorem updMat_links (f : Mat → Mat) (s : State) : (updMat f s).links = s.links := rfl
@[simp] theorem updMat_agenda (f : Mat → Mat) (s : State) : (updMat f s).agenda = s.agenda := rfl
@[simp] theorem updMat_draws (f : Mat → Mat) (s : State) : (updMat f s).draws = s.draws := rfl
@[simp] theorem updMat_nextId (f : Mat → Mat) (s : State) : (updMat f s).nextId = s.nextId := rfl
@[simp] theorem updMat_cyc (f : Mat → Mat) (s : State) : (updMat f s).cyc = s.cyc := rfl

/-! ### `updCpy` -/

@[simp] theorem updCpy_id (f : Cpy → Cpy) (s : State) : (updCpy f s).id = s.id := rfl
@[simp] theorem updCpy_seq (f : Cpy → Cpy) (s : State) : (updCpy f s).seq = s.seq := rfl
@[simp] theorem updCpy_regs (f : Cpy → Cpy) (s : State) : (updCpy f s).regs = s.regs := rfl
@[simp] theorem updCpy_mat (f : Cpy → Cpy) (s : State) : (updCpy f s).mat = s.mat := rfl
@[simp] theorem updCpy_cpy (f : Cpy → Cpy) (s : State) : (updCpy f s).cpy = f s.cpy := rfl
@[simp] theorem updCpy_pipe (f : Cpy → Cpy) (s : State) : (updCpy f s).pipe = s.pipe := rfl
@[simp] theorem updCpy_out (f : Cpy → Cpy) (s : State) : (updCpy f s).out = s.out := rfl
@[simp] theorem updCpy_rcv (f : Cpy → Cpy) (s : State) : (updCpy f s).rcv = s.rcv := rfl
@[simp] theorem updCpy_code (f : Cpy → Cpy) (s : State) : (updCpy f s).code = s.code := rfl
@[simp] theorem updCpy_dict (f : Cpy → Cpy) (s : State) : (updCpy f s).dict = s.dict := rfl
@[simp] theorem updCpy_ubrov (f : Cpy → Cpy) (s : State) : (updCpy f s).ubrov = s.ubrov := rfl
@[simp] theorem updCpy_mem (f : Cpy → Cpy) (s : State) : (updCpy f s).mem = s.mem := rfl
@[simp] theorem updCpy_sys (f : Cpy → Cpy) (s : State) : (updCpy f s).sys = s.sys := rfl
@[simp] theorem updCpy_hub (f : Cpy → Cpy) (s : State) : (updCpy f s).hub = s.hub := rfl
@[simp] theorem updCpy_trust (f : Cpy → Cpy) (s : State) : (updCpy f s).trust = s.trust := rfl
@[simp] theorem updCpy_links (f : Cpy → Cpy) (s : State) : (updCpy f s).links = s.links := rfl
@[simp] theorem updCpy_agenda (f : Cpy → Cpy) (s : State) : (updCpy f s).agenda = s.agenda := rfl
@[simp] theorem updCpy_draws (f : Cpy → Cpy) (s : State) : (updCpy f s).draws = s.draws := rfl
@[simp] theorem updCpy_nextId (f : Cpy → Cpy) (s : State) : (updCpy f s).nextId = s.nextId := rfl
@[simp] theorem updCpy_cyc (f : Cpy → Cpy) (s : State) : (updCpy f s).cyc = s.cyc := rfl

/-! ### `updPipe` -/

@[simp] theorem updPipe_id (f : Pipe → Pipe) (s : State) : (updPipe f s).id = s.id := rfl
@[simp] theorem updPipe_seq (f : Pipe → Pipe) (s : State) : (updPipe f s).seq = s.seq := rfl
@[simp] theorem updPipe_regs (f : Pipe → Pipe) (s : State) : (updPipe f s).regs = s.regs := rfl
@[simp] theorem updPipe_mat (f : Pipe → Pipe) (s : State) : (updPipe f s).mat = s.mat := rfl
@[simp] theorem updPipe_cpy (f : Pipe → Pipe) (s : State) : (updPipe f s).cpy = s.cpy := rfl
@[simp] theorem updPipe_pipe (f : Pipe → Pipe) (s : State) : (updPipe f s).pipe = f s.pipe := rfl
@[simp] theorem updPipe_out (f : Pipe → Pipe) (s : State) : (updPipe f s).out = s.out := rfl
@[simp] theorem updPipe_rcv (f : Pipe → Pipe) (s : State) : (updPipe f s).rcv = s.rcv := rfl
@[simp] theorem updPipe_code (f : Pipe → Pipe) (s : State) : (updPipe f s).code = s.code := rfl
@[simp] theorem updPipe_dict (f : Pipe → Pipe) (s : State) : (updPipe f s).dict = s.dict := rfl
@[simp] theorem updPipe_ubrov (f : Pipe → Pipe) (s : State) : (updPipe f s).ubrov = s.ubrov := rfl
@[simp] theorem updPipe_mem (f : Pipe → Pipe) (s : State) : (updPipe f s).mem = s.mem := rfl
@[simp] theorem updPipe_sys (f : Pipe → Pipe) (s : State) : (updPipe f s).sys = s.sys := rfl
@[simp] theorem updPipe_hub (f : Pipe → Pipe) (s : State) : (updPipe f s).hub = s.hub := rfl
@[simp] theorem updPipe_trust (f : Pipe → Pipe) (s : State) : (updPipe f s).trust = s.trust := rfl
@[simp] theorem updPipe_links (f : Pipe → Pipe) (s : State) : (updPipe f s).links = s.links := rfl
@[simp] theorem updPipe_agenda (f : Pipe → Pipe) (s : State) : (updPipe f s).agenda = s.agenda := rfl
@[simp] theorem updPipe_draws (f : Pipe → Pipe) (s : State) : (updPipe f s).draws = s.draws := rfl
@[simp] theorem updPipe_nextId (f : Pipe → Pipe) (s : State) : (updPipe f s).nextId = s.nextId := rfl
@[simp] theorem updPipe_cyc (f : Pipe → Pipe) (s : State) : (updPipe f s).cyc = s.cyc := rfl

/-! ### `updOut` -/

@[simp] theorem updOut_id (f : Out → Out) (s : State) : (updOut f s).id = s.id := rfl
@[simp] theorem updOut_seq (f : Out → Out) (s : State) : (updOut f s).seq = s.seq := rfl
@[simp] theorem updOut_regs (f : Out → Out) (s : State) : (updOut f s).regs = s.regs := rfl
@[simp] theorem updOut_mat (f : Out → Out) (s : State) : (updOut f s).mat = s.mat := rfl
@[simp] theorem updOut_cpy (f : Out → Out) (s : State) : (updOut f s).cpy = s.cpy := rfl
@[simp] theorem updOut_pipe (f : Out → Out) (s : State) : (updOut f s).pipe = s.pipe := rfl
@[simp] theorem updOut_out (f : Out → Out) (s : State) : (updOut f s).out = f s.out := rfl
@[simp] theorem updOut_rcv (f : Out → Out) (s : State) : (updOut f s).rcv = s.rcv := rfl
@[simp] theorem updOut_code (f : Out → Out) (s : State) : (updOut f s).code = s.code := rfl
@[simp] theorem updOut_dict (f : Out → Out) (s : State) : (updOut f s).dict = s.dict := rfl
@[simp] theorem updOut_ubrov (f : Out → Out) (s : State) : (updOut f s).ubrov = s.ubrov := rfl
@[simp] theorem updOut_mem (f : Out → Out) (s : State) : (updOut f s).mem = s.mem := rfl
@[simp] theorem updOut_sys (f : Out → Out) (s : State) : (updOut f s).sys = s.sys := rfl
@[simp] theorem updOut_hub (f : Out → Out) (s : State) : (updOut f s).hub = s.hub := rfl
@[simp] theorem updOut_trust (f : Out → Out) (s : State) : (updOut f s).trust = s.trust := rfl
@[simp] theorem updOut_links (f : Out → Out) (s : State) : (updOut f s).links = s.links := rfl
@[simp] theorem updOut_agenda (f : Out → Out) (s : State) : (updOut f s).agenda = s.agenda := rfl
@[simp] theorem updOut_draws (f : Out → Out) (s : State) : (updOut f s).draws = s.draws := rfl
@[simp] theorem updOut_nextId (f : Out → Out) (s : State) : (updOut f s).nextId = s.nextId := rfl
@[simp] theorem updOut_cyc (f : Out → Out) (s : State) : (updOut f s).cyc = s.cyc := rfl

/-! ### `updRcv` -/

@[simp] theorem updRcv_id (f : Rec → Rec) (s : State) : (updRcv f s).id = s.id := rfl
@[simp] theorem updRcv_seq (f : Rec → Rec) (s : State) : (updRcv f s).seq = s.seq := rfl
@[simp] theorem updRcv_regs (f : Rec → Rec) (s : State) : (updRcv f s).regs = s.regs := rfl
@[simp] theorem updRcv_mat (f : Rec → Rec) (s : State) : (updRcv f s).mat = s.mat := rfl
@[simp] theorem updRcv_cpy (f : Rec → Rec) (s : State) : (updRcv f s).cpy = s.cpy := rfl
@[simp] theorem updRcv_pipe (f : Rec → Rec) (s : State) : (updRcv f s).pipe = s.pipe := rfl
@[simp] theorem updRcv_out (f : Rec → Rec) (s : State) : (updRcv f s).out = s.out := rfl
@[simp] theorem updRcv_rcv (f : Rec → Rec) (s : State) : (updRcv f s).rcv = f s.rcv := rfl
@[simp] theorem updRcv_code (f : Rec → Rec) (s : State) : (updRcv f s).code = s.code := rfl
@[simp] theorem updRcv_dict (f : Rec → Rec) (s : State) : (updRcv f s).dict = s.dict := rfl
@[simp] theorem updRcv_ubrov (f : Rec → Rec) (s : State) : (updRcv f s).ubrov = s.ubrov := rfl
@[simp] theorem updRcv_mem (f : Rec → Rec) (s : State) : (updRcv f s).mem = s.mem := rfl
@[simp] theorem updRcv_sys (f : Rec → Rec) (s : State) : (updRcv f s).sys = s.sys := rfl
@[simp] theorem updRcv_hub (f : Rec → Rec) (s : State) : (updRcv f s).hub = s.hub := rfl
@[simp] theorem updRcv_trust (f : Rec → Rec) (s : State) : (updRcv f s).trust = s.trust := rfl
@[simp] theorem updRcv_links (f : Rec → Rec) (s : State) : (updRcv f s).links = s.links := rfl
@[simp] theorem updRcv_agenda (f : Rec → Rec) (s : State) : (updRcv f s).agenda = s.agenda := rfl
@[simp] theorem updRcv_draws (f : Rec → Rec) (s : State) : (updRcv f s).draws = s.draws := rfl
@[simp] theorem updRcv_nextId (f : Rec → Rec) (s : State) : (updRcv f s).nextId = s.nextId := rfl
@[simp] theorem updRcv_cyc (f : Rec → Rec) (s : State) : (updRcv f s).cyc = s.cyc := rfl

/-! ### `updSys` -/

@[simp] theorem updSys_id (f : MemSys → MemSys) (s : State) : (updSys f s).id = s.id := rfl
@[simp] theorem updSys_seq (f : MemSys → MemSys) (s : State) : (updSys f s).seq = s.seq := rfl
@[simp] theorem updSys_regs (f : MemSys → MemSys) (s : State) : (updSys f s).regs = s.regs := rfl
@[simp] theorem updSys_mat (f : MemSys → MemSys) (s : State) : (updSys f s).mat = s.mat := rfl
@[simp] theorem updSys_cpy (f : MemSys → MemSys) (s : State) : (updSys f s).cpy = s.cpy := rfl
@[simp] theorem updSys_pipe (f : MemSys → MemSys) (s : State) : (updSys f s).pipe = s.pipe := rfl
@[simp] theorem updSys_out (f : MemSys → MemSys) (s : State) : (updSys f s).out = s.out := rfl
@[simp] theorem updSys_rcv (f : MemSys → MemSys) (s : State) : (updSys f s).rcv = s.rcv := rfl
@[simp] theorem updSys_code (f : MemSys → MemSys) (s : State) : (updSys f s).code = s.code := rfl
@[simp] theorem updSys_dict (f : MemSys → MemSys) (s : State) : (updSys f s).dict = s.dict := rfl
@[simp] theorem updSys_ubrov (f : MemSys → MemSys) (s : State) : (updSys f s).ubrov = s.ubrov := rfl
@[simp] theorem updSys_mem (f : MemSys → MemSys) (s : State) : (updSys f s).mem = s.mem := rfl
@[simp] theorem updSys_sys (f : MemSys → MemSys) (s : State) : (updSys f s).sys = f s.sys := rfl
@[simp] theorem updSys_hub (f : MemSys → MemSys) (s : State) : (updSys f s).hub = s.hub := rfl
@[simp] theorem updSys_trust (f : MemSys → MemSys) (s : State) : (updSys f s).trust = s.trust := rfl
@[simp] theorem updSys_links (f : MemSys → MemSys) (s : State) : (updSys f s).links = s.links := rfl
@[simp] theorem updSys_agenda (f : MemSys → MemSys) (s : State) : (updSys f s).agenda = s.agenda := rfl
@[simp] theorem updSys_draws (f : MemSys → MemSys) (s : State) : (updSys f s).draws = s.draws := rfl
@[simp] theorem updSys_nextId (f : MemSys → MemSys) (s : State) : (updSys f s).nextId = s.nextId := rfl
@[simp] theorem updSys_cyc (f : MemSys → MemSys) (s : State) : (updSys f s).cyc = s.cyc := rfl

/-! ### `updHub` -/

@[simp] theorem updHub_id (f : Hub → Hub) (s : State) : (updHub f s).id = s.id := rfl
@[simp] theorem updHub_seq (f : Hub → Hub) (s : State) : (updHub f s).seq = s.seq := rfl
@[simp] theorem updHub_regs (f : Hub → Hub) (s : State) : (updHub f s).regs = s.regs := rfl
@[simp] theorem updHub_mat (f : Hub → Hub) (s : State) : (updHub f s).mat = s.mat := rfl
@[simp] theorem updHub_cpy (f : Hub → Hub) (s : State) : (updHub f s).cpy = s.cpy := rfl
@[simp] theorem updHub_pipe (f : Hub → Hub) (s : State) : (updHub f s).pipe = s.pipe := rfl
@[simp] theorem updHub_out (f : Hub → Hub) (s : State) : (updHub f s).out = s.out := rfl
@[simp] theorem updHub_rcv (f : Hub → Hub) (s : State) : (updHub f s).rcv = s.rcv := rfl
@[simp] theorem updHub_code (f : Hub → Hub) (s : State) : (updHub f s).code = s.code := rfl
@[simp] theorem updHub_dict (f : Hub → Hub) (s : State) : (updHub f s).dict = s.dict := rfl
@[simp] theorem updHub_ubrov (f : Hub → Hub) (s : State) : (updHub f s).ubrov = s.ubrov := rfl
@[simp] theorem updHub_mem (f : Hub → Hub) (s : State) : (updHub f s).mem = s.mem := rfl
@[simp] theorem updHub_sys (f : Hub → Hub) (s : State) : (updHub f s).sys = s.sys := rfl
@[simp] theorem updHub_hub (f : Hub → Hub) (s : State) : (updHub f s).hub = f s.hub := rfl
@[simp] theorem updHub_trust (f : Hub → Hub) (s : State) : (updHub f s).trust = s.trust := rfl
@[simp] theorem updHub_links (f : Hub → Hub) (s : State) : (updHub f s).links = s.links := rfl
@[simp] theorem updHub_agenda (f : Hub → Hub) (s : State) : (updHub f s).agenda = s.agenda := rfl
@[simp] theorem updHub_draws (f : Hub → Hub) (s : State) : (updHub f s).draws = s.draws := rfl
@[simp] theorem updHub_nextId (f : Hub → Hub) (s : State) : (updHub f s).nextId = s.nextId := rfl
@[simp] theorem updHub_cyc (f : Hub → Hub) (s : State) : (updHub f s).cyc = s.cyc := rfl

/-! ### `updTrust` -/

@[simp] theorem updTrust_id (f : Trust → Trust) (s : State) : (updTrust f s).id = s.id := rfl
@[simp] theorem updTrust_seq (f : Trust → Trust) (s : State) : (updTrust f s).seq = s.seq := rfl
@[simp] theorem updTrust_regs (f : Trust → Trust) (s : State) : (updTrust f s).regs = s.regs := rfl
@[simp] theorem updTrust_mat (f : Trust → Trust) (s : State) : (updTrust f s).mat = s.mat := rfl
@[simp] theorem updTrust_cpy (f : Trust → Trust) (s : State) : (updTrust f s).cpy = s.cpy := rfl
@[simp] theorem updTrust_pipe (f : Trust → Trust) (s : State) : (updTrust f s).pipe = s.pipe := rfl
@[simp] theorem updTrust_out (f : Trust → Trust) (s : State) : (updTrust f s).out = s.out := rfl
@[simp] theorem updTrust_rcv (f : Trust → Trust) (s : State) : (updTrust f s).rcv = s.rcv := rfl
@[simp] theorem updTrust_code (f : Trust → Trust) (s : State) : (updTrust f s).code = s.code := rfl
@[simp] theorem updTrust_dict (f : Trust → Trust) (s : State) : (updTrust f s).dict = s.dict := rfl
@[simp] theorem updTrust_ubrov (f : Trust → Trust) (s : State) : (updTrust f s).ubrov = s.ubrov := rfl
@[simp] theorem updTrust_mem (f : Trust → Trust) (s : State) : (updTrust f s).mem = s.mem := rfl
@[simp] theorem updTrust_sys (f : Trust → Trust) (s : State) : (updTrust f s).sys = s.sys := rfl
@[simp] theorem updTrust_hub (f : Trust → Trust) (s : State) : (updTrust f s).hub = s.hub := rfl
@[simp] theorem updTrust_trust (f : Trust → Trust) (s : State) : (updTrust f s).trust = f s.trust := rfl
@[simp] theorem updTrust_links (f : Trust → Trust) (s : State) : (updTrust f s).links = s.links := rfl
@[simp] theorem updTrust_agenda (f : Trust → Trust) (s : State) : (updTrust f s).agenda = s.agenda := rfl
@[simp] theorem updTrust_draws (f : Trust → Trust) (s : State) : (updTrust f s).draws = s.draws := rfl
@[simp] theorem updTrust_nextId (f : Trust → Trust) (s : State) : (updTrust f s).nextId = s.nextId := rfl
@[simp] theorem updTrust_cyc (f : Trust → Trust) (s : State) : (updTrust f s).cyc = s.cyc := rfl

/-! ### `updLinks` -/

@[simp] theorem updLinks_id (f : Links → Links) (s : State) : (updLinks f s).id = s.id := rfl
@[simp] theorem updLinks_seq (f : Links → Links) (s : State) : (updLinks f s).seq = s.seq := rfl
@[simp] theorem updLinks_regs (f : Links → Links) (s : State) : (updLinks f s).regs = s.regs := rfl
@[simp] theorem updLinks_mat (f : Links → Links) (s : State) : (updLinks f s).mat = s.mat := rfl
@[simp] theorem updLinks_cpy (f : Links → Links) (s : State) : (updLinks f s).cpy = s.cpy := rfl
@[simp] theorem updLinks_pipe (f : Links → Links) (s : State) : (updLinks f s).pipe = s.pipe := rfl
@[simp] theorem updLinks_out (f : Links → Links) (s : State) : (updLinks f s).out = s.out := rfl
@[simp] theorem updLinks_rcv (f : Links → Links) (s : State) : (updLinks f s).rcv = s.rcv := rfl
@[simp] theorem updLinks_code (f : Links → Links) (s : State) : (updLinks f s).code = s.code := rfl
@[simp] theorem updLinks_dict (f : Links → Links) (s : State) : (updLinks f s).dict = s.dict := rfl
@[simp] theorem updLinks_ubrov (f : Links → Links) (s : State) : (updLinks f s).ubrov = s.ubrov := rfl
@[simp] theorem updLinks_mem (f : Links → Links) (s : State) : (updLinks f s).mem = s.mem := rfl
@[simp] theorem updLinks_sys (f : Links → Links) (s : State) : (updLinks f s).sys = s.sys := rfl
@[simp] theorem updLinks_hub (f : Links → Links) (s : State) : (updLinks f s).hub = s.hub := rfl
@[simp] theorem updLinks_trust (f : Links → Links) (s : State) : (updLinks f s).trust = s.trust := rfl
@[simp] theorem updLinks_links (f : Links → Links) (s : State) : (updLinks f s).links = f s.links := rfl
@[simp] theorem updLinks_agenda (f : Links → Links) (s : State) : (updLinks f s).agenda = s.agenda := rfl
@[simp] theorem updLinks_draws (f : Links → Links) (s : State) : (updLinks f s).draws = s.draws := rfl
@[simp] theorem updLinks_nextId (f : Links → Links) (s : State) : (updLinks f s).nextId = s.nextId := rfl
@[simp] theorem updLinks_cyc (f : Links → Links) (s : State) : (updLinks f s).cyc = s.cyc := rfl

/-! ### `updCyc` and `setMem` -/

@[simp] theorem updCyc_id (f : Cycle → Cycle) (s : State) : (updCyc f s).id = s.id := rfl
@[simp] theorem updCyc_seq (f : Cycle → Cycle) (s : State) : (updCyc f s).seq = s.seq := rfl
@[simp] theorem updCyc_regs (f : Cycle → Cycle) (s : State) : (updCyc f s).regs = s.regs := rfl
@[simp] theorem updCyc_mat (f : Cycle → Cycle) (s : State) : (updCyc f s).mat = s.mat := rfl
@[simp] theorem updCyc_cpy (f : Cycle → Cycle) (s : State) : (updCyc f s).cpy = s.cpy := rfl
@[simp] theorem updCyc_pipe (f : Cycle → Cycle) (s : State) : (updCyc f s).pipe = s.pipe := rfl
@[simp] theorem updCyc_out (f : Cycle → Cycle) (s : State) : (updCyc f s).out = s.out := rfl
@[simp] theorem updCyc_rcv (f : Cycle → Cycle) (s : State) : (updCyc f s).rcv = s.rcv := rfl
@[simp] theorem updCyc_code (f : Cycle → Cycle) (s : State) : (updCyc f s).code = s.code := rfl
@[simp] theorem updCyc_dict (f : Cycle → Cycle) (s : State) : (updCyc f s).dict = s.dict := rfl
@[simp] theorem updCyc_ubrov (f : Cycle → Cycle) (s : State) : (updCyc f s).ubrov = s.ubrov := rfl
@[simp] theorem updCyc_mem (f : Cycle → Cycle) (s : State) : (updCyc f s).mem = s.mem := rfl
@[simp] theorem updCyc_sys (f : Cycle → Cycle) (s : State) : (updCyc f s).sys = s.sys := rfl
@[simp] theorem updCyc_hub (f : Cycle → Cycle) (s : State) : (updCyc f s).hub = s.hub := rfl
@[simp] theorem updCyc_trust (f : Cycle → Cycle) (s : State) : (updCyc f s).trust = s.trust := rfl
@[simp] theorem updCyc_links (f : Cycle → Cycle) (s : State) : (updCyc f s).links = s.links := rfl
@[simp] theorem updCyc_agenda (f : Cycle → Cycle) (s : State) : (updCyc f s).agenda = s.agenda := rfl
@[simp] theorem updCyc_draws (f : Cycle → Cycle) (s : State) : (updCyc f s).draws = s.draws := rfl
@[simp] theorem updCyc_nextId (f : Cycle → Cycle) (s : State) : (updCyc f s).nextId = s.nextId := rfl
@[simp] theorem updCyc_cyc (f : Cycle → Cycle) (s : State) : (updCyc f s).cyc = s.cyc.map f := rfl
@[simp] theorem setMem_id (m : Memory) (s : State) : (setMem m s).id = s.id := rfl
@[simp] theorem setMem_seq (m : Memory) (s : State) : (setMem m s).seq = s.seq := rfl
@[simp] theorem setMem_regs (m : Memory) (s : State) : (setMem m s).regs = s.regs := rfl
@[simp] theorem setMem_mat (m : Memory) (s : State) : (setMem m s).mat = s.mat := rfl
@[simp] theorem setMem_cpy (m : Memory) (s : State) : (setMem m s).cpy = s.cpy := rfl
@[simp] theorem setMem_pipe (m : Memory) (s : State) : (setMem m s).pipe = s.pipe := rfl
@[simp] theorem setMem_out (m : Memory) (s : State) : (setMem m s).out = s.out := rfl
@[simp] theorem setMem_rcv (m : Memory) (s : State) : (setMem m s).rcv = s.rcv := rfl
@[simp] theorem setMem_code (m : Memory) (s : State) : (setMem m s).code = s.code := rfl
@[simp] theorem setMem_dict (m : Memory) (s : State) : (setMem m s).dict = s.dict := rfl
@[simp] theorem setMem_ubrov (m : Memory) (s : State) : (setMem m s).ubrov = s.ubrov := rfl
@[simp] theorem setMem_mem (m : Memory) (s : State) : (setMem m s).mem = m := rfl
@[simp] theorem setMem_sys (m : Memory) (s : State) : (setMem m s).sys = s.sys := rfl
@[simp] theorem setMem_hub (m : Memory) (s : State) : (setMem m s).hub = s.hub := rfl
@[simp] theorem setMem_trust (m : Memory) (s : State) : (setMem m s).trust = s.trust := rfl
@[simp] theorem setMem_links (m : Memory) (s : State) : (setMem m s).links = s.links := rfl
@[simp] theorem setMem_agenda (m : Memory) (s : State) : (setMem m s).agenda = s.agenda := rfl
@[simp] theorem setMem_draws (m : Memory) (s : State) : (setMem m s).draws = s.draws := rfl
@[simp] theorem setMem_nextId (m : Memory) (s : State) : (setMem m s).nextId = s.nextId := rfl
@[simp] theorem setMem_cyc (m : Memory) (s : State) : (setMem m s).cyc = s.cyc := rfl

end Sys2Proof.Laws
end

