-- ==== Sys2Proof/Laws/Vector.lean ====
section
/-! SUPPORT. What a vector or function operation does that nothing keeps from issuing: `vec_starts` and `vec_dup` say it of every
operation that is one call of `vecIssue`. -/

namespace Sys2Proof.Laws

open Sys2Proof Sys2Proof.Machine

/-- The queue of a word, with and without its wait bit. -/
theorem queueOf_map (q : Bool) (vs2 : Fin 32) (w2 : Bool) : (queueOf q vs2 w2).map (·.1) = queueNo q vs2 := by
  cases q <;> rfl

theorem queueOf_isSome (q : Bool) (vs2 : Fin 32) (w2 : Bool) : (queueOf q vs2 w2).isSome = q := by cases q <;> rfl

theorem queueNo_isSome (q : Bool) (vs2 : Fin 32) : (queueNo q vs2).isSome = q := by cases q <;> rfl

/-- Whether the queue of a word can be popped. -/
theorem queueHalt_none {sl : Slot} {w : Nat} {q dup : Bool} {vs2 : Fin 32} {w2 : Bool} {s : State}
    (h : ∀ n, queueNo q vs2 = some n → n.val < 2 ∧ (dup = false → readQ s n ≠ [])) :
    queueHalt s sl w dup (queueOf q vs2 w2) = none ∧ queueBad (queueOf q vs2 w2) = false := by
  cases q
  · exact ⟨rfl, rfl⟩
  · have := h _ rfl
    refine ⟨?_, ?_⟩
    · simp only [queueOf, queueHalt]
      cases dup
      · have h2 := this.2 rfl
        have h3 : (readQ s (Fin.ofNat 4 vs2.val)).isEmpty = false := by
          rw [List.isEmpty_eq_false_iff]; exact h2
        simp only [if_true, Bool.not_false, Bool.true_and, h3, Bool.false_eq_true, if_false]
      · simp
    · simp [queueOf, queueBad]; simpa using this.1

/-- The halts before the operation itself are none when its sources are full. -/
theorem halts_none {l m n : List (Option Issued)} (h1 : ∀ o ∈ l, o = none) (h2 : ∀ o ∈ m, o = none) (h3 : ∀ o ∈ n, o = none) :
    (l ++ m ++ n).findSome? id = none := by
  rw [List.findSome?_eq_none_iff]
  intro o ho
  simp only [List.mem_append] at ho
  rcases ho with (ho | ho) | ho
  · exact h1 o ho
  · exact h2 o ho
  · exact h3 o ho

/-- A vector source that is full. -/
theorem vSource_full {s : State} {sl : Slot} {w : Nat} {b : Bool} {n : Fin 32} (h : isEmpty s (.v n) = false) :
    vSource s sl w b n = none := emptySource_full h

theorem pgSource_full {s : State} {sl : Slot} {w : Nat} {pg : Option (Fin 48)} (h : ∀ p, pg = some p → isEmpty s (.p p) = false) :
    pgSource s sl w pg = none := by
  cases pg
  · rfl
  · exact emptySource_full (h _ rfl)

/-- Noting pieces for a rollback changes nothing but the checkpoints. -/
theorem touch_frame (c : Nat) (ps : List Piece) (s : State) : ∃ l, touch c ps s = { s with rcv := { s.rcv with ckpts := l } } := by
  unfold touch; split
  · exact ⟨_, rfl⟩
  · exact ⟨_, rfl⟩
  · exact ⟨_, rfl⟩

@[simp] theorem touch_regs (c : Nat) (ps : List Piece) (s : State) : (touch c ps s).regs = s.regs := by
  obtain ⟨_, h⟩ := touch_frame c ps s; rw [h]
@[simp] theorem touch_pipe (c : Nat) (ps : List Piece) (s : State) : (touch c ps s).pipe = s.pipe := by
  obtain ⟨_, h⟩ := touch_frame c ps s; rw [h]
@[simp] theorem touch_seq (c : Nat) (ps : List Piece) (s : State) : (touch c ps s).seq = s.seq := by
  obtain ⟨_, h⟩ := touch_frame c ps s; rw [h]
@[simp] theorem touch_mem (c : Nat) (ps : List Piece) (s : State) : (touch c ps s).mem = s.mem := by
  obtain ⟨_, h⟩ := touch_frame c ps s; rw [h]
@[simp] theorem touch_out (c : Nat) (ps : List Piece) (s : State) : (touch c ps s).out = s.out := by
  obtain ⟨_, h⟩ := touch_frame c ps s; rw [h]
@[simp] theorem touch_mat (c : Nat) (ps : List Piece) (s : State) : (touch c ps s).mat = s.mat := by
  obtain ⟨_, h⟩ := touch_frame c ps s; rw [h]
@[simp] theorem touch_cpy (c : Nat) (ps : List Piece) (s : State) : (touch c ps s).cpy = s.cpy := by
  obtain ⟨_, h⟩ := touch_frame c ps s; rw [h]

/-- Popping a queue takes its oldest entry and leaves the others. -/
theorem readQ_popQ (c : Nat) (n m : Fin 4) (s : State) : readQ (popQ c n s) m = if n = m then (readQ s n).tail else readQ s m := by
  simp only [readQ, popQ, writeQ, updRegs, touch_regs, Vector.get_eq_getElem, Vector.getElem_set]
  by_cases h : n = m
  · subst h; simp
  · have : n.val ≠ m.val := fun e => h (Fin.ext e)
    simp [h, this]

/-- An operation that nothing keeps from issuing, and that is no duplicate, starts. -/
theorem vec_starts {i : Instr} {sl : Slot} {body : State → Issued} {w : Nat} {dest : Dest} {srcs : List Dest} {q : Bool} {vs2 : Fin 32}
    {w2 : Bool} {before after : List (Option Issued)} {cls occ ready : Nat} {run : QEntry → VecResult} {v : FVal} {fl : BitVec 7} {s : State}
    (hi : exec i s = issue sl body s)
    (hb : body s = vecIssue sl w dest false (queueOf q vs2 w2) false before after cls occ ready run s)
    (h : canIssueV sl dest srcs (queueNo q vs2) false (cls + if q then lat s 14 else 0) s)
    (h1 : ∀ o ∈ before, o = none) (h2 : ∀ o ∈ after, o = none)
    (hv : run (queueEntry s false (queueOf q vs2 w2)) = .ok (v, fl)) :
    starts i sl dest v fl (queueNo q vs2) (cls + if q then lat s 14 else 0) occ s := by
  obtain ⟨hs, hbusy, hd, -, hq, hr⟩ := h
  obtain ⟨qn, qb⟩ := queueHalt_none (sl := sl) (w := w) (w2 := w2) hq
  have hf := halts_none h1 (m := [queueHalt s sl w false (queueOf q vs2 w2)]) (by simp [qn]) h2
  have hb' : ¬ s.pipe.wall < busyOf s sl := by omega
  have hr' : (dest.recorded && recordsFull s (cls + if q then lat s 14 else 0)) = false := by
    rcases hr with h | h | h
    · simp at h
    · simp [h]
    · simp [h]
  have hr2 : (!false && dest.recorded && recordsFull s (cls + if q then lat s 14 else 0)) = false := by simpa using hr'
  unfold starts
  rw [hi, issue_open hs]
  refine ⟨_, { Flight.start (occupy sl occ s) sl dest v (cls + if q then lat s 14 else 0) with
      vfl := fl, variable' := q
      due := if q || decide (cls + (if q then lat s 14 else 0) < ready) then s.pipe.wall + max (cls + if q then lat s 14 else 0) ready - 1 else 0 },
    rfl, ?_⟩
  simp only [record, hb, vecIssue, queueOf_isSome, hb', decide_false, hd, hr2, Bool.or_self, Bool.false_eq_true, if_false, qb, hf, hv]
  cases q
  · cases sl <;> simp [queueOf, queueNo, push, occupy, updPipe, updCyc, Flight.start, busyOf, readQ]
  · refine ⟨?_, rfl, rfl, trivial, rfl, ?_, rfl, rfl, rfl, ?_, ?_, ?_⟩
    · cases sl <;> simp [queueOf, push, occupy, updPipe, updCyc, popQ, writeQ, updRegs, Flight.start]
    · simp [Flight.start]
    · cases sl <;> simp [queueOf, push, occupy, updPipe, updCyc, popQ, writeQ, updRegs, busyOf]
    · intro n
      simp only [queueOf, queueNo, if_true, Option.some.injEq]
      have e : ∀ (f : Flight) (t : State), readQ (push f t) n = readQ t n := fun _ _ => rfl
      have e2 : ∀ (b : Bool) (f : Cycle → Cycle) m, readQ (if b = true then updCyc f (occupy sl occ s) else occupy sl occ s) m
          = readQ s m := by intro b f m; cases b <;> cases sl <;> rfl
      rw [e, readQ_popQ, e2, e2]
      by_cases h : Fin.ofNat 4 vs2.val = n
      · subst h; rfl
      · simp only [h, if_false]
    · cases sl <;> simp [queueOf, push, occupy, updPipe, updCyc, popQ, writeQ, updRegs]

/-- A duplicate leaves its result with that of V0's word. -/
theorem vec_dup {i : Instr} {sl : Slot} {body : State → Issued} {w : Nat} {dest : Dest} {srcs : List Dest} {q : Bool} {vs2 : Fin 32}
    {w2 : Bool} {before after : List (Option Issued)} {cls occ ready : Nat} {run : QEntry → VecResult} {b : VReg} {fl : BitVec 7} {s : State}
    (hi : exec i s = issue sl body s)
    (hb : body s = vecIssue sl w dest false (queueOf q vs2 w2) true before after cls occ ready run s)
    (h : canIssueV sl dest srcs (queueNo q vs2) true (cls + if q then lat s 14 else 0) s)
    (h1 : ∀ o ∈ before, o = none) (h2 : ∀ o ∈ after, o = none)
    (hv : run (queueEntry s true (queueOf q vs2 w2)) = .ok (.v b, fl)) (c : Cycle) (id : Nat) (hc : s.cyc = some c) (h0 : c.v0 = some id) :
    exec i s = .next (updFlight id (fun f => { f with dup := some (b, fl) }) (occupy sl occ s)) := by
  obtain ⟨hs, hbusy, hd, -, hq, hr⟩ := h
  obtain ⟨qn, qb⟩ := queueHalt_none (sl := sl) (w := w) (w2 := w2) hq
  have hf := halts_none h1 (m := [queueHalt s sl w true (queueOf q vs2 w2)]) (by simp [qn]) h2
  have hb' : ¬ s.pipe.wall < busyOf s sl := by omega
  rw [hi, issue_ok hs]
  simp only [hb, vecIssue, hb', decide_false, hd, Bool.not_true, Bool.false_and, Bool.or_self, Bool.false_eq_true, if_false, qb, hf, hv, if_true]
  simp [hc, h0]

end Sys2Proof.Laws
end

