-- ==== Sys2Proof/Tests/Slice0.lean ====
section
/-! SUPPORT. The model's own tests. Words and results are the spec's examples, or worked out by hand from its rules; the witnesses
show states and operands that meet the hypotheses of the statements. -/

open Sys2Proof Sys2Proof.Machine

namespace Sys2Proof.Tests

set_option Elab.async false

/-! ### Ill-formed terms (R42) -/

/-- dup = 1 outside V1. -/
theorem test_wf_dup : wellFormed (.vadd .v0 ⟨1, 2, 3, none, false, false, false, false, true⟩) = false := by decide

/-- Zeroing without a predicate. -/
theorem test_wf_zero : wellFormed (.vmov .v0 ⟨1, 2, none, true, false, false, false⟩) = false := by decide

/-- A queue operand other than q0 or q1. -/
theorem test_wf_queue : wellFormed (.fDiv ⟨1, 2, 4, none, false, false, false, true⟩) = false := by decide

theorem test_wf_shift_w : wellFormed (.slliw ⟨1, 2, 32⟩) = false := by decide

theorem test_wf_loop_count : wellFormed (.loopi 0 8) = false := by decide

theorem test_wf_nop_s : wellFormed (.nop .s) = false := by decide

theorem test_wf_push_queue : wellFormed (.vpush 1 1 none) = false := by decide

theorem test_wf_hset_h15 : wellFormed (.hset 15 1) = false ∧ wellFormed (.hclr 15) = false := by decide

/-- A block result in an odd register. -/
theorem test_wf_block_register : wellFormed (.vcvt .v0 ⟨5, 2, .f32, .bi8, .rne, false, false, false⟩) = false := by decide

theorem test_wf_unpack_format : wellFormed (.vunp3 .v0 6 3 .f32 false false) = false := by decide

/-- I8 has no pack 2. -/
theorem test_wf_pack : wellFormed (.mwld ⟨0, 1, 2, .i8, .two, .rne, false, false, false⟩) = false := by decide

theorem test_wf_retire_format : wellFormed (.mret ⟨0, 1, 2, .bi8, .rne, false, 3, false⟩) = false := by decide

theorem test_wf_coll_scope : wellFormed (.dcoll ⟨4, 21, 13, .bcast, .core⟩) = false := by decide

theorem test_wf_kalu_k7 : wellFormed (.kalu .add 7 (.x 1) (.x 2)) = false := by decide

theorem test_wf_unassigned : wellFormed (.unassignedOpcode .s 0x13) = false := by decide

theorem test_wf_illegal_token : wellFormed (.illegalToken 2) = false := by decide

/-! ### Words of the spec's examples -/

/-- R33, R120, R122, R125, R129, R132, R135, R145. -/
theorem test_decode_s : decodeWord .s 0x0075335B = .amoaddD ⟨6, 10, 7⟩ ∧ decodeWord .s 0x4050202B = .bar .die 5
    ∧ decodeWord .s 0x00300293 = .addi ⟨5, 0, 3⟩ ∧ decodeWord .s 0x00300291 = .addi ⟨5, 0, 3⟩
    ∧ decodeWord .s 0x0000200B = .lbrk ∧ decodeWord .s 0x0000500B = .pcommit ∧ decodeWord .s 0x0000600B = .pswap
    ∧ decodeWord .s 0x00D6002B = .waitge 12 13 := by decide +kernel

/-- Words of the RISC-V base written out from R33's forms: `beq x1, x2, -4`, `jal x1, 2048`, `sd x3, -8(x2)`, `sraiw x1, x2, 5`. -/
theorem test_decode_base : decodeWord .s 0xFE208EE3 = .beq ⟨1, 2, 0xFFE⟩ ∧ decodeWord .s 0x001000EF = .jal 1 1024
    ∧ decodeWord .s 0xFE313C23 = .sd ⟨2, 3, 0xFF8⟩ ∧ decodeWord .s 0x4051509B = .sraiw ⟨1, 2, 5⟩ := by decide +kernel

/-- R156, R157, R173 to R175, R178. -/
theorem test_decode_l : decodeWord .l 0x446C0000 = .hget 1 22 0 ∧ decodeWord .l 0x40D20000 = .hset 3 9
    ∧ decodeWord .l 0x6341FFFF = .fence .sc ⟨.die, 1, 0xFFFF⟩ ∧ decodeWord .l 0x64620040 = .acqH ⟨.pkg, 2, 0x40⟩
    ∧ decodeWord .l 0x68620010 = .relH ⟨.pkg, 2, 0x10⟩ ∧ decodeWord .l 0x6C020030 = .errfence 2 0x30
    ∧ decodeWord .l 0x28F00003 = .vpush 7 2 (some 3) := by decide +kernel

/-- R192 to R201. -/
theorem test_decode_v : decodeWord .v0 0x68308805 = .vcmpF .v0 ⟨3, 1, 2, some 0, .lt, true⟩
    ∧ decodeWord .v0 0x790207E0 = .vredF .v0 ⟨8, 2, false, .sum, none, false, false, false, false⟩
    ∧ decodeWord .v1 0xC5200100 = .vbcast .v1 9 0x0100 ∧ decodeWord .v0 0xD80C0000 = .vsetshape .v0 12
    ∧ decodeWord .v0 0xE0108300 = .pand .v0 ⟨1, 2, 3⟩ ∧ decodeWord .v0 0xF0519000 = .pset .v0 5 100
    ∧ decodeWord .v0 0xF4724000 = .pcount .v0 7 9 ∧ decodeWord .v0 0xD0C3A108 = .vunp3 .v0 6 3 .i8 true false
    ∧ decodeWord .v0 0xCC826900 = .vcvt .v0 ⟨4, 2, .f32, .f4x, .rne, false, false, false⟩ := by decide +kernel

/-- R207 to R221. -/
theorem test_decode_f : decodeWord .f 0x048507E0 = .exp2 ⟨4, 5, none, false, false, false⟩
    ∧ decodeWord .f 0x18C74020 = .fDiv ⟨6, 7, 8, some 1, false, false, false, false⟩
    ∧ decodeWord .f 0x214A17E0 = .wupd ⟨10, 10, 2, none, false, false, false, false⟩
    ∧ decodeWord .f 0x254A67E0 = .wmrg ⟨10, 10, 12, none, false, false, false, false⟩
    ∧ decodeWord .f 0x400707EC = .bnld 7 3 ∧ decodeWord .f 0x450957EC = .bnet ⟨8, 9, 10, none, 3, false⟩
    ∧ decodeWord .f 0x48221FE0 = .bmm8 ⟨1, 2, 3, none, false, false, false, false⟩
    ∧ decodeWord .f 0x4C221FE0 = .pdep ⟨1, 2, 3, none, false, false, false, false⟩
    ∧ decodeWord .f 0x5695B7E0 = .bperm ⟨20, 21, 22, none, false, false, false, false⟩
    ∧ decodeWord .f 0x598D07E0 = .vtrn ⟨12, 13, none, false, false, false⟩ := by decide +kernel

/-- R232, R238, R239, R242, R245, R248. -/
theorem test_decode_m : decodeWord .m 0x0649FEE6 = .mma ⟨1, 0, 9, 3, 63, 7, .block, true, false⟩
    ∧ decodeWord .m 0x0EC68400 = .mwld ⟨1, 12, 6, .bi4, .two, .rne, false, false, false⟩
    ∧ decodeWord .m 0x10820800 = .mwstrm ⟨0, 8, 2, .page, .five, .rne, false, false, false⟩
    ∧ decodeWord .m 0x08000000 = .mzero 0 ∧ decodeWord .m 0x0A000000 = .mzero 1
    ∧ decodeWord .m 0x1AE75178 = .mret ⟨1, 14, 7, .bf16, .rne, true, 15, false⟩
    ∧ decodeWord .m 0x1AE7517C = .mret ⟨1, 14, 7, .bf16, .rne, true, 15, true⟩ ∧ decodeWord .m 0x1CF00000 = .mstat 7 4 := by decide +kernel

/-- R259 to R277. -/
theorem test_decode_d : decodeWord .d 0x04F3BE00 = .dlvl 1 28 29 30 ∧ decodeWord .d 0x085017F0 = .dcopyCopy ⟨1, 4, 0, 23, 30⟩
    ∧ decodeWord .d 0x0DE00000 = .dpad 15 ∧ decodeWord .d 0x108A0000 = .dgcfg 2 2 16 ∧ decodeWord .d 0x14E51000 = .dgidx ⟨3, 18, 17⟩
    ∧ decodeWord .d 0x1C000000 = .dtinv ∧ decodeWord .d 0x212AD200 = .dcoll ⟨4, 21, 13, .bcast, .pod⟩ := by decide +kernel

/-- R287 to R291. -/
theorem test_decode_k : decodeWord .k 0x04CB3000 = .kalu .add 1 (.x 5) (.x 6) ∧ decodeWord .k 0x089E0000 = .kchkX 1 7 true
    ∧ decodeWord .k 0x0C430000 = .kchkV 2 3 ∧ decodeWord .k 0x10108000 = .kchkP 1 2 ∧ decodeWord .k 0x15200000 = .ksig 9
    ∧ decodeWord .k 0x195C0000 = .krd 10 7 := by decide +kernel

/-- R27: the kind bit, the dictionary index, the yield mark and the repetitions of a token. -/
theorem test_decode_token : decodeToken 0x1816 = .token 3 5 true ∧ decodeToken 0x0003 = .illegalToken 3 := by decide +kernel

/-- What the slots leave unassigned is refused by name (R31, R33, R42). -/
theorem test_decode_refused : decodeWord .s 0x5075335B = .unassignedOpcode .s 0x5075335B
    ∧ decodeWord .l 0x43D20000 = .unassignedOpcode .l 0x43D20000 ∧ decodeWord .f 0x048507E1 = .unassignedOpcode .f 0x048507E1
    ∧ decodeWord .k 0x07CB3000 = .unassignedOpcode .k 0x07CB3000 ∧ decodeWord .m 0x1AE77178 = .unassignedOpcode .m 0x1AE77178 := by
  decide +kernel

/-! ### States of the tests -/

/-- A core that runs at program level, just after reset. -/
def core : State := { State.reset with seq := { State.reset.seq with run := .running } }

/-- The same with another sequencer. -/
def seqd (f : Seq → Seq) (s : State) : State := { s with seq := f s.seq }

/-- Its bundle is open. -/
def op : State := openCycle core

/-- The bundle of a handler is open. -/
def opSys : State := openCycle (seqd (fun q => { q with level := .system }) core)

/-- A core with x1 = a and x2 = b, its bundle open. -/
def opX (a b : Word) : State := openCycle (seqd (fun q => { q with x := (q.x.set 1 a).set 2 b }) core)

/-- What a scalar operation leaves on its way to its destination. -/
def posted (r : Host.Outcome State Fault Refusal) : Option (Dest × FVal) :=
  match r with
  | .next t => t.pipe.flight.getLast?.map (fun f => (f.dest, f.val))
  | _ => none

/-- The trap of the open bundle. -/
def trapped (r : Host.Outcome State Fault Refusal) : Option (Slot × Trap) :=
  match r with
  | .next t => t.cyc.bind (·.trap)
  | _ => none

/-! ### Scalar operations -/

theorem test_addi_wraps : posted (exec (.addi ⟨3, 1, 0xFFF⟩) (opX 0 0)) = some (.x 3, .x 0xFFFFFFFFFFFFFFFF) := by decide +kernel

theorem test_mulhsu : posted (exec (.mulhsu ⟨3, 1, 2⟩) (opX 0xFFFFFFFFFFFFFFFF 2)) = some (.x 3, .x 0xFFFFFFFFFFFFFFFF) := by decide +kernel

theorem test_divw_by_zero : posted (exec (.divw ⟨3, 1, 2⟩) (opX 7 0)) = some (.x 3, .x 0xFFFFFFFFFFFFFFFF) := by decide +kernel

theorem test_rem_overflow : posted (exec (.rem ⟨3, 1, 2⟩) (opX 0x8000000000000000 0xFFFFFFFFFFFFFFFF)) = some (.x 3, .x 0) := by decide +kernel

theorem test_sraw : posted (exec (.sraw ⟨3, 1, 2⟩) (opX 0x80000000 33)) = some (.x 3, .x 0xFFFFFFFFC0000000) := by decide +kernel

theorem test_x0_is_discarded : posted (exec (.addi ⟨0, 0, 5⟩) op) = some (.none, .x 5) := by decide +kernel

theorem test_jal_out_of_range : (trapped (exec (.jal 1 0xFFFFF) op)).map (·.2.code) = some 0x06 := by decide +kernel

theorem test_csr_reserved : (trapped (exec (.csrrw 0 1 0x801) (opX 0x80 0))).map (·.2.code) = some 0x02 := by decide +kernel

theorem witness_scalar : op.cyc.isSome = true ∧ canIssueX 3 [1, 2] 0 op ∧ canIssueX 3 [1, 2] 1 op ∧ canIssueX 0 [] 0 op
    ∧ canIssueVar 3 [1, 2] op := by unfold canIssueX canIssueVar; decide +kernel

theorem witness_jumps : xEmpty op 1 = false ∧ xEmpty op 31 = false ∧ (∃ c, op.cyc = some c ∧ c.pc = 0 ∧ c.next = 32) :=
  ⟨by decide +kernel, by decide +kernel, Cycle.start core, rfl, by decide +kernel⟩

theorem witness_environment_call : quiet core = true ∧ core.seq.token = none ∧ core.seq.pc < 0xFFE0 ∧ core.seq.loops = [] := by decide +kernel

theorem witness_csr : csrIllegal 0x800 true (atSystem op) = false ∧ csrIllegal 0xC00 false (atSystem op) = false
    ∧ csrIllegal 0x5C1 true (atSystem opSys) = false ∧ xEmpty op 3 = false := by decide +kernel

theorem witness_loops : atSystem op = false ∧ op.seq.loops.length < 6 ∧ namesUnit op 64 = true ∧ (Cycle.start core).next ≤ 64
    ∧ namesUnit op 0x10000 = false ∧ atSystem opSys = true ∧ op.seq.loops = [] := by decide +kernel

/-- One entry on the stack, and a full stack. -/
theorem witness_loop_stack : ∃ s t : State, s.seq.loops = [] ++ [⟨0, 5, 2, 8⟩] ∧ atSystem s = false ∧ 6 ≤ t.seq.loops.length :=
  ⟨seqd (fun q => { q with loops := [⟨0, 5, 2, 8⟩] }) op, seqd (fun q => { q with loops := List.replicate 6 ⟨0, 5, 2, 8⟩ }) op,
    rfl, by decide +kernel, by decide +kernel⟩

/-- R121: an entry that goes round again, one that ends, one whose end is elsewhere. -/
theorem test_end_check : endCheck 8 10 [⟨0, 2, 4, 8⟩] = ([⟨1, 2, 4, 8⟩], 4) ∧ endCheck 8 10 [⟨1, 2, 4, 8⟩] = ([], 10)
    ∧ endCheck 8 10 [⟨0, 2, 4, 6⟩] = ([⟨0, 2, 4, 6⟩], 10) := by decide +kernel

theorem witness_phases : ∃ it, (seqd (fun q => { q with item := some it }) op).seq.item = some it ∧ atSystem op = false
    ∧ op.seq.item = none ∧ ∀ h, (cntBefore op .l h).rd = 0 ∧ (cntBefore op .l h).wd = 0 :=
  ⟨⟨1, 0, 0, 0⟩, rfl, by decide +kernel, rfl, by decide +kernel⟩

/-! ### Memory, handles and pages of the tests -/

/-- A plain handle over the local window: every permission, format I8. -/
def plain : Granule := BitVec.ofNat 256 ((0xF11 : Nat) * 2 ^ 128 + 0x60000 * 2 ^ 64)

/-- The same bound to the counter at 0x100. -/
def counted : Granule := BitVec.ofNat 256 ((0x100 : Nat) * 2 ^ 192 + 0xF11 * 2 ^ 128 + 0x60000 * 2 ^ 64)

/-- A plain handle over the die window, every permission. -/
def dieWide : Granule := BitVec.ofNat 256 ((0xF11 : Nat) * 2 ^ 128 + 0x3000000 * 2 ^ 64 + 0x10000000)

/-- Core with h1 over the local window, h2 bound to a counter, h3 over the die window. -/
def handled (s : State) : State :=
  { s with regs := { s.regs with h := ((s.regs.h.set 1 plain).set 2 counted).set 3 dieWide } }

/-- The page table of function 0: three levels in HBM and one 1 GiB page at 4 GiB, readable and writable. -/
def tables : Memory :=
  memPutN (memPutN (memPutN [] (tierKey 0 0x2000) (leBytes 8 0x4001)) (tierKey 0 0x4000) (leBytes 8 0x6001)) (tierKey 0 0x6040)
    (leBytes 8 0x4000000F)

/-- Function 0 with its key slot LIVE and its page table. -/
def mapped (s : State) : State :=
  { s with
    mem := tables
    seq := { s.seq with ctx := some ⟨1, 0, 0, 0⟩ }
    hub := { s.hub with vfs := [{ newVf 0 0 with slot := some 0, root := 0x2001 }] }
    trust := { s.trust with slots := [⟨0, .live, [], [], false, 0, 0⟩] } }

/-- A launch of two stages with a queue between them: stage 0 fills it, stage 1 drains it. -/
def launch : Launch := ⟨1, 0, 0, 0, 1, false, 0, 0, 0, 0, 0, 0, 0, [], [], [⟨0, 1, 1, 1, none, some 0, 1, [0], false, false⟩,
  ⟨0, 1, 1, 1, some 0, none, 1, [], false, false⟩], [⟨0x100000000, 8, 64, 0, 0, 0, 0, [], [], [], [], 0⟩], .running, 0, none, none, [], [], none⟩

def launched (stage : Nat) (s : State) : State :=
  { mapped s with
    seq := { s.seq with ctx := some ⟨1, stage, 0, 0⟩ }
    hub := { (mapped s).hub with launches := [launch] } }

/-- A check that passes. -/
def passes {α : Type} (r : Except (Option (BitVec 8 × Nat)) α) : Bool := r.toBool

theorem test_page_walk : (translate 0x100000040 (mapped op)).toOption.map (fun r => (r.1.va, r.1.size, r.1.w0)) =
    some (0x100000000, 0x40000000, 0x4000000F) := by decide +kernel

theorem test_descriptor : hKind plain = 1 ∧ hFmt plain = 1 ∧ hExtent plain = 0x60000 ∧ hPermR plain = true ∧ hPermW plain = true
    ∧ hCounter counted = 0x100 := by decide +kernel

/-- R117, R154 at the edges of the windows: the last doubleword of the local window, the byte after it, the code store, a global page. -/
theorem witness_access_checks : (0x5FFF8 % 8 = 0 ∧ 0x5FFF8 < 0x60000) ∧ 0x5FFF9 % 8 ≠ 0 ∧ (0x2000FFF8 % 8 = 0 ∧ 0x2000FFF8 < 0x20010000)
    ∧ windowOf 0x60000 = .hole ∧ windowOf 0xFFFFFFF8 = .hole ∧ windowOf (2 ^ 57) = .hole := by decide +kernel

theorem witness_scalar_loads : xEmpty (mapped op) 1 = false ∧ xEmpty (mapped op) 3 = false ∧ cntReadFull (mapped op) .l 15 = false
    ∧ recordsFull (mapped op) (lat op 3) = false ∧ recordsFull (mapped op) 2 = false
    ∧ passes (checkRange (mapped op) 15 h15Descriptor 8 winAny kindsH15 .read 0x5FFF8 8) = true ∧ isLocal 0x5FFF8 = true
    ∧ passes (checkRange (mapped op) 15 h15Descriptor 8 winAny kindsH15 .read 0x100000040 8) = true ∧ isLocal 0x100000040 = false := by
  decide +kernel

theorem witness_handle_loads : passes (checkRange (handled op) 1 plain 8 winAny kindsScalar .read 0x40 8) = true
    ∧ passes (checkRange (handled op) 3 dieWide 8 winAny kindsScalar .read 0x10000040 8) = true ∧ isLocal 0x10000040 = false
    ∧ cntReadFull (handled op) .l 1 = false ∧ readH (handled op) 1 = plain ∧ readH (handled op) 3 = dieWide := by decide +kernel

theorem witness_scalar_stores : cntWriteFull (mapped op) .l 15 = false
    ∧ passes (checkRange (mapped op) 15 h15Descriptor 8 winStore kindsH15 .write 0 8) = true
    ∧ passes (checkRange (mapped op) 15 h15Descriptor 8 winStore kindsH15 .write 0x100000040 8) = true
    ∧ cntWriteFull (handled op) .l 1 = false
    ∧ passes (checkRange (handled op) 1 plain 8 winStore kindsScalar .write 0x40 8) = true := by decide +kernel

theorem witness_vector_accesses : isEmpty (handled op) (.v 4) = false ∧ rowSize (handled op) = 512
    ∧ passes (checkRange (handled op) 1 plain 32 winLocal kindsVec .read 0x40 2048) = true
    ∧ passes (checkRange (handled op) 1 plain 32 winLocal kindsVec .read 0x40 512) = true
    ∧ passes (checkRange (handled op) 3 dieWide 32 winDie kindsVec .read 0x10000040 2048) = true
    ∧ passes (checkRange (handled op) 1 plain 32 winLocalDie kindsVec .write 0x40 2048) = true
    ∧ passes (checkRanges 1 plain 32 winLocal kindsVec .read 512 [0, 0x400, 0x800, 0xC00] (handled op)) = true
    ∧ passes (checkRanges 1 plain 32 winLocalDie kindsVec .write 512 [0, 0x400, 0x800, 0xC00] (handled op)) = true
    ∧ planesOf (hFmt plain) = some 8 := by decide +kernel

/-- The shape that VSTP needs: 256 columns of I8. -/
theorem witness_plane_store : (seqd (fun q => { q with vshape := 0x1BFC }) op).cyc.isSome = true ∧ shapeCols 0x1BFC = 256 ∧ shapeB 0x1BFC = 1
    ∧ shapeRows 0x1BFC = 4 := by decide +kernel

theorem witness_handles_and_queues : isEmpty op (.h 1) = false ∧ recordsFull op (lat op 0) = false ∧ (readX op 1).toNat % 32 = 0
    ∧ (readX op 1).toNat < 0x60000 ∧ (readQ op 2).length < 4 ∧ isEmpty op (.v 0) = false ∧ isEmpty op (.p 3) = false
    ∧ shapeN (seqd (fun q => { q with vshape := 0x400 }) op).seq.vshape ≤ 512 := by decide +kernel

/-- A store in flight whose bank serves its second granule: that granule's byte changes and the other does not. -/
theorem witness_served_store :
    let f := Flight.start core .s .none (.bytes [(31, 7), (32, 8)]) 1
    let s := push f core
    s.pipe.flight.find? (fun x => x.id == f.id) = some f ∧ memGet (serveWrite (f.id, [(0, 1)]) s).mem 32 = 8
    ∧ memGet (serveWrite (f.id, [(0, 1)]) s).mem 31 = 0 := by decide +kernel

theorem test_load_value : shapeVal (.scalar 2 true) [0xFF, 0x80] = .x 0xFFFFFFFFFFFF80FF
    ∧ shapeVal (.scalar 2 false) [0xFF, 0x80] = .x 0x80FF := by decide +kernel

/-- A fence that issues, and one that waits for a read on path L. -/
theorem witness_fences : (∀ p h, ((Cycle.start core).cnt.get (cntIx p h)).rd = 0 ∧ unperformed .die ((Cycle.start core).cnt.get (cntIx p h)) = 0)
    ∧ ((Cycle.start (cntRead .l 1 core)).cnt.get (cntIx .l 1)).rd ≠ 0 := by
  constructor
  · intro p h; cases p <;> revert h <;> decide +kernel
  · decide +kernel

theorem witness_releases : hCounter (readH (handled op) 2) ≠ 0 ∧ hCounter (readH (handled op) 1) = 0
    ∧ passes (relItems ⟨.pkg, 2, 4⟩ (relHandles ⟨.pkg, 2, 4⟩ (handled op)) (handled op)) = true ∧ (handled op).out.heldBack.length < 64
    ∧ 64 ≤ (List.replicate 64 ()).length := by decide +kernel

theorem witness_waitge : passes (checkRange op 15 h15Descriptor 8 winStore kindsH15 .read 0 8) = true ∧ refused op 0 = false
    ∧ lineBad op 0 (landKey op (keyOf [] 0)) = none ∧ (readX op 0).toNat ≤ leNat (readHome (keyOf [] 0) 8 op)
    ∧ leNat (readHome (keyOf [] 0) 8 (opX 0 5)) < (readX (opX 0 5) 2).toNat := by decide +kernel

theorem witness_evpop : op.cpy.events = [] ∧ recordsFull op 2 = false ∧ (∀ f ∈ op.pipe.flight, f.val ≠ .awaited .evpop)
    ∧ ({ op with cpy := { op.cpy with events := [5] } } : State).cpy.events = 5 :: [] ∧ op.cpy.lost = 0 := by decide +kernel

theorem witness_items : inQueue (launched 1 op) = some (1, 0) ∧ outQueue (launched 0 op) = some (1, 0) ∧ inQueue op = none
    ∧ moveOf (launched 1 op) = none ∧ (launched 1 op).out.handed = [] ∧ (launched 0 op).out.grants = []
    ∧ xEmpty (launched 0 op) 1 = false ∧ cntWriteFull (launched 0 op) .l 15 = false ∧ (readX (opX 5 0) 1).toNat % 32 ≠ 0 := by decide +kernel

/-- A stage 0 whose launch moves cores to stage 1. -/
theorem witness_move : moveOf { launched 0 op with hub := { (launched 0 op).hub with launches := [{ launch with move := some (0, 1) }] } } = some 1 := by
  decide +kernel

/-- An EMIT with the grant of slot 0, its source in the local window. -/
theorem witness_granted_emit :
    let s := { launched 0 op with out := { (launched 0 op).out with grants := [(1, 0, 0)] } }
    outQueue s = some (1, 0) ∧ s.out.grants.find? (fun g => g.1 == 1 && g.2.1 == 0) = some (1, 0, 0) ∧ (readX s 1).toNat % 32 = 0
    ∧ passes (checkRange s 15 h15Descriptor 32 winAny kindsH15 .read 0 64) = true
    ∧ passes (checkRange s 15 h15Descriptor 32 (fun w => w == .global) kindsH15 .write 0x100000040 64) = true
    ∧ refused s 0 = false ∧ rangeBad s 0 ((keysAt 0 64).map (fun k => landKey s (keyOf [] k))) = none := by decide +kernel

theorem witness_atomics : passes (checkRange op 15 h15Descriptor 8 winStore kindsH15 .rmw 0x40 8) = true
    ∧ passes (checkRange (mapped op) 15 h15Descriptor 4 winStore kindsH15 .rmw 0x100000040 4) = true ∧ op.out.heldBack.length < 64
    ∧ recordsFull op 2 = false := by decide +kernel

theorem witness_locks : passes (checkRange op 15 h15Descriptor 8 winLocalDie kindsH15 .read 0x40 8) = true
    ∧ passes (checkRange op 15 h15Descriptor 8 winLocalDie kindsH15 .read 0x10080000 8) = true ∧ isLocal 0x10080000 = false
    ∧ cntReadFull op .l 15 = false ∧ cntWriteFull op .l 15 = false := by decide +kernel

/-! ### Vectors, slot F, matrices, checks, copies -/

/-- The open bundle at a shape: `0x19FC` + 0, 1, 2 is 4 rows of 128 elements of 1, 2, 4 bytes. -/
def shaped (v : BitVec 20) : State := openCycle (seqd (fun q => { q with vshape := v }) core)

/-- Two vectors in v1 and v2. -/
def vecs (sh : BitVec 20) (a b : VReg) : State :=
  { shaped sh with regs := { core.regs with v := (core.regs.v.set 1 a).set 2 b } }

/-- Queue q0 holds one entry. -/
def queued0 (s : State) : State := { s with regs := { s.regs with q := s.regs.q.set 0 [⟨4, 0x01020304⟩] } }

/-- The first element of a vector result, and its flags. -/
def firstOf (b : Nat) (r : Host.Outcome State Fault Refusal) : Option (Nat × BitVec 7) :=
  match r with
  | .next t => t.pipe.flight.getLast?.bind (fun f => match f.val with | .v v => some (elem v.toNat b 0, f.vfl) | _ => none)
  | _ => none

def v3 : V3R := ⟨3, 1, 2, none, false, false, false, false, false⟩

theorem test_shape : shapeRows 0x19FC = 4 ∧ shapeCols 0x19FC = 128 ∧ shapeB 0x19FC = 1 ∧ shapeB 0x19FD = 2 ∧ shapeB 0x19FE = 4
    ∧ shapeOk 0x19FE = true ∧ shapeOk 0x1FFD = false := by decide +kernel

/-- R189: 127 + 1 saturates in I8 and sets SAT. -/
theorem test_vadds : firstOf 1 (exec (.vaddsI .v0 v3) (vecs 0x19FC 0x7F 1)) = some (0x7F, 0x40) := by decide +kernel

/-- R69: 1.0 + 2.0 = 3.0 in F32. -/
theorem test_vfadd : firstOf 4 (exec (.vfadd .v0 v3) (vecs 0x19FE 0x3F800000 0x40000000)) = some (0x40400000, 0) := by decide +kernel

/-- R68, R69: ∞ − ∞ is the canonical NaN and an invalid operation. -/
theorem test_vfsub_invalid : (firstOf 4 (exec (.vfsub .v0 v3) (vecs 0x19FE 0x7F800000 0x7F800000))).map (·.1) = some 0x7FC00000 := by decide +kernel

theorem witness_vector_integer : canIssueV .v0 (.v 3) (srcs3 1 2 false (some 4)) (queueNo false 2) false (latQ op 5 false) (shaped 0x19FC)
    ∧ shapeN (shaped 0x19FC).seq.vshape ≤ 512
    ∧ canIssueV .v0 (.v 3) (srcs3 1 0 true none) (queueNo true 0) false (latQ op 5 true) (queued0 (shaped 0x19FC))
    ∧ canIssueV .v1 (.v 3) (srcs3 1 2 false none) none true (lat op 5) (shaped 0x19FC) := by unfold canIssueV; decide +kernel

/-- V1's duplicate beside V0's word: V0 has left its result's number in the bundle. -/
theorem witness_duplicate :
    ((match exec (.vadd .v0 v3) (shaped 0x19FC) with | .next t => t.cyc | _ => none).bind (·.v0)).isSome = true := by decide +kernel

theorem witness_vector_floating : canIssueV .v0 (.v 3) (srcs3 1 2 false none) none false (latQ op 6 false) (shaped 0x19FE)
    ∧ shapeB (shaped 0x19FD).seq.vshape = 2 ∧ shapeB (shaped 0x19FC).seq.vshape = 1 := by unfold canIssueV; decide +kernel

theorem witness_compares : canIssueV .v0 (.p 3) (srcs3 1 2 false (some 0)) none false (lat op 6) (shaped 0x19FD)
    ∧ canIssueV .v0 (.v 3) (srcs3 2 2 false none) none false (lat op 6) (shaped 0x19FE) ∧ shapeN (shaped 0x19FE).seq.vshape = 512 := by
  unfold canIssueV; decide +kernel

theorem witness_shapes : (readX (opX 0x19FE 0x100000) 1).toNat < 2 ^ 20 ∧ shapeOk ((readX (opX 0x19FE 0x100000) 1).setWidth 20) = true
    ∧ 2 ^ 20 ≤ (readX (opX 0x19FE 0x100000) 2).toNat ∧ shapeOk ((0x1FFD : Word).setWidth 20) = false
    ∧ canIssueV .v1 (xDest 7) [.p 9] none false (lat op 5) op ∧ busyOf op .v0 ≤ op.pipe.wall := by unfold canIssueV; decide +kernel

/-- R199: a strict conversion of a NaN, and one without; a block result of 16 columns; R201: a T3P byte that is none. -/
theorem witness_conversions : canIssueV .v0 (.v 4) [.v 1] none false (lat op 7) (vecs 0x3E 0x7FC00000 0)
    ∧ (∃ d ∈ cvtSource (vecs 0x3E 0x7FC00000 0) .f32 16 16 1, d.bad = true)
    ∧ (∀ d ∈ cvtSource (vecs 0x3E 0x3F800000 0) .f32 16 16 1, d.bad = false)
    ∧ canIssueV .v0 (.vv 4) [.v 1] none false (lat op 7) (vecs 0x3E 0 0) ∧ shapeCols 0x3E ∈ [16, 32, 64] ∧ shapeN 0x3E = 16
    ∧ (∃ d ∈ (List.range 16).map (decodePlain .t3p 243), d.bad = true) ∧ (∀ d ∈ (List.range 16).map (decodePlain .t3p 0), d.bad = false) := by
  unfold canIssueV; decide +kernel

/-- R209: 2^1 = 2 in F32. -/
theorem test_exp2 : firstOf 4 (exec (.exp2 ⟨3, 1, none, false, false, false⟩) (vecs 0x3E 0x3F800000 0)) = some (0x40000000, 0) := by decide +kernel

/-- R219: the deposit of 0b11 under the mask 0b1010 is 0b1010. -/
theorem test_pdep : firstOf 4 (exec (.pdep ⟨3, 1, 2, none, false, false, false, false⟩) (vecs 0x3E 3 10)) = some (10, 0) := by decide +kernel

theorem witness_function_unit : canIssueV .f (.v 3) (srcs3 1 1 false none) none false (lat op 8) (shaped 0x19FE)
    ∧ canIssueV .f (.v 3) (srcs3 1 0 true none) (queueNo true 0) false (latQ op 9 true) (queued0 (shaped 0x19FE)) := by
  unfold canIssueV; decide +kernel

theorem witness_bit_network : canIssueV .f (.pat 3) [.v 7] none false 1 op := by unfold canIssueV; decide +kernel

/-- A shape of 128 rows and one of 256. -/
theorem witness_welford : canIssueV .f (.v 3) (srcs3 1 2 false (some 5)) none false (latQ op 10 false) (shaped 0x3F83C)
    ∧ shapeRows (shaped 0x3F83C).seq.vshape = 128 ∧ 128 < shapeRows (shaped 0x7F81C).seq.vshape := by unfold canIssueV; decide +kernel

theorem witness_deposit : (0 : Nat) < 8 ∧ (5 : Nat).testBit 0 = true ∧ (5 : Nat).testBit 1 = false ∧ ((List.range 2).filter (5 : Nat).testBit).length = 1 := by
  decide

/-- An MMA of 4 rows and 2 planes from the local window into a clear tile, with the loaded buffer that it needs; and one without. -/
theorem witness_mma : (op.mat.tiles.get 1).busy = false ∧ op.mat.mma = none ∧ bufLoading op 0 = false ∧ shadowFull (tileShadow 1) op = false
    ∧ cntReadFull op .m 1 = false ∧ recordsFull op 2 = false
    ∧ passes (checkRange (handled op) 1 plain 32 winLocal kindsVec .read 0x40 (4 * 2 * 32)) = true
    ∧ mmaBad (op.mat.tiles.get 1) (op.mat.bufs.get 0) .t3 4 false = true
    ∧ mmaBad (op.mat.tiles.get 1) (op.mat.bufs.get 0) .int 4 false = false := by decide +kernel

/-- R234: I8 with pack 1 from the local window. -/
theorem witness_weight_load : resolveFmt (handled op) .page plain 0 = some .i8 ∧ loadFmtBad [] (some .i8) .one = false
    ∧ loadFmtBad [] (some .i32) .one = true ∧ op.mat.load = none ∧ bufRead op 0 = false ∧ shadowFull (bufShadow 0) op = false
    ∧ passes (checkRange (handled op) 1 plain 32 winStore kindsVec .read 0 (fmtBytes .i8 (128 * 256))) = true
    ∧ passes (checkMetas 1 plain winStore kindsVec 0 (loadMetas [] .i8 0 (128 * 256) (128 * 256)) (handled op)) = true := by decide +kernel

/-- A tile of one entry, its exponent 0; and the exponents just outside. -/
theorem witness_retirement : cntWriteFull op .m 1 = false ∧ op.mat.ret = none ∧ (0 : Word).toInt = 0 ∧ ((512 : Word).toInt = 512 ∧ (511 : Int) < 512)
    ∧ (BitVec.ofInt 64 (-513)).toInt < -512 ∧ (op.mat.tiles.get 0).shape = none
    ∧ passes (checkRange (handled op) 1 plain 32 winStore kindsVec .write 0 (fmtBytes .i8 1)) = true := by decide +kernel

/-- R287: (−1) sra 1, and slt of −1 and 0. -/
theorem test_kalu : posted (exec (.kalu .sra 1 (.x 1) (.x 2)) (opX 0xFFFFFFFFFFFFFFFE 1)) = some (.k 1, .x 0xFFFFFFFFFFFFFFFF)
    ∧ posted (exec (.kalu .slt 2 (.x 1) (.x 0)) (opX 0xFFFFFFFFFFFFFFFF 0)) = some (.k 2, .x 1) := by decide +kernel

theorem witness_checks : isEmpty op (.k 1) = false ∧ xEmpty op 5 = false ∧ recordsFull op (lat op 13) = false ∧ isEmpty op (.p 2) = false
    ∧ isEmpty op (.v 3) = false ∧ canIssueX 10 [] 13 op := by unfold canIssueX; decide +kernel

/-- KRD beside an S-slot write of x10: ADDI x10, x0, 0 in slot S. -/
theorem witness_krd_collision :
    let g : Granule := BitVec.ofNat 256 ((0x195C0000 : Nat) * 2 ^ 224 + 0x00000513)
    (∀ o ∈ bundleOps g, decodeBad op o.2 = false) ∧ .x 10 ∈ resources (decodeWord .s (slotWord g 0)) ∧ decodeWord .k (slotWord g 7) = .krd 10 7
    ∧ (bundleTrap op g).map (·.code) = some 0x01 := by decide +kernel

/-- QFEAT's last feature, its last number and the first illegal one; HGET's reserved selections. -/
theorem witness_illegal_numbers : decodeWord .s (127 * 2 ^ 20 + 0x400B) = .qfeat 0 127
    ∧ (∃ g : Granule, slotWord g 0 = 128 * 2 ^ 20 + 0x400B ∧ (bundleTrap op g).map (·.code) = some 0x02)
    ∧ (∃ g : Granule, slotWord g 1 = 0x44010000 ∧ decodeBad op (decodeWord .s (slotWord g 0)) = false ∧ (bundleTrap op g).map (·.code) = some 0x02) :=
  ⟨by decide +kernel, ⟨0x0800400B, by decide +kernel⟩, ⟨0x4401000000000013, by decide +kernel⟩⟩

theorem witness_copy_settings : (readX (opX 65535 65536) 1).toNat ≤ 65535 ∧ 65535 < (readX (opX 65535 65536) 2).toNat ∧ strideOk 0 = true
    ∧ op.cpy.gather = none ∧ op.cpy.scatter = none ∧ bits (readX (opX 5 0) 1).toNat 2 10 + 1 ≤ 512 := by decide +kernel

/-- A copy of 64 bytes inside the local window, and one to the bound handle. -/
theorem witness_copies : queueFull op = false ∧ cntReadFull op .d 1 = false ∧ cntWriteFull op .d 2 = false
    ∧ runCount op.cpy.nest.toList = 1 ∧ heldInUse op < 2 ∧ copyFmtBad (handled op) .copy (some .page) (some .page) 0 = false
    ∧ passes (checkCopy .copy ⟨1, 1, 0, 1, 2⟩ .page .page 64 (handled (opX 0x100 64))) = true
    ∧ passes (checkCopy .addint ⟨1, 1, 0, 1, 2⟩ .page .i8 64 (handled (opX 0x100 64))) = true
    ∧ passes (checkCounter (hCounter counted) (handled op)) = true ∧ 2 ^ 40 < runCount [⟨65535, 0, 0⟩, ⟨65535, 0, 0⟩] * 65536 := by decide +kernel

theorem witness_streams : op.cpy.gather = none ∧ cntReadFull op .g 1 = false ∧ cntWriteFull op .g 1 = false
    ∧ passes (checkAll 1 plain 4 winStore kindsVec .read [(0x40, 64)] (handled op)) = true
    ∧ passes (checkRange (handled op) 1 plain 1 winStore kindsVec .read 0 1) = true
    ∧ passes (checkRange (handled op) 2 counted 1 winStore kindsVec .write 0 1) = true := by decide +kernel

theorem witness_markers : queueFull opSys = false ∧ atSystem opSys = true ∧ atSystem op = false
    ∧ passes (checkRange (mapped opSys) 15 h15Descriptor 64 (fun w => w == .global) kindsH15 .write 0x100000000 64) = true := by decide +kernel

/-- DSNAP of a handle over global memory: `hN` = 4 GiB and 4 KiB long. -/
theorem witness_snapshot :
    let g : Granule := BitVec.ofNat 256 ((0xF11 : Nat) * 2 ^ 128 + 0x1000 * 2 ^ 64 + 0x100000000)
    readSpan 1 g false = (0x100000000, 0x100000FFF) ∧ windowBad opSys (fun w => w == .global) 4 0x100000000 0x100001000 = none
    ∧ handleBad opSys 1 g [1] false 0x100000000 0x100001000 = none := by decide +kernel

/-- A broadcast of 64 bytes of the local window at scope pkg. -/
theorem witness_collective :
    let s := handled (launched 0 op)
    passes (checkAll 1 plain 1 (fun w => w == .spad || w == .global) [1] .collWrite [(0x40, 64)] s) = true ∧ (participants s .pkg).length = 1
    ∧ cntReadFull s .c 1 = false ∧ cntWriteFull s .c 1 = false ∧ (64 : Nat) < 2 ^ 61 ∧ addFmt .i32 = true := by decide +kernel

theorem witness_trust_operations : keyLive (mapped op) = true ∧ keyLive op = false ∧ xRecordsFull op 1 2 = false
    ∧ badRequest .krot 0x100000000 4096 0 = false ∧ badRequest .krot 0x100000000 0 0 = true
    ∧ badRequest .seal 0x100000000 65536 0x100010000 = false ∧ badRequest .seal 0x100000000 65536 0x100000000 = true
    ∧ passes (trustWalk (rangeReads .krot) (rangeWrites .krot) 2 0x100000000 0x100001000 (mapped op)) = true
    ∧ passes (trustWalk false true 2 0x100010000 (0x100010000 + treeArea 65536) (mapped op)) = true := by decide +kernel

theorem witness_context_operations : atSystem opSys = true ∧ xEmpty opSys 5 = false ∧ (5 : Nat) % 65536 ≠ 0
    ∧ windowOf 0x100000000 = .global ∧ 0x100000000 % 65536 = 0
    ∧ (readArea 0x100000000 [0] [] (mapped opSys)).toBool = true := by decide +kernel

/-! ### Steps, landing, commits, and what the engines end -/

/-- A word of slot S, or a token, where the next step fetches. -/
def at' (nbits w : Nat) : State := core.withFetchWord nbits w

/-- The state after a step. -/
def after (s : State) : Option State := match step s with | .next t => some t | _ => none

/-- R24, R48: `addi x5, x0, 3` lands in its own cycle and fetch goes on. -/
theorem test_step_addi : (after (at' 32 0x00300293)).map (fun t => (readX t 5, t.seq.pc, t.seq.instret, t.cyc.isNone)) = some (3, 32, 1, true) := by
  decide +kernel

/-- R44, R141: an unassigned word traps with cause 2 at the handler's address. -/
theorem test_step_illegal : (after (at' 32 0x5075335B)).map (fun t => (t.seq.level, t.seq.tcause, t.seq.tval, t.seq.tpc)) =
    some (.system, 0x02, 0x15075335B, 0) := by decide +kernel

/-- R27: a token names its dictionary entry. -/
theorem test_step_token : (after (at' 16 0x1816)).map (fun t => t.seq.token) = some (some ⟨5, 3, true⟩) := by decide +kernel

/-- R125: PSWAP raises the phase and toggles the parity. -/
theorem test_step_pswap : (after (at' 32 0x0000600B)).map (fun t => (t.seq.phase, t.seq.parity, t.rcv.commits)) = some (1, true, 1) := by decide +kernel

theorem turn {s : State} (h : (s.agenda.isEmpty && s.links.clocks && !s.pipe.done && s.cyc.isNone && (beforeIssue s).isNone) = true) :
    coreTurn s := by
  simp only [Bool.and_eq_true, List.isEmpty_iff, Bool.not_eq_true', Option.isNone_iff_eq_none] at h
  exact ⟨by simp [h.1.1.1.1], h.1.1.1.2, h.1.1.2, h.1.2, h.2⟩

/-- What a fetch finds, numbered. -/
def found (s : State) : Nat × Nat :=
  match fetch s with | .bundle g => (0, g.toNat) | .token t => (1, t) | .padding => (2, 0) | .inside => (3, 0) | .pastEnd => (4, 0)

theorem witness_step : coreTurn (at' 32 0x00300293) ∧ found (at' 32 0x00300293) = (0, 0x00300293) ∧ bundleTrap (at' 32 0x00300293) 0x00300293 = none
    ∧ coreTurn (at' 16 0x1816) ∧ found (at' 16 0x1816) = (1, 0x1816) ∧ coreTurn (at' 16 0) ∧ found (at' 16 0) = (2, 0) :=
  ⟨turn (by decide +kernel), by decide +kernel, by decide +kernel, turn (by decide +kernel), by decide +kernel, turn (by decide +kernel),
    by decide +kernel⟩

theorem witness_fetch_traps : coreTurn (seqd (fun q => { q with pc := 0x10000 }) core) ∧ found (seqd (fun q => { q with pc := 0x10000 }) core) = (4, 0)
    ∧ coreTurn (seqd (fun q => { q with pc := 4 }) (at' 32 0x13)) ∧ found (seqd (fun q => { q with pc := 4 }) (at' 32 0x13)) = (3, 0)
    ∧ (bundleTrap core 0x5075335B).isSome = true ∧ found (at' 32 0x5075335B) = (0, 0x5075335B) :=
  ⟨turn (by decide +kernel), by decide +kernel, turn (by decide +kernel), by decide +kernel, by decide +kernel, by decide +kernel⟩

/-- R45: two words of one bundle that write v9; R43: a V1 duplicate beside another V0 word. -/
theorem witness_bundle_checks : (bundleTrap core (BitVec.ofNat 256 (0xC5200100 * 2 ^ 96 + 0xC5200200 * 2 ^ 64 + 0x13))).map (·.code) = some 0x01
    ∧ collision (bundleOps (BitVec.ofNat 256 (0x8D4B67E1 * 2 ^ 96 + 0xC5200200 * 2 ^ 64 + 0x13))) = none
    ∧ dupWord (slotWord (BitVec.ofNat 256 (0x8D4B67E1 * 2 ^ 96 + 0xC5200200 * 2 ^ 64 + 0x13)) 3) = true
    ∧ (∀ o ∈ bundleOps (0x13 : Granule), decodeBad core o.2 = false) ∧ collision (bundleOps (0x13 : Granule)) = none := by decide +kernel

/-- A finished bundle whose slot trapped. -/
theorem witness_finish_trap : (match exec (.jal 1 0xFFFFF) op with
    | .next t => (t.cyc.map (fun c => !c.stalled && c.commit.isNone && (match c.trap with | some p => p.2.code != 0x09 && p.2.code != 0x0A | none => false))).getD false | _ => false) = true := by decide +kernel

/-- One scalar result in flight, r cycles before its landing, due at a wall cycle. -/
def flying (d : Dest) (v : FVal) (r due : Nat) : Flight := { Flight.start core .s d v 1 with rem := r, due := due }

def flyingIn (f : Flight) (s : State) : State := { s with pipe := { s.pipe with flight := [f] } }

theorem witness_landing : (∀ v ∈ [FVal.x 7, .awaited .evpop], oneFlight (flyingIn (flying (.x 3) v 0 0) core) (flying (.x 3) v 0 0))
    ∧ oneFlight (flyingIn (flying (.x 3) (.x 7) 1 0) core) (flying (.x 3) (.x 7) 1 0) ∧ (FVal.x 7).present = true
    ∧ (FVal.awaited .evpop).present = false ∧ core.pipe.wall < (flying (.x 3) (.x 7) 0 5).due := by unfold oneFlight; decide +kernel

theorem witness_late_result :
    let f := { flying (.x 3) (.awaited .evpop) 0 0 with late := true }
    (flyingIn f core).pipe.flight = [f] ∧ f.sys = false ∧ atSystem core = false ∧ saving core = false ∧ f.vfl = 0 ∧ f.mfl = 0 := by decide +kernel

theorem witness_quiet : quiet core = true ∧ core.seq.token = none ∧ core.seq.loops = [] ∧ lat core 0 = 1 ∧ commitRoom core = true := by decide +kernel

/-- Checkpoints so many and so young that there is no room for another. -/
theorem witness_no_room : ∃ k, commitRoom { core with rcv := { core.rcv with ckpts := List.replicate 16 k } } = false :=
  ⟨{ seq := core.seq, regs := core.regs, spad := [], flight := [], foreign := [], heldBack := [], commit := 0, wall := 0, issue := 0, grants := [], old := []
     seen := [], touched := []
     shadows := Vector.replicate 4 false
     mat := core.mat, cpy := core.cpy }, by decide +kernel⟩

theorem witness_return : (seqd (fun q => { q with level := .system }) core).seq.level = .system ∧ core.cyc = none ∧ core.pipe.flight = [] := by decide +kernel

/-- An MMA of one row and one plane that has read its granule. -/
def mmaDone : MmaOp := ⟨1, 0, 0, 0, 1, 1, 1, .int, false, [0], [], 0, 0, 0, 0, false⟩

/-- R243: a clear buffer agrees with its residues. -/
theorem residue_of_clear (op : MmaOp) (c : Nat) : residueOk op WBuf.clear c = true := by
  have hw : ∀ k n, weight WBuf.clear k n = 0 := by
    intro k n; simp [weight, WBuf.clear, Vector.get, bits, signExt, packBits]
  have hr : ∀ k, WBuf.clear.residue.get k = 0 := by intro k; simp [WBuf.clear, Vector.get]
  simp [residueOk, groupSum, hw, hr]

theorem witness_mma_end : mmaDone.read.length = mmaDone.rows * mmaDone.planes ∧ residueOk mmaDone WBuf.clear (bufCols WBuf.clear) = true
    ∧ core.mat.bufs.get 0 = WBuf.clear ∧ mmaDone.due ≤ core.pipe.wall := ⟨rfl, residue_of_clear _ _, rfl, by decide +kernel⟩

/-- A weight load of one line that has read it, and one whose line was lost. -/
def loadDone (lost : List (Nat × BitVec 8)) : LoadOp := ⟨2, 0, false, 0, 63, 64, 1, .i8, .one, .rne, false, false, false, [], [], List.replicate 64 0, lost, 0, 0, 0, false⟩

theorem witness_load_end : loadTotal (loadDone []) ≤ (loadDone []).read.length ∧ loadFault (loadDone []) (leNat (loadDone []).read) = none
    ∧ loadFault (loadDone [(0, 0x0D)]) (leNat (loadDone []).read) = some (0x0D, 0) := by
  decide +kernel

theorem witness_retire_end : (⟨3, 0, 0, 1, 0, [], 0, 0, 0, 0, 0, false⟩ : RetOp).bytes = [] := rfl

/-- A command of each kind in its stage. -/
def cmd (k : DKind) (st : DStage) : DCmd := ⟨7, k, [], 0, 1, 1, plain, plain, 0, 0, 0, false, .page, .page, st, 0, 0, 0, 0, 0, [], 0, 0, 0, [], 0, 0, 0, false, false⟩

/-- An entry of the way out. -/
def entry (b : OutBody) : OutEntry := ⟨5, b, .l, 15, 0, .s, false, 5, false⟩

def leave (b : OutBody) (s : State) : State := { s with out := { s.out with leaving := [⟨entry b, 0, 0, false⟩] } }

theorem witness_copy_end : accLeft core 7 .pkg = false ∧ recordRoom core
    ∧ [cmd (.copy .copy) .moved].find? (fun c => c.id == 7 && c.stage == .moved) = some (cmd (.copy .copy) .moved)
    ∧ [cmd (.copy .addint) .held].find? (fun c => c.id == 7 && c.stage == .held) = some (cmd (.copy .addint) .held)
    ∧ (leave (.effect (.held 7 0 0)) core).out.leaving.map (·.entry.body) = [.effect (.held 7 0 0)]
    ∧ [cmd .tinv .started].find? (fun c => c.id == 7 && c.kind == .tinv && c.stage == .started && decide (c.due ≤ core.pipe.wall)) = some (cmd .tinv .started)
    ∧ [cmd .snap .moved].find? (fun c => c.id == 7 && c.kind == .snap && c.stage == .moved) = some (cmd .snap .moved) := by
  unfold recordRoom; decide +kernel

/-- A gather of two elements, its entry whole, and the scatter that takes it. -/
def stream (bs : List Byte) (op' : Bool) : Stream := ⟨8, 0, 2, 2, 0, [], [], bs, op', 1, 1, plain, plain, 1, 2, 0, 0, false, 0, 0, 0, 0, 0, 0, false⟩

theorem witness_streams_end : (stream [1, 2] false).elems * (stream [1, 2] false).esz ≤ (stream [1, 2] false).bytes.length
    ∧ (readQ core 0).length < 4 ∧ readQ (queued0 core) 0 = ⟨4, 0x01020304⟩ :: [] ∧ pausing core = false
    ∧ (stream [] false).count ≤ (stream [] false).pos ∧ accLeft core 8 .pkg = false ∧ { stream [] false with pos := 0 }.pos < (stream [] false).count := by
  decide +kernel

/-- A lone core's broadcast: it contributes, and it receives what the root gave. -/
theorem witness_collective_end :
    let c := { cmd (.coll .bcast .pkg 3 0 64) .started with hs := 1, dst := 0x40 }
    let s := { handled (launched 0 core) with cpy := { core.cpy with cmds := [c] } }
    s.cpy.cmds.find? (fun c => c.id == 7 && c.stage == .started && c.link == 0 && decide (c.due ≤ s.pipe.wall)) = some c
    ∧ (collRanges .bcast (rankOf s .pkg == 0) (participants s .pkg).length 0x40 64).1 = [(0x40, 64)]
    ∧ (match readRange .c 1 3 0x40 64 s with | .ok r => r.1.length == 64 | _ => false) = true := by decide +kernel

theorem witness_collective_result :
    let c := { cmd (.coll .bcast .pkg 3 0 64) .started with hs := 1, dst := 0x40, link := 1 }
    let x : Coll := ⟨0, 1, 0, .pkg, 3, .bcast, 64, 0, [(0, List.replicate 64 9)], false⟩
    let s := { handled (launched 0 core) with cpy := { core.cpy with cmds := [c] }, hub := { (launched 0 core).hub with colls := [x] } }
    s.hub.colls.find? (fun x => x.no + 1 == c.link) = some x ∧ (collResult s .pkg c x).isSome = true
    ∧ (match (collResult s .pkg c x).map (fun l => receiveAll 0 l s) with | some (.ok (some u)) => decide (u.cpy.events.length < 32) | _ => false) = true := by
  decide +kernel

theorem witness_port :
    let s := { core with out := { core.out with port := [entry (.store 0 0 [1])] } }
    throttled s = false ∧ s.rcv.rerun = none ∧ s.out.portUsed + entrySize (entry (.store 0 0 [1])) ≤ 64
    ∧ paddockBytes s + entrySize (entry (.store 0 0 [1])) ≤ 32768 ∧ 64 < 64 + entrySize (entry (.store 0 0 [1])) := by decide +kernel

/-- An entry 512 wall cycles old and one a cycle younger. -/
theorem witness_paddock :
    let e : PadEntry := ⟨entry (.store 0 0 [1]), 0⟩
    e.entered + 512 ≤ ({ core with pipe := { core.pipe with wall := 512 } } : State).pipe.wall ∧ (511 : Nat) < e.entered + 512
    ∧ core.rcv.rerun = none := by decide +kernel

theorem witness_pending : effectReady core (entry (.effect (.copyInc 7 0x100 0x100 8 .core))) = true
    ∧ effectReady { core with cpy := { core.cpy with cmds := [cmd (.copy .copy) .moved] } } (entry (.effect (.copyInc 7 0x100 0x100 8 .core))) = false := by
  decide +kernel

/-- A store to the own scratchpad through the die window, and one to HBM. -/
theorem witness_stores_performed : leavingAt (leave (.store 0x10000040 0x10000040 [1]) core) 5 = some ⟨entry (.store 0x10000040 0x10000040 [1]), 0, 0, false⟩
    ∧ dieReady (leave (.store 0x10000040 0x10000040 [1]) core) ⟨entry (.store 0x10000040 0x10000040 [1]), 0, 0, false⟩ = true
    ∧ refusedKey (mapped core) 0x10000040 = false ∧ (0x10000040 : Nat) < tierBase ∧ tierBase ≤ tierKey 0 0x40
    ∧ writeFails core (tierKey 0 0x40) 1 = none
    ∧ homeReady (leave (.store 0x100000000 (tierKey 0 0x40) [1]) core) ⟨entry (.store 0x100000000 (tierKey 0 0x40) [1]), 0, 0, true⟩ = true := by decide +kernel

theorem witness_write_recorded : (recordWrite 0x100000040 (tierKey 0 0x40000040) 1 (mapped core)).isSome = true := by decide +kernel

theorem witness_effects : refusedKey core 0x100 = false ∧ homeBad core 0x100 0x100 8 = none ∧ landKey core 0x100 < 0x60000
    ∧ effectDue (leave (.effect (.copyInc 7 0x100 0x100 8 .core)) core) 5 .core = true
    ∧ effectDue (leave (.effect (.atomic 0x100 0x100 .add true 1 0 none)) core) 5 .pkg = true
    ∧ effectDue (leave (.effect (.relh [⟨2, 0x100, 0x100, .pkg⟩] 2 4)) core) 5 (widest [⟨2, 0x100, 0x100, .pkg⟩]) = true := by decide +kernel

/-- R132: 0xFFFFFFFF + 2 wraps to 1 in 4 bytes. -/
theorem test_atomic_add : (match exec (.atomicPerform 5) { leave (.effect (.atomic 0x100 0x100 .add false 2 0 none)) core with
    mem := memPutN [] 0x100 [0xFF, 0xFF, 0xFF, 0xFF, 7] } with | .next t => t.mem | _ => []) = [(0x100, 1), (0x104, 7)] := by decide +kernel

/-- R103: a counter stops at 2^64 − 1. -/
theorem test_counter_saturates : (match exec (.counterIncrementPerform 5) { leave (.effect (.copyInc 7 0x100 0x100 8 .core)) core with
    mem := memPutN [] 0x100 (List.replicate 8 0xFF) } with | .next t => leNat (memGetN t.mem 0x100 8) | _ => 0) = 2 ^ 64 - 1 := by decide +kernel

theorem witness_faults : takesFaults core ∧ (landing core).2 = ([], []) ∧ core.seq.held = [] ∧ core.seq.level = .program := by
  unfold takesFaults; decide +kernel

theorem witness_arrivals :
    let f := { flying (.x 3) (.load [(0x40, none)] (.scalar 1 false)) 1 0 with read := some ⟨.l, 15, 0x40, none, false⟩ }
    f.late = false ∧ f.due ≤ core.pipe.wall ∧ throttled (flyingIn f core) = false
    ∧ rangeBad (flyingIn f core) 0x40 ([0x40].map (landKey (flyingIn f core))) = none := by decide +kernel

/-! ### Synchronisation, trust, recovery, the hub -/

/-- A held-back effect of the core that has left the Paddock. -/
def left (e : Effect) (s : State) : State := leave (.effect e) s

theorem witness_barriers : (left (.bar .die 3) core).out.leaving = [] ++ ⟨entry (.effect (.bar .die 3)), 0, 0, false⟩ :: []
    ∧ effectDue (left (.bar .core 3) core) 5 .core = true ∧ effectDue (left (.bar .die 3) core) 5 .die = true
    ∧ (crewOf (launched 0 core) 0).isSome = true := by decide +kernel

/-- R129: the only core of its crew arrives, and its generation ends. -/
theorem test_barrier : (match exec (.barrierArrival 0 .die 3) (left (.bar .die 3) (launched 0 core)) with
    | .next t => (match exec (.barrierComplete .die 3) t with | .next u => u.hub.barriers.map (fun b => (b.gen, b.arrived)) | _ => []) | _ => []) = [(1, [])] := by
  decide +kernel

/-- The launch with its stage queue as given. -/
def queueIn (k : SQueue) (stage : Nat) (s : State) : State :=
  { launched stage s with hub := { (launched stage s).hub with launches := [{ launch with queues := [k] }] } }

theorem witness_stage_queue :
    let k : SQueue := ⟨0x100000000, 8, 64, 1, 1, 0, 0, [], [], [0], [(0, 0)], 0⟩
    stageQueue (queueIn k 1 core) 1 0 = some k ∧ nextTaker k.rr k.takers = some 0 ∧ k.taken < k.tail ∧ k.granted - k.head < k.entries
    ∧ k.emitters = (0, 0) :: [] ∧ producerEnded (queueIn { k with tail := 0 } 1 core) 1 0 = false
    ∧ effectDue (left (.emit 1 0 1 0) (queueIn k 0 core)) 5 .pkg = true ∧ effectDue (left (.release 1 0 0 0) (queueIn k 0 core)) 5 .pkg = true := by
  decide +kernel

/-- R130: the ended producer's queue is dry. -/
theorem witness_end_of_stream : producerEnded { launched 1 core with hub := { (launched 1 core).hub with
    launches := [{ launch with stages := launch.stages.map (fun st => if st.kernel = 0 ∧ st.outq = some 0 then { st with ended := true } else st) }] } } 1 0 = true := by
  decide +kernel

theorem witness_lock_grant :
    let w : LockWait := ⟨0, 3, 5, 0, 0, some 9, 0x60, true, 0⟩
    let s := { core with sys := { core.sys with lockWaits := [w] } }
    s.sys.lockWaits.find? (fun w => w.core == 0 && w.bank == 3 && w.bit == 5 && w.queued) = some w ∧ lockFree s w = true
    ∧ tagMatches { mapped s with } w.core = true
    ∧ lockFree { s with sys := { s.sys with locks := [⟨0, 3, 5, 1, 0, 0⟩] } } w = false
    ∧ [{ w with queued := false }].find? (fun w => !w.queued && decide (w.retryAt ≤ s.pipe.wall)) = some { w with queued := false } := by decide +kernel

/-- A KROT of one block that has left, and its performance; an operation whose status waits for its register. -/
theorem witness_trust_performed : leavingAt (left (.trust .krot 0 0x100000000 4096 0 [2 ^ 48] none) (mapped core)) 5
      = some ⟨entry (.effect (.trust .krot 0 0x100000000 4096 0 [2 ^ 48] none)), 0, 0, false⟩
    ∧ effectDue (left (.trust .krot 0 0x100000000 4096 0 [2 ^ 48] none) (mapped core)) 5 .pkg = true ∧ hasTree .krot = false
    ∧ (ctxVf (mapped core)).isSome = true ∧ (performTrust .krot 0x100000000 4096 0 [2 ^ 48] (mapped core)).status = 0
    ∧ (mapped core).trust.seals = [] ∧ (recAt (mapped core) (2 ^ 48)).zero = true ∧ (recAt (mapped core) (2 ^ 48)).block = 2 ^ 48 := by decide +kernel

theorem witness_trust_completed :
    let f := flying (.x 5) (.awaited .trust) 0 0
    let d : TrustRes := ⟨6, 1, some f.id, 0, 0, [], [], none, 0⟩
    [d].find? (fun d => d.id == 6 && decide (d.due ≤ core.pipe.wall)) = some d ∧ (mapped core).seq.ctx.map (·.launch) = some d.launch
    ∧ d.flight = some f.id ∧ f.sys = false := by decide +kernel

/-- A checkpoint of the core. -/
def ckpt (n wall : Nat) (gm : Bool) : Ckpt :=
  { seq := { core.seq with gmode := gm }, regs := core.regs, spad := [], flight := [], foreign := [], heldBack := [], commit := n, wall := wall, issue := 0
    grants := [], mat := core.mat, cpy := core.cpy, old := [], seen := [], touched := [], shadows := Vector.replicate 4 false }

def ckpts (l : List Ckpt) (wall : Nat) (s : State) : State := { s with rcv := { s.rcv with ckpts := l }, pipe := { s.pipe with wall := wall } }

theorem witness_forced_commits : commitRoom core = true ∧ (live core).length = core.rcv.ckpts.length ∧ core.seq.level = .program ∧ core.rcv.forceDue = false
    ∧ commitRoom { core with rcv := { core.rcv with forceDue := true } } = true := by decide +kernel

/-- Two checkpoints, 480 wall cycles after the younger and one cycle earlier. -/
theorem witness_checkpoint_release : (ckpts ([] ++ [ckpt 2 20 false, ckpt 1 10 false]) 500 core).rcv.ckpts = [] ++ [ckpt 2 20 false, ckpt 1 10 false]
    ∧ (ckpt 2 20 false).wall + 480 ≤ (ckpts [ckpt 2 20 false, ckpt 1 10 false] 500 core).pipe.wall
    ∧ awaits (ckpts [ckpt 2 20 false, ckpt 1 10 false] 500 core) 1 2 = false
    ∧ (ckpts [ckpt 2 20 false, ckpt 1 10 false] 499 core).pipe.wall < (ckpt 2 20 false).wall + 480 :=
  ⟨rfl, by decide +kernel, by decide +kernel, by decide +kernel⟩

/-- A strike report at 500 returns past the commit at 21 to the one at 20. -/
theorem witness_strike : recoverySaving (mapped core) = false ∧ (mapped core).seq.ctx.isSome = true
    ∧ (500 : Nat) < (ckpt 3 21 false).wall + 480 ∧ (ckpt 2 20 false).wall + 480 ≤ 500 := by decide +kernel

theorem witness_retired_core : launchAt (launched 0 (seqd (fun q => { q with run := .retired }) core)) 1 = some launch ∧ killable launch = true := by decide +kernel

/-- A dry run that has ended, a confirm run alike, and one that differs, under guarded mode or not. -/
def rerun (k : RunKind) : Rerun := ⟨k, 2, 0, 0, 0, false, 0, none, true, false, none⟩

def rerunning : State :=
  { ckpts [ckpt 3 90 true, ckpt 2 20 true] 100 (launched 0 core) with
    rcv := { (ckpts [ckpt 3 90 true, ckpt 2 20 true] 100 core).rcv with rerun := some (rerun .confirm) } }

theorem witness_reruns : rerunning.rcv.rerun = some (rerun .confirm) ∧ rerunning.rcv.ckpts = [ckpt 3 90 true] ++ ckpt 2 20 true :: []
    ∧ (ckpt 2 20 true).commit = (rerun .confirm).base ∧ (rerun .dry).ended = true ∧ rerunning.pipe.issue - 0 = (rerun .confirm).dryN
    ∧ readK rerunning 7 = (rerun .confirm).drySig ∧ sameKchk none (some ⟨.k, 0, 0, 0⟩) = false ∧ launchAt rerunning 1 = some launch
    ∧ killable launch = true ∧ launch.recovery = 0 :=
  ⟨rfl, rfl, rfl, rfl, by decide +kernel, by decide +kernel, by decide +kernel, by decide +kernel, by decide +kernel, rfl⟩

theorem witness_errors : (mapped core).seq.ctx.isSome = true ∧ (ckpt 2 20 true).seq.gmode = true ∧ (mapped core).rcv.cancelled ≠ some 0x40
    ∧ (ckpt 2 20 true).commit ≤ readerCommit .l { mapped core with rcv := { core.rcv with commits := 2 } } ∧ hGuarded (readH (mapped core) 0) = false ∧ core.seq.ctx = none := by decide +kernel

theorem witness_preemption :
    let p : Preempt := ⟨0, 0x100000000, 200000, false⟩
    let s := seqd (fun q => { q with preempt := some p, token := some ⟨5, 0, false⟩ }) (mapped core)
    s.seq.preempt = some p ∧ yieldPoint s = true ∧ s.rcv.rerun = none ∧ s.seq.yieldbound.toNat ≤ p.waited ∧ s.pipe.tried = false
    ∧ yieldPoint (seqd (fun q => { q with token := some ⟨5, 0, true⟩ }) s) = false ∧ p.waited - 1 < s.seq.yieldbound.toNat := by decide +kernel

/-- A work queue in RUN with an entry at its head, the host link up. -/
def wq (st : QState) (last : Option Nat) : WQueue := ⟨0, 0, 0x100000000, 4, 1, 0, st, last, 0, 0, 0, []⟩

def queued (q : WQueue) (s : State) : State :=
  { s with
    hub := { s.hub with queues := [q] }
    links := { s.links with pcie := true } }

theorem witness_work_queues : entryDue (wq .run (some 4)) (queued (wq .run (some 4)) (mapped core)) = true
    ∧ queueAt (queued (wq .gap none) core) 0 = some (wq .gap none) ∧ (wq .run (some 4)).last.map (· + 1) = some 5 ∧ (4 : Nat) ≤ 4
    ∧ (vfAt (queued (wq .run none) (mapped core)) 0).isSome = true ∧ (wq .off none).state = .off
    ∧ (launchStatus (queued (wq .run none) (mapped core)) 0 0).isSome = true := by decide +kernel

theorem witness_registers : (∃ v, vfAt (mapped core) 0 = some v ∧ v.slot = some 0 ∧ v.tdisp = .unlocked ∧ v.invBusy = false)
    ∧ (keySlot (mapped core) 0).state = .live ∧ mayEnable (mapped core) 0 = true ∧ accessIds core = [] ∧ (partAt core 0).isSome = true :=
  ⟨⟨_, rfl, rfl, rfl, rfl⟩, by decide +kernel, by decide +kernel, by decide +kernel, by decide +kernel⟩

theorem witness_containment : launchAt (launched 0 core) 1 = some launch ∧ killable launch = true ∧ killable { launch with state := .gone } = false
    ∧ (launched 0 core).hub.saved = [] ∧ (launched 0 core).links.shed = false ∧ (∃ c, (launched 0 core).seq.ctx = some c ∧ c.launch = launch.id) :=
  ⟨by decide +kernel, by decide +kernel, by decide +kernel, rfl, rfl, ⟨_, rfl, rfl⟩⟩

/-- R386: one page of function 0 is returned. -/
theorem witness_scrub_pages : ∃ v x, vfAt (mapped core) 0 = some v ∧ walkVf v (mapped core) 0x100000000 = .ok x
    ∧ tierBase ≤ 4096 * (globalKey [x] 0x100000000 / 4096) ∧ Memory.wf (mapped core).mem = true ∧ (mapped core).trust.seals = [] :=
  ⟨_, ⟨0, 0x100000000, 0x40000000, tierKey 0 0x6040, 0x4000000F, 0⟩, rfl, by rfl, by decide +kernel, by decide +kernel, rfl⟩

/-- A launch of one stage that fits the one free core, and its function's slot LIVE. -/
def waiting : Launch := { launch with state := .submitted, stages := [⟨0, 1, 1, 1, none, none, 1, [], false, false⟩], queues := [] }

def hub1 (p : Part) (l : List Launch) (s : State) : State := { mapped s with hub := { (mapped s).hub with parts := [p], launches := l } }

def part (pool : List Nat) (running : Option Nat) : Part := ⟨0, 8, pool, [⟨0, 100, 1, 1, 0, 0⟩, ⟨1, 100, 1, 1, 0, 0⟩], running, Vector.replicate 4 (0, 0), 0, 0, none⟩

theorem witness_launch_start : startable (hub1 (part [1] (some 0)) [waiting] core) (part [1] (some 0)) = some waiting
    ∧ freeCores (hub1 (part [1] (some 0)) [waiting] core) (part [1] (some 0)) = [1] ∧ inMask 1 1 = true ∧ (1 : Nat) ≠ pkgIndex core
    ∧ nextReady (hub1 (part [] (some 0)) [waiting] core) (part [] (some 0)) = some waiting
    ∧ fits (hub1 (part [] (some 0)) [waiting] core) (part [] (some 0)) waiting = false := by decide +kernel

theorem witness_launch_complete : (∀ st ∈ { waiting with stages := [⟨0, 1, 1, 1, none, none, 1, [], false, true⟩] }.stages, st.ended = true)
    ∧ launchAt (hub1 (part [] (some 0)) [{ waiting with state := .running }] core) 1 = some { waiting with state := .running }
    ∧ core.links.pcie = false := by decide +kernel

theorem witness_core_joins : joins (hub1 (part [1] (some 0)) [{ waiting with state := .running, stages := [⟨0, 1, 2, 1, none, none, 1, [2], false, false⟩] }] core)
    (part [1] (some 0)) = [(1, 0, 1)] := by decide +kernel

theorem witness_rebalance : core.hub.rebalDone < ({ core with pipe := { core.pipe with ref := 4096 } } : State).pipe.ref / 4096
    ∧ core.pipe.ref / 4096 ≤ core.hub.rebalDone ∧ core.hub.saved = [] ∧ (∀ p ∈ core.hub.parts, p.pool = []) := by decide +kernel

/-- Stage 0 has three cores and no work, stage 1 one core and a full queue. -/
theorem witness_move_pair : (choosePair (hub1 (part [] (some 0)) [] core) { launch with
      stages := [⟨0, 1, 4, 1, none, some 0, 1, [0, 2, 3], false, false⟩, ⟨0, 1, 4, 1, some 0, none, 1, [1], false, false⟩]
      queues := [⟨0x100000000, 8, 64, 8, 8, 0, 0, [], [], [], [], 0⟩] }).isSome = true := by decide +kernel

theorem witness_slices : sliceOver (hub1 (part [] none) [{ waiting with state := .running }] core) (part [] none) = true
    ∧ (pickSlice (eligible (hub1 (part [] none) [{ waiting with state := .running }] core) (part [] none))
        (sliceFuel (part [] none)) (part [] none)).1 = some 0
    ∧ runningVf (part [] none) = none ∧ runningVf (part [] (some 1)) = some 1 := by decide +kernel

theorem witness_switch : allSaved (hub1 { part [] (some 1) with switching := some (some 0, 0) } [] core) 1 = true
    ∧ (hub1 { part [] (some 1) with switching := some (some 0, 0) } [] core).hub.saved = [] ∧ (part [] (some 1)).table[0]? = some ⟨0, 100, 1, 1, 0, 0⟩ := by
  decide +kernel

/-- A context saved for recovery on core 1, and core 2 free for it. -/
theorem witness_resume :
    let e : Saved := ⟨1, 1, 0, false, true, none, true, []⟩
    let s := { hub1 (part [2] (some 0)) [{ waiting with state := .running, stages := [⟨0, 1, 2, 1, none, none, 1, [1], false, false⟩] }] core with }
    [e].find? (fun x => x.launch == 1 && x.recovery) = some e ∧ runningVf (part [2] (some 0)) = some 0 ∧ 2 ∈ freeCores s (part [2] (some 0)) ∧ spans s { waiting with stages := [⟨0, 1, 2, 1, none, none, 1, [1], false, false⟩] } (some 1) 2 = true
    ∧ stageOf { waiting with stages := [⟨0, 1, 2, 1, none, none, 1, [1], false, false⟩] } 1 = some 0 := by decide +kernel

/-- Dies 0 to 7 in two partitions of four; a count that the size does not divide is refused. -/
theorem witness_partitions : (4 : Nat) ∈ [1, 2, 4, 8] ∧ 0 + 8 ≤ 8 ∧ 8 % 4 = 0 ∧ (∀ d, d < 8 → residentOn core d = false)
    ∧ (match exec (.partitionChange 0 8 4) core with | .next t => t.hub.parts.map (fun p => (p.first, p.size)) | _ => []) = [(0, 4), (4, 4)]
    ∧ (match exec (.partitionChange 0 6 4) core with | .next t => t.hub.parts.map (fun p => (p.first, p.size)) | _ => []) = [(0, 8)] := by decide +kernel

theorem witness_gangs : [(⟨7, 2, 10, false⟩ : Gang)].find? (fun g => g.gang == 7 && !g.active) = some ⟨7, 2, 10, false⟩
    ∧ core.links.podTime < 1500 * 2 ∧ 1500 * (2 + 50) ≤ ({ core with links := { core.links with podTime := 78000 } } : State).links.podTime
    ∧ gangEntries (hub1 { part [] none with table := [⟨0, 100, 1, 1, 7, 0⟩] } [] core) 7 = [(0, 0)] := by decide +kernel

theorem witness_self_test : (5 : Nat) < 768 ∧ 3 ≤ ({ core with links := { core.links with stage := 3 } } : State).links.stage ∧ core.hub.launches = []
    ∧ core.rcv.retiredCount < 3 ∧ core.hub.disabledDies = [] := by decide +kernel


/-! ### Memory system, trust engine, bring-up and links -/

def trusted (f : Trust → Trust) (s : State) : State := { s with trust := f s.trust }
def linked (f : Links → Links) (s : State) : State := { s with links := f s.links }

/-- R351: the page at 4 GiB of function 0 may move to host memory once the metadata region exists; the target lies beside the source. -/
def movable : State := trusted (fun t => { t with hostmeta := some (0, 0x1000) }) (mapped core)

theorem witness_migration_request : vfAt core 0 = none ∧ Memory.wf movable.mem = true ∧ ∃ v x, vfAt movable 0 = some v
    ∧ walkVf v movable 0x100000000 = .ok x ∧ ptFrozen x.w0.toNat = false ∧ 0 % x.size = 0 ∧ tierFits movable 2 0 x.size = true
    ∧ globalKey [x] x.va + x.size ≤ tierKey 2 0 :=
  ⟨rfl, by decide +kernel, _, _, rfl, by rfl, by decide +kernel, by decide +kernel, by decide +kernel, by decide +kernel⟩

/-- A page that is frozen already: the same table with bit 6 of the leaf set. -/
theorem witness_migration_busy : let s := { movable with mem := memPutN movable.mem (tierKey 0 0x6040) (leBytes 8 0x4000004F) }
    ∃ v x, vfAt s 0 = some v ∧ walkVf v s 0x100000000 = .ok x ∧ ptFrozen x.w0.toNat = true :=
  ⟨_, _, rfl, by rfl, by decide +kernel⟩

/-- A migration under way, copied and not: nothing is out, and the leaf stands as it was frozen or changed. -/
def migrating (copied : Bool) (w0 : Word) : State :=
  let m : Migration := ⟨0, 0x100000000, tierKey 0 0x6040, w0, 0, 2, 0, 0x40000000, copied, false⟩
  { movable with sys := { movable.sys with migrations := [m] } }

theorem witness_migration : (migrationAt (migrating false 0x4000004F) 0 0x100000000).isSome = true
    ∧ migrationAt (migrating true 0) 0 0x1000 = none ∧ pageWritesOut (migrating false 0) (tierKey 0 0x40000000) 0x40000000 = false
    ∧ pageReadsOut (migrating true 0) (tierKey 0 0x40000000) 0x40000000 = false ∧ tierKey 0 0x40000000 % 4096 = 0 ∧ tierKey 2 0 % 4096 = 0
    ∧ 0x40000000 % 4096 = 0 ∧ tierKey 0 0x6040 + 16 ≤ tierKey 0 0x40000000 ∧ tierKey 0 0x40000000 + 0x40000000 ≤ tierKey 2 0
    ∧ (let w := entryWords (migrating true 0x4000004F) (tierKey 0 0x6040)
       swFields w.1 w.2 = swFields 0x4000004F 0 ∧ swFields w.1 w.2 ≠ swFields 0x4000004D 0) := by decide +kernel

/-- Lanes that stayed below twice and three times, with and without a repaired one beside them. -/
def laned (l : List Lane) : State := { core with sys := { core.sys with lanes := l } }

theorem witness_memory_upkeep : core.sys.retraining = [] ∧ (laneAt core 0 0 0 5).below < 3 ∧ (laneAt core 0 0 0 5).repaired = false
    ∧ (laneAt (laned [⟨0, 0, 0, 5, 2, false⟩, ⟨0, 0, 0, 6, 3, true⟩]) 0 0 0 5).below = 2
    ∧ (∃ x ∈ [(⟨0, 0, 0, 5, 2, false⟩ : Lane), ⟨0, 0, 0, 6, 3, true⟩], x.stack = 0 ∧ x.chan = 0 ∧ x.pc = 0 ∧ x.lane ≠ 5 ∧ x.repaired = true)
    ∧ 3 ≤ (laneAt (laned [⟨0, 0, 0, 5, 3, false⟩]) 0 0 0 5).below
    ∧ (∃ r ∈ [((0, 0, 9) : Nat × Nat × Nat)], r.1 = 0 ∧ core.pipe.ref < r.2.2) := by decide +kernel

/-- R360: the budget's least and greatest values; a share of 1,024 alone, and one of 1 beside it, which is too many. -/
theorem witness_bandwidth_registers : 1 ≤ (1 : Word).toNat ∧ (524288 : Word).toNat ≤ 524288 ∧ bits (0x4000000 : Word).toNat 16 11 = 1024
    ∧ (0x4000000 : Word).toNat < 2 ^ 27 ∧ core.sys.shares = [] ∧ ¬ bits (0x10001 : Word).toNat 16 11 + 1024 ≤ 1024 := by decide +kernel

/-- At an interval boundary, with demand and without, shares set and not. -/
def boundary (w : Bool) : State :=
  { mapped core with
    pipe := { core.pipe with ref := 1024 }
    sys := { core.sys with shares := [(0, 512, 0)] }
    out := { core.out with waiting := w } }

theorem witness_bandwidth_boundary : (boundary true).sys.bwDone < (boundary true).pipe.ref / 1024 ∧ core.pipe.ref / 1024 ≤ core.sys.bwDone
    ∧ hasDemand (boundary true) = true ∧ throttled (boundary true) = true ∧ hasDemand (boundary false) = false := by decide +kernel

theorem witness_generator : (trusted (fun t => { t with retesting := true }) core).trust.fault = false ∧ core.trust.retesting = false
    ∧ 2 ^ 20 ≤ (trusted (fun t => { t with sinceSeed := 1048576 }) core).trust.sinceSeed ∧ core.trust.sinceSeed < 2 ^ 20 := by decide +kernel

/-- R395: a record of level 1 is of the form; one of level 3, or one byte shorter, is not. -/
def record (level : Byte) (n : Nat) : List Byte := [0x44, 0x42, 0x47, 0x31] ++ List.replicate 48 0 ++ [level] ++ List.replicate n 0

theorem witness_mailbox : core.links.shed = false ∧ unlockForm (record 1 125) = true ∧ unlockForm (record 2 125) = true ∧ unlockForm (record 3 125) = false
    ∧ unlockForm (record 1 124) = false ∧ ((record 1 125)[52]?).map (·.toNat) = some 1
    ∧ (trusted (fun t => { t with nonce := some (List.replicate 32 0) }) core).trust.nonce = some (((record 1 125).drop 20).take 32)
    ∧ core.trust.nonce ≠ some (((record 1 125).drop 20).take 32)
    ∧ (let s := linked (fun l => { l with stage := 6 }) core
       s.links.readyDone = false ∧ s.links.stage = 6 ∧ s.links.holding = none)
    ∧ core.links.stage ≠ 6 ∧ 0 < 4096 ∧ 0 + 4096 ≤ 2 ^ 56 ∧ core.trust.hostmeta = none
    ∧ (linked (fun l => { l with shed := true }) core).links.shed = true := by decide +kernel

/-- Function 0 in one TDISP state, no context on the core. -/
def function (d : Tdisp) : State := { mapped core with hub := { (mapped core).hub with vfs := [{ newVf 0 0 with slot := some 0, root := 0x2001, tdisp := d }] }, seq := core.seq }

theorem witness_functions : vfAt (function .unlocked) 0 ≠ none ∧ vfAt core 0 = none ∧ vfResident (function .unlocked) 0 = false
    ∧ (function .unlocked).hub.queues = [] ∧ (function .unlocked).trust.debug ≠ 2 ∧ (vfAt (function .locked) 0).map (·.tdisp) = some .locked
    ∧ (vfAt (function .run) 0).map (·.tdisp) = some .run ∧ (keySlot (function .run) 0).state = .live := by decide +kernel

/-- R389: function 0 of the host in each stage of its exchange, and one that does not exist. -/
def session (e a : Bool) : State := trusted (fun t => { t with sessions := [⟨1, true, true, true, e, a, [], 0⟩] }) (mapped core)

theorem witness_spdm : fnExists core 0 = true ∧ fnExists core 1 = false ∧ fnExists (mapped core) 1 = true ∧ (sessionOf core 0).version = false
    ∧ (sessionOf (session true false) 1).algs = true ∧ (sessionOf (session true false) 1).exchanged = true
    ∧ (sessionOf (session true false) 1).active = false ∧ (sessionOf (session true true) 1).active = true ∧ (vfAt (session true true) 0).isSome = true
    ∧ measurement core 0 6 ≠ none ∧ measurement core 0 17 = none := by decide +kernel

/-- R404 to R407: each stage with what ends it, its time limit, and a start that has been held for a second. -/
theorem witness_boot : core.links.holding = none ∧ core.links.stage = 0 ∧ core.links.count < 3
    ∧ 3 ≤ (linked (fun l => { l with count := 3 }) core).links.count ∧ (List.range 8).filter [0, 9].contains = [0]
    ∧ (List.range 16).filter (fun n => [1].contains n && [0].contains (n / 2)) = [1] ∧ (0 : Nat) / 96 ∉ core.hub.disabledDies
    ∧ (∃ p ∈ core.hub.parts, p.first ≤ 0 / 96 ∧ 0 / 96 < p.first + p.size)
    ∧ (let s := { core with pipe := { core.pipe with ref := 750000000 } }; 1500000 * 500 ≤ s.pipe.ref - s.links.resetAt)
    ∧ core.pipe.ref - core.links.resetAt < 1500000 * 500
    ∧ (let s := linked (fun l => { l with holding := some 0 }) { core with pipe := { core.pipe with ref := 1500000000 } }
       s.links.holding = some 0 ∧ 0 + 1500000000 ≤ s.pipe.ref)
    ∧ (linked (fun l => { l with powerLimit := 700 }) core).links.powerLimit < 701 := by decide +kernel

/-- R394, R402: the link of dies 0 and 1, one tag failure before it goes out of service. -/
def link : DieLink := ⟨0, 1, 4, [], [⟨0, some 0, 3, 7, []⟩], 15, 0, true⟩

theorem witness_die_links : let s := linked (fun l => { l with dieLinks := [link] }) (mapped core)
    s.links.dieLinks = [link] ∧ link.joins 1 0 = true ∧ link.joins 0 2 = false ∧ link.up = true ∧ (keySlot s 0).state = .live
    ∧ (keySlot s 1).state ≠ .live ∧ link.keys.find? (fun z => z.dir == 0 && z.slot == some 0) = some ⟨0, some 0, 3, 7, []⟩
    ∧ link.keys.find? (fun z => z.dir == 1 && z.slot == some 0) = none ∧ ¬ link.fails0 + 1 < 16 ∧ link.fails1 + 1 < 16 := by decide +kernel

/-- R392: the modelled package at index 5 with one peer on either side, in each place of the handshake. -/
def peered (n : Nat) (k : Shake) (sent : Nat) : State :=
  trusted (fun t => { t with peers := [⟨n, 0, k, [], [], [], [], sent, 0, []⟩] }) { core with id := { core.id with package := 5 } }

theorem witness_handshake : peerAt (peered 3 .hs2 0) 3 = some ⟨3, 0, .hs2, [], [], [], [], 0, 0, []⟩ ∧ peerAt core 3 = none
    ∧ (3 : Nat) < (peered 3 .down 0).id.package.toNat ∧ (peered 9 .hs1 0).id.package.toNat ≤ 9
    ∧ ((peerAt (peered 9 .hs1 0) 9).map (·.shake)) = some .hs1 ∧ verifies [] [] 1656 = false
    ∧ (∃ p, peerAt (peered 9 .failed 0) 9 = some p ∧ p.shake = .failed ∧ p.retryAt ≤ (peered 9 .failed 0).pipe.ref)
    ∧ (∃ p, peerAt (peered 3 .done 0x80000000) 3 = some p ∧ p.shake = .done ∧ 2 ^ 31 ≤ p.sent) :=
  ⟨by decide +kernel, by decide +kernel, by decide +kernel, by decide +kernel, by decide +kernel, rfl,
    ⟨_, rfl, rfl, by decide +kernel⟩, ⟨_, rfl, rfl, by decide +kernel⟩⟩

/-- R397, R402, R403, R411: the host link after stage 4, one post waiting; a port to package 3 that is its only one; a CXL device. -/
theorem witness_links : let s := linked (fun l => { l with stage := 5, cxl := true, ports := [⟨2, 4, some 3⟩] }) core
    4 ≤ s.links.stage ∧ 16 ∈ [1, 2, 4, 8, 16] ∧ core.links.stage < 4 ∧ s.hub.posts = [] ∧ s.links.cxl = true ∧ core.links.cxl = false
    ∧ (3 : Nat) ≠ s.id.package.toNat ∧ s.links.ports.find? (fun p => p.port == 2) = some ⟨2, 4, some 3⟩
    ∧ (∀ q ∈ s.links.ports, q.port ≠ 2 → q.peer ≠ some 3) ∧ (∀ c ∈ s.cpy.cmds, c.stage ≠ .started) := by decide +kernel

/-- R409: with the link of dies 0 and 1 lost, neither order leads from 0 to 1; 0 reaches 5 across the rows first. -/
theorem test_routes :
    let s := { core with links := { core.links with dieLinks := [⟨0, 1, 4, [], [], 0, 0, false⟩] } }
    reaches s 0 1 = false ∧ reaches s 0 5 = true ∧ reaches s 1 5 = true ∧ dieSets s 8 [0, 1, 4] = [[0, 4], [1, 4]] := by decide +kernel

/-! ### Divider, banks, records of a Ubrov set, deferred conditions, generators -/

theorem witness_divider : op.pipe.busyDiv ≤ op.pipe.wall ∧ canIssueVar 3 [1, 2] op ∧ xRecordsFull op 3 (lat op 0) = false := by
  unfold canIssueVar; decide +kernel

theorem witness_descriptors_present : (∀ h, hEmpty op h = false) ∧ maskEmpty op 0xFFFF = false ∧ undoBlocked op.rcv.commits (headPieces 0 op) op = false
    ∧ undoBlocked op.rcv.commits (queuePieces 0 0 64) op = false ∧ tinvBefore op 8 = false := by
  refine ⟨fun h => ?_, by decide +kernel, by decide +kernel, by decide +kernel, by decide +kernel⟩
  revert h; decide +kernel

/-- R58: a Ubrov set of one record, the word `addi x5, x0, 3` in slot S. -/
def aSet : State := { core with ubrov := some [0x00300293] }

theorem witness_record : aSet.ubrov = some [0x00300293] ∧ aSet.seq.token = none ∧ atSystem aSet = false ∧ aSet.seq.pc % 2 = 0
    ∧ ([0x00300293] : List Word)[aSet.seq.pc / 2]? = some 0x00300293 ∧ decodeWord .s (slotWord (recordGranule 0x00300293) 0) = .addi ⟨5, 0, 3⟩ :=
  ⟨rfl, rfl, by decide +kernel, by decide +kernel, by decide +kernel, by decide +kernel⟩

/-- R325: run again after a return, NEXTITEM has the item that it had. -/
theorem witness_item_again : let s := { launched 1 op with out := { (launched 1 op).out with handed := [(0, ⟨1, 0, 0, 0x100000000⟩)] } }
    moveOf s = none ∧ s.out.handed.find? (fun e => e.1 == s.rcv.commits) = some (0, ⟨1, 0, 0, 0x100000000⟩) := by decide +kernel

theorem witness_faults_outside_a_tick : core.pipe.found = none ∧ (seqd (fun q => { q with level := .system }) core).pipe.found = none
    ∧ (seqd (fun q => { q with level := .system }) core).seq.level = .system := ⟨rfl, rfl, rfl⟩

/-- A load that arrives at wall cycle 6 after its value's time 5. -/
theorem witness_arrival : let f := { flying (.x 3) (.x 7) 0 5 with late := true }
    f.due < ({ flyingIn f core with pipe := { (flyingIn f core).pipe with wall := 6 } } : State).pipe.wall ∧ takesFaults core := by
  unfold takesFaults; decide +kernel

theorem witness_collective_arrived :
    let c := { cmd (.coll .bcast .pkg 3 0 64) .started with hs := 1, dst := 0x40, link := 1 }
    let x : Coll := ⟨0, 1, 0, .pkg, 3, .bcast, 64, 0, [(0, List.replicate 64 9)], false⟩
    let s := { handled (launched 0 core) with cpy := { core.cpy with cmds := [c] }, hub := { (launched 0 core).hub with colls := [x] } }
    allArrived s .pkg x = true ∧ x.failed = false ∧ c.woff = 0 ∧ { c with woff := 1 }.woff ≠ 0 ∧ writeWaits s { c with woff := 1 } = false
    ∧ writeFree s = true ∧ readFree s = true := by decide +kernel

/-- The youngest of two checkpoints is live and stays; of one checkpoint nothing is released. -/
theorem witness_checkpoints_kept : (∀ k ∈ [] ++ [ckpt 2 20 false], k.commit ≠ (ckpt 1 10 false).commit)
    ∧ (live (ckpts [ckpt 1 10 false] 500 core)).length = (ckpts [ckpt 1 10 false] 500 core).rcv.ckpts.length
    ∧ (ckpts [ckpt 1 10 false] 500 core).rcv.ckpts.length ≤ 1
    ∧ (ckpts [ckpt 2 20 false, ckpt 1 10 false] 500 { core with rcv := { core.rcv with rerun := some { rerun .dry with base := 1 } } }).rcv.rerun
      = some { rerun .dry with base := 1 } := by
  refine ⟨?_, by decide +kernel, by decide +kernel, rfl⟩
  intro k hk; simp at hk; subst hk; decide

/-- A retired core whose launch has no recovery area, drained and not. -/
def retired (l : List Leaving) : State :=
  let s := launched 0 (seqd (fun q => { q with run := .retired }) core)
  { s with
    rcv := { s.rcv with retiring := some (1, 2, 0, 5) }
    out := { s.out with leaving := l } }

theorem witness_retirement_reported : (retired []).seq.run = .retired ∧ launchAt (retired []) 1 = some launch ∧ killable launch = true
    ∧ (retired []).rcv.retiring = some (1, 2, 0, 5) ∧ drained (retired []) = true ∧ drained (retired [⟨entry (.store 0 0 [1]), 0, 0, false⟩]) = false
    ∧ recoverySaving (retired []) = true ∧ launch.recovery = 0 := by decide +kernel

/-- A unit between the confirm run's two runs that differ and the KCHK that failed alike in both. -/
theorem witness_rerun_kchk : let m : Mismatch := ⟨.k, 4, 0, 0x089E0000⟩
    m.slot = .k ∧ m.word ≠ 0 ∧ sameKchk (some m) (some m) = true ∧ takesFaults rerunning := by unfold takesFaults; decide +kernel

theorem witness_background : betweenSaves core = true ∧ backgroundIdle core = true ∧ nextTakes core = false ∧ takesFaults core := by
  unfold takesFaults; decide +kernel

/-- R315: an entry in host memory, its function without a session: its tag cannot verify. -/
theorem witness_ring_entry :
    let s := queued { wq .run none with doorbell := 1, base := 0x1000 } { mapped core with mem := memPutN [] (tierKey 2 0x1000) [0, 0, 0, 0, 0, 0, 0, 0, 1] }
    (ringEntry { wq .run none with doorbell := 1, base := 0x1000 } s).getD 8 0 = 1
    ∧ entryDue { wq .run none with doorbell := 1, base := 0x1000 } s = true
    ∧ openEntry s (wq .run none) (ringEntry (wq .run none) s) = none := by decide +kernel

/-- An invalidation that waits for one access, and one that waits for none. -/
theorem witness_invalidation : (∀ n ∈ ([] : List Nat), n ∉ accessIds core) ∧ (flyingIn (flying (.x 3) (.load [(0x40, none)] (.scalar 1 false)) 1 0) core).pipe.flight.map (·.id)
      = accessIds (flyingIn (flying (.x 3) (.load [(0x40, none)] (.scalar 1 false)) 1 0) core)
    ∧ (⟨0, 0x100000000, 0x40000000, tierKey 0 0x6040, 0x4000000F, 0⟩ : Xlat).va < 2 ^ 57 := by decide +kernel

/-- R351: a migration that has switched, and no load that still reads the old copy. -/
def switchedTo (w0 : Word) : State := { migrating true w0 with sys := { (migrating true w0).sys with
  migrations := (migrating true w0).sys.migrations.map (fun m => { m with switched := true }) } }

theorem witness_migration_release : (switchedTo 0).sys.migrations.find? (fun m => m.vf == 0 && m.va == 0x100000000 && m.switched)
      = some ⟨0, 0x100000000, tierKey 0 0x6040, 0, 0, 2, 0, 0x40000000, true, true⟩
    ∧ pageReadsOut (switchedTo 0) (tierKey 0 0x40000000) 0x40000000 = false ∧ (migrating true 0).sys.stalled = []
    ∧ (∀ m ∈ (switchedTo 0).sys.migrations, m.vf = 0 → m.switched = true) ∧ (∀ m ∈ (switchedTo 0).sys.migrations, m.copied = false ∨ m.switched = true)
    ∧ migrationAt (switchedTo 0) 0 0x100000000 = none := by decide +kernel

theorem witness_no_migration : core.sys.migrations = [] ∧ (∀ m ∈ core.sys.migrations, m.tier = 1 → m.copied = false) ∧ core.sys.stalled = [] := by
  refine ⟨rfl, ?_, rfl⟩
  decide +kernel

/-- R332: in a division of dies 0 to 7 by four, a function of partition 0 belongs to partition 0 and one of partition 8 stays. -/
theorem witness_rebinding : (∃ v ∈ (mapped core).hub.vfs, 0 + 4 * 0 ≤ v.part ∧ v.part < 0 + 4 * 0 + 4 ∧ (0 : Nat) < 8 / 4)
    ∧ ((8 : Nat) < 0 ∨ 0 + 8 ≤ 8) := ⟨⟨newVf 0 0 |> fun v => { v with slot := some 0, root := 0x2001 }, by simp [mapped], by decide +kernel⟩, by decide⟩

theorem witness_generator_healthy : rngHealthy core ∧ core.links.shed = false ∧ (sessionOf (session false false) 1).algs = true := by
  unfold rngHealthy; decide +kernel

/-- R333: a division that runs a function and is not switching. -/
theorem witness_rebalanced_parts : (part [] (some 1)).switching = none ∧ runningVf (part [] (some 1)) = some 1 := by decide +kernel

theorem witness_first_message : rngHealthy (peered 3 .down 0) ∧ (3 : Nat) < (peered 3 .down 0).id.package.toNat ∧ (List.replicate 1656 (0 : Byte)).length = 1656 := by
  unfold rngHealthy; decide +kernel

/-- R147: an area whose header is sound and of the context's tenant 0, its sections all zeros. -/
def areaed (s : State) : State :=
  { mapped s with mem := memPutN (mapped s).mem (tierKey 0 0x40000000) (leBytes 6 0x131585443) }

theorem witness_context_area : (match readArea 0x100000000 [0] [] (areaed opSys) with
    | .ok (xs, t) =>
      let f := areaGranule t xs 0x100000000
      decide (fieldAt f 0 6 = 0x131585443) && decide (fieldAt f 8 4 = (areaed opSys).seq.tenant.toNat)
      && (match readArea 0x100000000 (sectionLines (fieldAt f 6 1) (min 64 (fieldAt f 40 1)) (min 64 (fieldAt f 41 1))) xs t with
        | .ok (ys, v) => (readArea 0x100000000 (spadLines (readChunk (areaGranule v ys 0x100000000) 0x7000 48)) ys v).toBool
        | _ => false)
    | _ => false) = true := by decide +kernel

/-- R368: the first bytes of SHAKE256 of the empty message, the known answer of FIPS 202. -/
theorem test_shake256 : (shake256 8 []).map (·.toNat) = [0x46, 0xB9, 0xDD, 0x2B, 0x0B, 0xA8, 0x8D, 0x13] := by decide +kernel

/-- R6, R117: no wrap of a base at the top of the number range. -/
theorem test_sum_is_exact : (trapped (exec (.ld ⟨3, 1, 16⟩) (opX 0xFFFFFFFFFFFFFFF8 0))).map (·.2.code) = some 0x06 := by decide +kernel

/-! ### Tokens, keys of links, starts -/

/-- A tenant with a share; its core's bucket holds n tokens. -/
def bucket (n : Nat) (s : State) : State :=
  { s with sys := { s.sys with shares := [(0, 512, 0)] }, out := { s.out with tokens := n } }

/-- R363: two lines of tier 0 with one token: one line is paid, the other waits; with the next token both pass. -/
theorem test_lines_wait_for_tokens :
    let l := hbmLines [tierKey 0 0x1000, tierKey 0 0x103F, tierKey 0 0x1040, 0x40, tierKey 1 0]
    let a := payLines l 0 (bucket 1 core)
    let b := payLines l 1 (bucket 1 core)
    l = 2 ∧ a.1 = false ∧ a.2.1 = 1 ∧ a.2.2.out.tokens = 0 ∧ a.2.2.out.waiting = true ∧ b.1 = true ∧ b.2.2.out.tokens = 0
    ∧ (payLines l 0 core).1 = true := by decide +kernel

/-- A WAITGE on a counter in tier 0 whose bucket is empty. -/
theorem witness_token_wait : passes (checkRange (bucket 0 (mapped op)) 15 h15Descriptor 8 winStore kindsH15 .read 0x100000000 8) = true
    ∧ (payLines (hbmLines [tierKey 0 0x40000000]) 0 (bucket 0 (mapped op))).1 = false
    ∧ (payLines (hbmLines [tierKey 0 0x40000000]) 0 (bucket 3 (mapped op))).1 = true := by decide +kernel

/-- R406: the example of the register: three starts failed with reason 0x06, then stage 0 finds the count at 3 and enters Shed mode. -/
theorem test_start_status :
    let s := linked (fun l => { l with count := 3, reasons := [6, 6, 6] }) State.reset
    startStatus s = 0x06060630 ∧ (match exec (.bootStage0 true 0) s with | .next t => startStatus t == 0x06060638 | _ => false) = true := by
  decide +kernel

/-- R367: a function that a failed lock bars from a slot. -/
theorem witness_barred : ∃ v, vfAt { core with hub := { core.hub with vfs := [{ newVf 0 0 with barred := true }] } } 0 = some v ∧ v.barred = true
    ∧ v.assigned = true ∧ v.slot = none := ⟨_, rfl, rfl, rfl, rfl⟩

theorem witness_clock_below : (linked (fun l => { l with clockMHz := 1000 }) core).links.clockMHz < 1500 ∧ core.links.powerLimit = 0 := by decide +kernel

/-- R382: a healthy generator and a slot without blocks of the old epoch; R394: a link with a key of the slot. -/
theorem witness_new_epoch : let s := linked (fun l => { l with dieLinks := [link] }) (mapped core)
    rngHealthy s ∧ (ctxVf s).isSome = true ∧ ctxKey s = 0 ∧ oldBlocks s 0 (keySlot s 0).ce = 0
    ∧ (∃ d ∈ s.links.dieLinks, ∃ x ∈ d.keys, x.slot = some 0) := by
  refine ⟨by unfold rngHealthy; decide +kernel, by decide +kernel, by decide +kernel, by decide +kernel, by decide +kernel⟩

/-- R391: a function in RUN is bound to dies 0 to 7. -/
theorem witness_bound_function : ∃ v ∈ (function .run).hub.vfs, v.tdisp = .run ∧ ¬(v.part < 0 ∨ 0 + 8 ≤ v.part) := by decide +kernel

end Sys2Proof.Tests
end

section
/-! PROOFS. QFEAT (R134): the fields of its word, what the decoder answers for them, and the feature bit of R63. -/

namespace Sys2Proof.Proofs

open Sys2Proof Sys2Proof.Machine Sys2Proof.Laws

/-- A word of the custom-0 space, whatever its yield mark (R26, R33). -/
theorem decodeS_custom0 {w : Nat} (hbit : bits w 0 1 = 1) (hop : bits w 2 5 = 2) : decodeS w = decodeCustom0 w := by
  simp [decodeS, hbit, hop]

/-- The entry of custom-0 at funct3 100: bits 15 to 19 are 0 and the number is below 128 (R33, R134). -/
theorem decodeCustom0_funct3_four {w : Nat} (hf : bits w 12 3 = 4) (hz : bits w 15 5 = 0) :
    decodeCustom0 w = if bits w 20 12 < 128 then some (.qfeat (reg w 7) (Fin.ofNat 128 (bits w 20 12))) else none := by
  simp [decodeCustom0, hf, hz]

/-- What the S slot makes of QFEAT's word, for every number that its field can hold. -/
theorem decodeS_qfeatWord {rd : Fin 32} {n : Fin 4096} {y : Fin 2} {w : Nat}
    (hw : w = n.val * 2 ^ 20 + 4 * 2 ^ 12 + rd.val * 2 ^ 7 + 0x09 + 2 * y.val) :
    decodeS w = if n.val < 128 then some (.qfeat rd (Fin.ofNat 128 n.val)) else none := by
  have hn := n.isLt
  have hrd := rd.isLt
  have hy := y.isLt
  have bit0 : bits w 0 1 = 1 := by simp only [bits]; omega
  have opcode : bits w 2 5 = 2 := by simp only [bits]; omega
  have dest : bits w 7 5 = rd.val := by simp only [bits]; omega
  have funct3 : bits w 12 3 = 4 := by simp only [bits]; omega
  have source : bits w 15 5 = 0 := by simp only [bits]; omega
  have number : bits w 20 12 = n.val := by simp only [bits]; omega
  rw [decodeS_custom0 bit0 opcode, decodeCustom0_funct3_four funct3 source, reg_of dest, number]

/-- A slot-S word that fails the decode step is the first failure of its bundle (R44, check 1). -/
theorem bundleTrap_of_decodeBad_s {s : State} {g : Granule} (h : decodeBad s (decodeWord .s (slotWord g 0)) = true) :
    bundleTrap s g = some ⟨cIllegalOp, tvalIssue 1 0 0 (slotWord g 0), false⟩ := by
  simp [bundleTrap, bundleOps, allSlots, slotNo, h]

/-- The features of the AX1 are numbers 0 to 16 (R63). -/
theorem feat0_getLsbD (i : Nat) : feat0.getLsbD i = decide (i < 17) := by
  rw [show feat0 = BitVec.ofNat 64 (2 ^ 17 - 1) from rfl, BitVec.getLsbD_ofNat, Nat.testBit_two_pow_sub_one, ← Bool.decide_and]
  exact decide_eq_decide.2 (by omega)

/-- The value of QFEAT number i: `feat1` reads 0, so a number of 64 or more adds no feature (R63). -/
theorem featureWord_eq (i : Nat) : boolW (decide (i < 64) && feat0.getLsbD i) = if i < 17 then 1 else 0 := by
  rw [feat0_getLsbD, ← Bool.decide_and, boolW]
  exact if_congr (by simp only [decide_eq_true_eq]; omega) rfl rfl

/-- QFEAT that nothing keeps from issuing posts its feature bit in class 0 (R134). -/
theorem exec_qfeat {rd : Fin 32} {m : Fin 128} {s : State} (ho : s.cyc.isSome = true) (hc : canIssueX rd [] 0 s) :
    exec (.qfeat rd m) s = .next (postX .s rd (if m.val < 17 then 1 else 0) 0 s) := by
  rw [show exec (.qfeat rd m) s = execQfeat rd m s from rfl, execQfeat, issue_ok ho (scalar_ok hc), featureWord_eq]

/-- Settles O57: the word's fields decide between the operation and ILLEGAL_OP, and the operation posts R63's bit. -/
theorem qfeatWritesAFeatureBit : Obligations.qfeat_writes_a_feature_bit := by
  intro rd n y w hw
  have hdec := decodeS_qfeatWord hw
  refine ⟨fun m hm => ⟨?_, fun s ho hc => exec_qfeat ho hc⟩, fun hn => ?_⟩
  · rw [if_pos (by omega), fin_of hm] at hdec
    rw [decodeWord, decodeSlot, hdec, Option.getD_some]
  · rw [if_neg (by omega)] at hdec
    have hbad : decodeWord .s w = .unassignedOpcode .s (BitVec.ofNat 32 w) := by
      rw [decodeWord, decodeSlot, hdec, Option.getD_none]
    refine ⟨hbad, fun s g hg => ?_⟩
    subst hg
    exact bundleTrap_of_decodeBad_s (by rw [hbad]; rfl)

end Sys2Proof.Proofs
end

section
/-! PROOFS. HGET and HCLR (R157, R158): the fields of their words, the doubleword read and the descriptor cleared. -/

namespace Sys2Proof.Proofs

open Sys2Proof Sys2Proof.Machine Sys2Proof.Laws

/-- A slot-L word that fails the decode step under a sound S slot is the first failure of its bundle (R44, check 1). -/
theorem bundleTrap_of_decodeBad_l {s : State} {g : Granule} (hs : decodeBad s (decodeWord .s (slotWord g 0)) = false)
    (hl : decodeBad s (decodeWord .l (slotWord g 1)) = true) :
    bundleTrap s g = some ⟨cIllegalOp, tvalIssue 1 1 0 (slotWord g 1), false⟩ := by
  simp [bundleTrap, bundleOps, allSlots, slotNo, hs, hl]

/-! ### The words -/

/-- HGET's entry in the L slot's table (R157). -/
theorem decodeL_opcode17 {w : Nat} (hop : bits w 26 6 = 17) (hz : bits w 0 14 = 0) :
    decodeL w = if bits w 14 3 < 4 then some (.hget (hnd w 22) (reg w 17) (Fin.ofNat 4 (bits w 14 3))) else none := by
  simp [decodeL, hop, hz]

/-- HCLR's entry in the L slot's table (R158). -/
theorem decodeL_opcode18 {w : Nat} (hop : bits w 26 6 = 18) (hz : bits w 0 22 = 0) :
    decodeL w = if bits w 22 4 ≠ 15 then some (.hclr (hnd w 22)) else none := by
  simp [decodeL, hop, hz]

/-- What the L slot makes of HGET's word, for every selector that its field can hold. -/
theorem decodeL_hgetWord {h : Fin 16} {xd : Fin 32} {sel : Fin 8} {w : Nat}
    (hw : w = 0x11 * 2 ^ 26 + h.val * 2 ^ 22 + xd.val * 2 ^ 17 + sel.val * 2 ^ 14) :
    decodeL w = if sel.val < 4 then some (.hget h xd (Fin.ofNat 4 sel.val)) else none := by
  have hh := h.isLt
  have hxd := xd.isLt
  have hsel := sel.isLt
  have opcode : bits w 26 6 = 17 := by simp only [bits]; omega
  have handle : bits w 22 4 = h.val := by simp only [bits]; omega
  have dest : bits w 17 5 = xd.val := by simp only [bits]; omega
  have selector : bits w 14 3 = sel.val := by simp only [bits]; omega
  have low : bits w 0 14 = 0 := by simp only [bits]; omega
  rw [decodeL_opcode17 opcode low, hnd_of handle, reg_of dest, selector]

/-- What the L slot makes of HCLR's word, h15's among them. -/
theorem decodeL_hclrWord {h : Fin 16} {w : Nat} (hw : w = 0x12 * 2 ^ 26 + h.val * 2 ^ 22) :
    decodeL w = if h = 15 then none else some (.hclr h) := by
  have hh := h.isLt
  have opcode : bits w 26 6 = 18 := by simp only [bits]; omega
  have handle : bits w 22 4 = h.val := by simp only [bits]; omega
  have low : bits w 0 22 = 0 := by simp only [bits]; omega
  rw [decodeL_opcode18 opcode low, handle, hnd_of handle, ite_not]
  exact if_congr (Fin.ext_iff (b := (15 : Fin 16))).symm rfl rfl

/-- A word that the L slot decodes. -/
theorem decodeWord_l_some {w : Nat} {i : Instr} (h : decodeL w = some i) : decodeWord .l w = i := by
  rw [decodeWord, decodeSlot, h, Option.getD_some]

/-- A word that the L slot refuses. -/
theorem decodeWord_l_none {w : Nat} (h : decodeL w = none) :
    decodeWord .l w = .unassignedOpcode .l (BitVec.ofNat 32 w) := by
  rw [decodeWord, decodeSlot, h, Option.getD_none]

/-! ### The operations -/

/-- h0 to h14 read as their registers stand. -/
theorem readH_of_ne {s : State} {h : Fin 16} (hh : h ≠ 15) : readH s h = s.regs.h.get h := if_neg hh

/-- h15 is fixed (R150). -/
theorem readH_15 (s : State) : readH s 15 = h15Descriptor := if_pos rfl

/-- A field of a bit vector's number is the slice of its bits. -/
theorem ofNat_bits_toNat (g : Granule) (lo : Nat) : word (bits g.toNat lo 64) = g.extractLsb' lo 64 := by
  apply BitVec.eq_of_toNat_eq
  simp [word, bits, BitVec.extractLsb'_toNat, Nat.shiftRight_eq_div_pow]

/-- h15's doublewords: the attribute word 0x3701 at selector 2, zeros elsewhere (R157). -/
theorem h15Descriptor_doubleword (m : Fin 4) :
    h15Descriptor.extractLsb' (64 * m.val) 64 = if m = 2 then 0x3701 else 0 := by
  fin_cases m <;> rfl

/-- HGET that nothing keeps from issuing posts a doubleword of the descriptor in class 0. -/
theorem exec_hget {h : Fin 16} {xd : Fin 32} {m : Fin 4} {s : State} (ho : s.cyc.isSome = true) (hc : canIssueX xd [] 0 s)
    (he : isEmpty s (.h h) = false) :
    exec (.hget h xd m) s = .next (postX .l xd ((readH s h).extractLsb' (64 * m.val) 64) 0 s) := by
  obtain ⟨-, hx, hr⟩ := hc
  rw [← ofNat_bits_toNat]
  exact issue_ok ho (by simp [hx, he, hr])

/-- HCLR that nothing keeps from issuing posts the all-zero descriptor in class 0. -/
theorem exec_hclr {h : Fin 16} {s : State} (hh : h ≠ 15) (ho : s.cyc.isSome = true) (he : isEmpty s (.h h) = false)
    (hr : recordsFull s (lat s 0) = false) :
    exec (.hclr h) s = .next (push (Flight.start s .l (.h h) (.h 0) (lat s 0)) s) :=
  issue_ok ho (by simp [hh, he, hr])

/-- The all-zero descriptor is of kind 0, the first of R154's checks of a handle. -/
theorem handleBad_zero (s : State) (h : Fin 16) (kinds : List Nat) (write : Bool) (va stop : Nat) :
    handleBad s h 0 kinds write va stop = some (cHandleBounds, va) := if_pos (by decide)

/-! ### The rules -/

/-- R157, for the words whose selector names a doubleword. -/
theorem hget_legal {h : Fin 16} {xd : Fin 32} {sel : Fin 8} {w : Nat}
    (hw : w = 0x11 * 2 ^ 26 + h.val * 2 ^ 22 + xd.val * 2 ^ 17 + sel.val * 2 ^ 14) {m : Fin 4} (hm : sel.val = m.val) :
    decodeWord .l w = .hget h xd m := by
  have hdec := decodeL_hgetWord hw
  rw [if_pos (by omega), fin_of hm] at hdec
  exact decodeWord_l_some hdec

/-- R157, for the selectors 4 to 7. -/
theorem hget_illegal {h : Fin 16} {xd : Fin 32} {sel : Fin 8} {w : Nat}
    (hw : w = 0x11 * 2 ^ 26 + h.val * 2 ^ 22 + xd.val * 2 ^ 17 + sel.val * 2 ^ 14) (hsel : 4 ≤ sel.val) :
    decodeWord .l w = .unassignedOpcode .l (BitVec.ofNat 32 w) :=
  decodeWord_l_none ((decodeL_hgetWord hw).trans (if_neg (by omega)))

/-- Settles O58: the selector's field decides between the operation and ILLEGAL_OP, the handle's field the same for HCLR, and
a cleared handle stops at the kind check. -/
theorem hgetReadsAndHclrClearsADescriptor : Obligations.hget_reads_and_hclr_clears_a_descriptor := by
  refine ⟨fun h xd sel w hw => ⟨fun m hm => ⟨hget_legal hw hm, fun s ho hc he => ⟨fun hh => ?_, fun hh => ?_⟩⟩,
    fun hsel => ⟨hget_illegal hw hsel, fun s g hs hg => ?_⟩⟩, hget_legal (h := 1) (xd := 22) (sel := 0) rfl rfl,
    fun h w hw => ⟨fun hh => ⟨?_, fun s ho he hr => exec_hclr hh ho he hr, fun s kinds write va stop hz => ?_⟩, fun hh => ?_⟩⟩
  · rw [exec_hget ho hc he, readH_of_ne hh]
  · subst hh
    rw [exec_hget ho hc he, readH_15, h15Descriptor_doubleword]
  · subst hg
    exact bundleTrap_of_decodeBad_l hs (by rw [hget_illegal hw hsel]; rfl)
  · exact decodeWord_l_some ((decodeL_hclrWord hw).trans (if_neg hh))
  · rw [readH_of_ne hh, hz]
    exact handleBad_zero s h kinds write va stop
  · exact decodeWord_l_none ((decodeL_hclrWord hw).trans (if_pos hh))

end Sys2Proof.Proofs
end

section
/-! PROOFS. KALU and KRD (R287, R291): their words, the check register read or computed, and KRD's collision with an S-slot write. -/

namespace Sys2Proof.Proofs

open Sys2Proof Sys2Proof.Machine Sys2Proof.Laws

/-! ### Sources of KALU -/

/-- A source's select bit and number as one field of six bits (R41). -/
theorem ksrc_field {a : KSrc} {n : Nat} (hk : ∀ i, a = .k i → n = i.val) (hx : ∀ i, a = .x i → n = 32 + i.val) :
    n = 32 * ksrcBit a + ksrcNum a := by
  cases a with
  | k i => rw [hk i rfl, ksrcBit, ksrcNum]; omega
  | x i => rw [hx i rfl, ksrcBit, ksrcNum]

/-- A source's value, by its kind. -/
theorem kRead_eq {s : State} {a : KSrc} {v : Word} (hk : ∀ i, a = .k i → v = s.regs.k.get i) (hx : ∀ i, a = .x i → v = readX s i) :
    kRead s a = v := by
  cases a with
  | k i => exact (hk i rfl).symm
  | x i => exact (hx i rfl).symm

/-- A source that is full keeps nothing from issuing (R286). -/
theorem kEmpty_full {s : State} {a : KSrc} (hk : ∀ i, a = .k i → isEmpty s (.k i) = false)
    (hx : ∀ i, a = .x i → xEmpty s i = false) : kEmpty s a = none := by
  cases a with
  | k i => simp [kEmpty, stallIf, hk i rfl]
  | x i => simp [kEmpty, stallIf, hx i rfl]

/-! ### KALU -/

/-- The codes of R41 are the encoder's. -/
theorem kopCode_of_mem {op : KOp} {code : Nat}
    (h : (op, code) ∈ [(KOp.add, 0), (.sub, 1), (.and, 2), (.or, 3), (.xor, 4), (.sll, 5), (.srl, 6), (.sra, 7), (.slt, 8)]) :
    code = kopCode op := by
  cases op <;> simpa [kopCode] using h

/-- The nine results of R287 are those of the model's operation. -/
theorem kaluVal_of_mem {op : KOp} {va vb r : Word}
    (h : (op, r) ∈ [(KOp.add, va + vb), (.sub, va - vb), (.and, va &&& vb), (.or, va ||| vb), (.xor, va ^^^ vb),
      (.sll, va <<< (vb.toNat % 64)), (.srl, va >>> (vb.toNat % 64)), (.sra, va.sshiftRight (vb.toNat % 64)),
      (.slt, if va.toInt < vb.toInt then 1 else 0)]) : kaluVal op va vb = r := by
  rw [eq_comm]
  cases op <;> simpa [kaluVal, BitVec.slt] using h

/-- KALU's word, its sources as fields of six bits; k7 is no destination of it (R285, R287). -/
theorem decodeWord_kaluWord {op : KOp} {kd : Fin 8} {a b : KSrc} (hkd : kd ≠ 7) :
    decodeWord .k (0x01 * 2 ^ 26 + kd.val * 2 ^ 23 + (32 * ksrcBit a + ksrcNum a) * 2 ^ 17 + (32 * ksrcBit b + ksrcNum b) * 2 ^ 11
      + kopCode op * 2 ^ 7) = .kalu op kd a b := by
  obtain ⟨-, hdec, -⟩ := RoundTrip.kalu op kd a b (decide_eq_true fun h => hkd (Fin.ext h))
  rw [← hdec]
  congr 1
  ring

/-- KALU that nothing keeps from issuing posts its result in class 13 (R286, R287). -/
theorem exec_kalu {op : KOp} {kd : Fin 8} {a b : KSrc} {s : State} (ho : s.cyc.isSome = true) (ha : kEmpty s a = none)
    (hb : kEmpty s b = none) (hd : isEmpty s (.k kd) = false) (hr : recordsFull s (lat s 13) = false) :
    exec (.kalu op kd a b) s
      = .next (push (Flight.start s .k (.k kd) (.x (kaluVal op (kRead s a) (kRead s b))) (lat s 13)) s) :=
  issue_ok ho (firstHalt_none _ _ (by simp [ha, hb, destHalt, hd, recordHalt, hr]))

/-- Settles O59: the word is the encoder's, and the nine results are those of the model's operation on the two sources. -/
theorem kaluComputesIntoACheckRegister : Obligations.kalu_computes_into_a_check_register := by
  refine ⟨fun kd a b fa fb op code hkd hak hax hbk hbx hop => ⟨?_, fun s ho hke hxe hd hr va vb r hvak hvax hvbk hvbx hres => ?_⟩,
    decodeWord_kaluWord (op := .add) (kd := 1) (a := .x 5) (b := .x 6) (by decide)⟩
  · rw [ksrc_field hak hax, ksrc_field hbk hbx, kopCode_of_mem hop]
    exact decodeWord_kaluWord hkd
  · have ha := kEmpty_full (a := a) (fun i h => hke i (.inl h)) (fun i h => hxe i (.inl h))
    have hb := kEmpty_full (a := b) (fun i h => hke i (.inr h)) (fun i h => hxe i (.inr h))
    refine ⟨_, ?_, rfl, rfl, rfl, rfl, rfl⟩
    rw [exec_kalu ho ha hb hd hr, kRead_eq hvak hvax, kRead_eq hvbk hvbx, kaluVal_of_mem hres]

/-! ### KRD -/

/-- KRD's word. -/
theorem decodeWord_krdWord (xd : Fin 32) (ka : Fin 8) :
    decodeWord .k (0x06 * 2 ^ 26 + xd.val * 2 ^ 21 + ka.val * 2 ^ 18) = .krd xd ka :=
  (RoundTrip.krd xd ka rfl).2.1

/-- A full x destination keeps nothing from issuing (R51). -/
theorem destHalt_x_full {s : State} {r : Fin 32} (h : xEmpty s r = false) : destHalt s (.x r) = none := by
  simpa [destHalt, xEmpty] using h

/-- The shadow ALU works with slot S alone: another slot's scalar result has no copy (R293). -/
theorem postX_of_ne_s {sl : Slot} {rd : Fin 32} {w : Word} {cls : Nat} {s : State} (h : sl ≠ .s) :
    postX sl rd w cls s = push (Flight.start s sl (xDest rd) (.x w) (lat s cls)) s := by
  have hs : (sl == .s) = false := beq_false_of_ne h
  rw [postX, hs, Bool.and_false]
  rfl

/-- KRD that nothing keeps from issuing posts the check register in class 13 (R291). -/
theorem exec_krd {xd : Fin 32} {ka : Fin 8} {s : State} (ho : s.cyc.isSome = true) (he : isEmpty s (.k ka) = false)
    (hc : canIssueX xd [] 13 s) : exec (.krd xd ka) s = .next (postX .k xd (readK s ka) 13 s) := by
  obtain ⟨-, hx, hr⟩ := hc
  exact issue_ok ho (firstHalt_none _ _ (by simp [stallIf, he, destHalt_x_full hx, xRecordHalt, hr]))

/-! ### Collisions -/

/-- A bundle has no collision exactly when no two of its operations share a destination that can collide (R45). -/
theorem collision_eq_none_iff {l : List (Slot × Instr)} :
    collision l = none ↔ l.Pairwise fun a b => ∀ r ∈ clashing a.2, r ∉ clashing b.2 := by
  induction l with
  | nil => simp [collision]
  | cons a l ih =>
    rw [collision, List.pairwise_cons, ← ih]
    split
    · next b hb =>
      have hshare := List.find?_some hb
      obtain ⟨r, hra, hrb⟩ := List.any_eq_true.1 hshare
      refine iff_of_false (Option.some_ne_none _) fun ⟨hall, _⟩ => ?_
      exact hall b (List.mem_of_find?_eq_some hb) r hra (List.contains_iff_mem.1 hrb)
    · next hnone => exact (and_iff_right (by simpa using hnone)).symm

/-- Slots S and K of a bundle that name one destination collide (R45). -/
theorem collision_of_shared_s_k {g : Granule} {r : Res} (hs : r ∈ clashing (decodeWord .s (slotWord g 0)))
    (hk : r ∈ clashing (decodeWord .k (slotWord g 7))) : collision (bundleOps g) ≠ none := by
  rw [ne_eq, collision_eq_none_iff]
  intro h
  have hhead := List.rel_of_pairwise_cons h (a' := (Slot.k, decodeWord .k (slotWord g 7))) (by simp [slotNo])
  exact hhead r hs hk

/-- A bundle that decodes and has a collision is ILLEGAL_BUNDLE (R44, R45). -/
theorem bundleTrap_of_collision {s : State} {g : Granule} (hdec : ∀ o ∈ bundleOps g, decodeBad s o.2 = false)
    (hc : collision (bundleOps g) ≠ none) : ∃ v, bundleTrap s g = some ⟨cIllegalBundle, v, false⟩ := by
  obtain ⟨⟨a, b⟩, hab⟩ := Option.ne_none_iff_exists'.1 hc
  have hfind : (bundleOps g).find? (fun o => decodeBad s o.2) = none :=
    List.find?_eq_none.2 fun o ho => by simp [hdec o ho]
  refine ⟨tvalIssue 2 (slotNo a) (slotNo b) (slotWord g (slotNo a)), ?_⟩
  simp only [bundleTrap, hfind, hab]

/-- An x register other than x0 can collide. -/
theorem x_mem_clashing {i : Instr} {r : Fin 32} (hr : r ≠ 0) (h : .x r ∈ resources i) : .x r ∈ clashing i :=
  List.mem_filter.2 ⟨h, by simpa using hr⟩

/-- Settles O60: the word is the encoder's, KRD posts the check register without a shadow copy, and its x destination in slot K
is one that slot S names too. -/
theorem krdCopiesACheckRegister : Obligations.krd_copies_a_check_register := by
  refine ⟨fun xd ka => ⟨decodeWord_krdWord xd ka, fun s ho he hc => ?_⟩, decodeWord_krdWord 10 7, fun s g xd ka hxd hdec hs hk => ?_⟩
  · refine ⟨Flight.start s .k (xDest xd) (.x (readK s ka)) (lat s 13), ?_, rfl, rfl⟩
    rw [exec_krd ho he hc, postX_of_ne_s (by decide)]
  · have hkrd : .x xd ∈ resources (decodeWord .k (slotWord g 7)) := by rw [hk]; exact List.mem_singleton_self _
    exact bundleTrap_of_collision hdec (collision_of_shared_s_k (x_mem_clashing hxd hs) (x_mem_clashing hxd hkrd))

end Sys2Proof.Proofs
end
